-- ==== Sys2Proof/Word.lean ====
section
/-! DEFINITION. The word types of the package (00 R11: values are little-endian; registers are 32 bits wide). -/

namespace Sys2Proof

/-- A byte of memory. -/
abbrev Byte := BitVec 8

/-- A register of register space, a thread register, an element of an accumulator. -/
abbrev Word32 := BitVec 32

/-- A word of a stream or of a program, a uniform register, a gong value. -/
abbrev Word64 := BitVec 64

/-- A 64-byte line. -/
abbrev Line := BitVec 512

end Sys2Proof
end

