-- ==== Sys2Proof/Machine/Parts/Ctp.lean ====
section
/-! DEFINITION. CTP messages (14 R421, R422) as a sender or receiver sees them. -/

namespace Sys2Proof.Machine.Parts

/-- A CTP message: the fields of words 0 and 1, words 2 and 3, the payload. -/
structure Ctp where
  ver : Nat
  typ : Nat
  cls : Nat
  ackreq : Bool
  last : Bool
  ecne : Bool
  retx : Bool
  dst : Nat
  src : Nat
  ackv : Bool
  psn : Nat
  ack : Nat
  w2 : Word64
  w3 : Word64
  data : List Byte
  deriving DecidableEq, Repr

/-- A frame that a channel receives as a CTP message: the message, the source address of its IPv6 header, whether it was
marked CE, and the stored words of it that fail their parity on being read (14 R417, R443). -/
structure RxMsg where
  m : Ctp
  ip : Nat
  ce : Bool
  bad : List Nat
  deriving DecidableEq, Repr

/-- What a channel transmits: a CTP message with the bytes of its whole frame (14 R416, R418), or a raw frame, to which an FCS is added
(14 R439). -/
inductive TxFrame where
  | ctp (m : Ctp) (frame : List Byte)
  | raw (bytes : List Byte)
  deriving DecidableEq, Repr

/-- A transfer whose source the spec names without saying how it is issued: a two-sided send (tag, index, last) or a
doorbell to a peer's queue (14, sources of transfers). -/
inductive TwoSided where
  | send (tag index : Nat) (last : Bool) (bytes : List Byte)
  | doorbell (queue count : Nat)
  deriving DecidableEq, Repr

end Sys2Proof.Machine.Parts
end

