-- ==== Sys2Proof/Machine/Parts/Mem.lean ====
section
/-! DEFINITION. Storage (10 R304 to R343): bytes of the far tier, scratch and tile memory by physical address, poison
by 64 B line, the lines that the wells hold, the bucket assignment and steps of each well, the shares and slots of
each CD's far tier. -/

namespace Sys2Proof.Machine.Parts

/-- What a physical address names (10 R304 to R308): a far-tier line (CD and region-relative address), unfitted far
tier, a scratch slice, a tile's memory, a window of an absent CD, register space, gong space, the host-private range,
or a hole. -/
inductive PaKind where
  | far (cd l : Nat)
  | unfitted
  | scratch (cd slice : Nat)
  | tile (cd t : Nat)
  | noCd
  | regs
  | gong
  | priv
  | hole
  deriving DecidableEq, Repr

/-- A far-tier line held at its home in a cache-mode slice (10 R314). -/
structure WellLine where
  valid : Bool := false
  dirty : Bool := false
  poison : Bool := false
  data : Line := 0
  deriving DecidableEq, Repr

/-- A step of a well's boundary (10 R318, R319): none, shrinking, or growing. -/
inductive WellStep where
  | none
  | shrink
  | grow
  deriving DecidableEq, Repr

/-- The well of one CD: cache-mode slices now, the homes of its buckets (key = bucket), a step in progress with its
slice and the buckets still to hand over, the target last acted on (10 R317), and whether the target's arrival has
still to be announced. -/
structure Well where
  current : Nat
  homes : List (Nat × Nat)
  step : WellStep
  stepSlice : Nat
  left : Nat
  target : Nat
  announce : Bool
  deriving DecidableEq, Repr

/-- A sector waiting to be rewritten after a correcting read (10 R328, R329). -/
structure Rewrite where
  line : Nat
  data : Line
  poison : Bool
  deriving DecidableEq, Repr

/-- A map-out in progress (10 R333): the failing channel, the victim frame, `lost`, `fast`, and the shares (frames)
still to copy with the slot each will take. -/
structure MapOut where
  channel : Nat
  frame : Nat
  lost : Bool
  fast : Bool
  left : List (Nat × Nat)
  deriving DecidableEq, Repr

/-- The far tier of one CD: absent frames, state of each channel (0 UP, 1 RETRAIN, 2 SOURCE, 3 MAPPED_OUT,
4 NOSTACK; key = channel), relocated shares (key = frame × 128 + channel, value = the same code of the slot that
holds it), the map-out in progress, the commanded scrub in progress, sectors waiting for a rewrite, `auto_wait`,
the patrol position of each channel (10 R330), the channels in self-refresh (17 R529), and the scrub mode each
controller runs in (02 R56: it changes at the controller's own refresh window). -/
structure FarTier where
  gone : List Nat
  chan : List (Nat × Nat)
  slots : List (Nat × Nat)
  mapout : Option MapOut
  scrub : Option (Nat × Nat × Nat)
  rewr : List Rewrite
  autoWait : Bool
  patrol : List (Nat × Nat)
  selfRefresh : List (Nat × Bool)
  modes : List (Nat × Bool)
  deriving DecidableEq, Repr

/-- What a line held before it was written while launches ran (04 R121): the line, its content, and those launches, each by its CD
and number. -/
structure PastLine where
  line : Nat
  data : Line
  launches : List (Nat × Nat)
  deriving DecidableEq, Repr

/-- Storage of the package. Bytes are keyed by physical address (a tile's memory by its window), poison by line
number, well lines by line number; lines of tile memory or scratch read with a corrected bit wait in `rewr`. `lost` names
the CDs that the HD has declared down (18 R544, R547), `stale` those whose far tier was written poisoned in every sector
when they rejoined (18 R548: `poison` then lists what differs from that), `cut` those whose N-port has declared its peer
down; `past` holds the earlier contents that a fetch of code may still show. -/
structure Mem where
  bytes : List Host.Cell
  poison : List (Nat × Bool)
  lines : List (Nat × WellLine)
  rewr : List Nat
  wells : List (Nat × Well)
  ft : List (Nat × FarTier)
  lost : List Nat
  stale : List Nat
  cut : List Nat
  past : List PastLine
  deriving DecidableEq, Repr

end Sys2Proof.Machine.Parts
end

