-- ==== Sys2Proof/Machine/Parts/Port.lean ====
section
/-! DEFINITION. Die-to-die ports (01 R16 to R30). -/

namespace Sys2Proof.Machine.Parts

/-- One port: its state as D2D.PORT_STATUS codes it, the bundles that are sound (a mask), the governing version, the kind
of its peer, training attempts made, the spares in use by bundle (masks), consecutive marker mismatches by wire (key =
bundle × 256 + wire), wires that await steering in order of retirement (the first eight are in D2D.FAIL, the rest are its
overflow), agreed steerings (bundle, wire, spare), the bundles that carry no data in this marker interval, the wires that
showed errors in loop-back, the replay count, and whether the cadence release point holds. -/
structure Port where
  state : Nat := 0
  good : Nat := 0
  version : Nat := 0
  peerKind : Nat := 0
  attempts : Nat := 0
  spares : List (Nat × Nat) := []
  miss : List (Nat × Nat) := []
  waiting : List (Nat × Nat) := []
  todo : List (Nat × Nat × Nat) := []
  quiet : List Nat := []
  errs : List (Nat × Nat) := []
  replays : Nat := 0
  relOk : Bool := false
  deriving DecidableEq, Repr

/-- What the identity words of a training exchange say (01 R23): the highest and lowest version of this end and of the
peer, and the peer's kind (1 HD, 2 CDa, 3 CDb). -/
structure Ident where
  hi : Nat
  lo : Nat
  peerHi : Nat
  peerLo : Nat
  kind : Nat
  deriving DecidableEq, Repr

end Sys2Proof.Machine.Parts
end

