-- ==== Sys2Proof/Machine/Parts/Flash.lean ====
section
/-! DEFINITION. The ledger flash (19 R567 to R575): what survives a stop. -/

namespace Sys2Proof.Machine.Parts

/-- The ledger flash. `bytes`: bytes written since delivery, by flash offset; `slots`: the slot record, by instance code (0
the waystation, 1 + c the dispatchers, 5 + n the host cores, 69 + ch the channels), bit 0 the active slot, bit 1 the
fall-back bit; `writes`: how often the slot record, the repair map or the operator record has been written; `floors`: the
security-version floors by component; `floorOk`: a valid floor record exists; `tiles`: the repair map's tiles, by
CD × 192 + physical tile, as WEAR.TILE shows them; `ft`: the repair map's far tiers; `boots`: the boot count. -/
structure Flash where
  bytes : List (Nat × Option Byte)
  slots : List (Nat × Nat)
  writes : Nat
  floors : List (Nat × Nat)
  floorOk : Bool
  tiles : List (Nat × Word32)
  ft : List (Nat × FarTier)
  boots : Nat
  deriving DecidableEq, Repr

/-- What boot finds of a component (19 R571, R572, R575): whether slot A and slot B hold an image that passes. -/
structure SlotCheck where
  a : Bool
  b : Bool
  deriving DecidableEq, Repr

/-- What training at boot finds at a port (01 R20, R23, R24; 15 R461): die, instance, the bundles with their clock pair (a
mask), the wires that fail with the spare nearest to each, the identity words, and whether the release point holds. A port
that is not listed and faces a die has failed. -/
structure PortBoot where
  die : Nat
  inst : Nat
  clocks : Nat
  bad : List (Nat × Nat × Nat)
  ident : Ident
  relOk : Bool
  deriving DecidableEq, Repr

/-- What boot finds (01 R34 to R36; 19 R574 to R578): whether the seed was reconstructed and the certificate verified;
whether a slot record and a repair map were valid; what the slots of the four components hold; whether the descriptor, the
trims and the floor record verified, with the floors it gives; the descriptor's variant code and version; the sites
whose presence strap is closed, the CDs that power up and lock, the stacks that answer and train (masks), the ports that train, and whether ROOTCLK is present at step 5
(21 R627). -/
structure BootIn where
  idOk : Bool
  certOk : Bool
  recordOk : Bool
  repairOk : Bool
  ws : SlotCheck
  dispatcher : SlotCheck
  core : SlotCheck
  chan : SlotCheck
  descOk : Bool
  trimsOk : Bool
  floorOk : Bool
  floors : List (Nat × Nat)
  code : Nat
  version : Nat
  straps : Nat
  cds : Nat
  stackMask : Nat
  ports : List PortBoot
  rootclk : Bool
  deriving DecidableEq, Repr

/-- A measurement entry (19 R580, R581): slot, security version, measurement. An instance without one shows zeros. -/
structure Measured where
  slot : Nat
  version : Nat
  hash : Nat
  deriving DecidableEq, Repr

/-- A report in production (19 R582): its nonce, where the host wants it, or the management command that asked. -/
structure Report where
  nonce : List Byte
  addr : Nat
  cmd : Option Nat
  deriving DecidableEq, Repr

/-- The identity unit: the entries by instance code (those of R572, then 117 the descriptor, 118 the trims, 119 the floor
record), and the report in production. -/
structure Trust where
  entries : List (Nat × Measured)
  report : Option Report
  deriving DecidableEq, Repr

end Sys2Proof.Machine.Parts
end

