-- ==== Sys2Proof/Machine/Parts/Host.lean ====
section
/-! DEFINITION. What the host cores see of their accesses (10 R307 to R309; 12; 19 R567, R568): the results, oldest
first. -/

namespace Sys2Proof.Machine.Parts

/-- The result of one host access: a value of so many bytes, with its poison; the success of a store-conditional; or an
access fault at the hart. -/
inductive HostResult where
  | value (core : Nat) (v : Nat) (poison : Bool)
  | sc (core : Nat) (ok : Bool)
  | fault (core : Nat)
  deriving DecidableEq, Repr

/-- What a host access through a window does (10 R309; 19 R567). -/
inductive HostOp where
  | load
  | store (v : Nat)
  | atomic
  deriving DecidableEq, Repr

end Sys2Proof.Machine.Parts
end

