-- ==== Sys2Proof/Machine/Parts/Mgmt.lean ====
section
/-! DEFINITION. The management tree (19 R583 to R589, R601). -/

namespace Sys2Proof.Machine.Parts

/-- A health event record (19 R589). -/
structure HealthRec where
  code : Nat
  die : Nat
  inst : Nat
  detail : Nat
  time : Word64
  deriving DecidableEq, Repr

/-- The content of an upward message (19 R584): HELLO (boot count, boot status), READY (PKG.VARIANT, PKG.PRESENT,
BOOT.STATUS), HEALTH (lost count, record), TELEMETRY (its values), RESULT (command number, result code 0 OK, 1 STATE,
2 STALE, 3 ABSENT, 4 NOID, 5 BADSIG, 6 REPLAY, 7 FLOOR, 8 REVERTED: the spec names them and gives no numbers; value), REPORT (its bytes), ACK (sequence). -/
inductive UpBody where
  | hello (boots : Word64) (status : Word32)
  | ready (variant present status : Word32)
  | health (lost : Nat) (r : HealthRec)
  | telemetry (vals : List Word64)
  | result (cmd code : Nat) (value : Word32)
  | report (bytes : List Byte)
  | ack (seq : Nat)
  deriving DecidableEq, Repr

/-- An upward message: its sequence and content. -/
structure UpMsg where
  seq : Nat
  body : UpBody
  deriving DecidableEq, Repr

/-- Where an upward message goes (19 R583, R586): to the link-local all-routers group ff02::2, or to an address. -/
inductive MgtAddr where
  | routers
  | node (addr : Nat)
  deriving DecidableEq, Repr

/-- A message that has left on the lane, and where to. -/
structure SentUp where
  to_ : MgtAddr
  msg : UpMsg
  deriving DecidableEq, Repr

/-- A received COMMAND (19 R584, R587): the sequence of its message, whether its signature verifies, the boot count and the
command number it carries. -/
structure Command where
  seq : Nat
  signed : Bool
  boots : Nat
  number : Nat
  deriving DecidableEq, Repr

/-- The operator record (19 R585): the operator key and the parent's address. -/
structure Operator where
  key : Nat
  parent : Nat
  deriving DecidableEq, Repr

/-- The package waystation's management state: the lane (0 DOWN, 1 TRAINING, 2 UP), the operator record, the HD's P-cycle
count when the parent last acknowledged, whether it acknowledged READY, the next sequence, the queued upward messages
(oldest first), the lost count, the highest accepted command number, and the messages sent. -/
structure Mgmt where
  link : Nat
  operator : Option Operator
  ackAt : Option Word64
  readyAcked : Bool
  seq : Nat
  queue : List UpMsg
  lost : Nat
  lastCmd : Option Nat
  sent : List SentUp
  deriving DecidableEq, Repr

end Sys2Proof.Machine.Parts
end

