-- ==== Sys2Proof/Machine/Parts/Power.lean ====
section
/-! DEFINITION. Clocks, power, supply and the pins of the wake circuit (15, 17, 21). -/

namespace Sys2Proof.Machine.Parts

/-- The stages of a change of operating point (17 R510, 15 R470): the voltage rises, the divisor change may run, the gap. -/
inductive ChangeStage where
  | rising
  | ready
  | gap
  deriving DecidableEq, Repr

/-- A change of operating point in progress: the operating point, rest level and stage. -/
structure Change where
  op : Nat
  k : Nat
  stage : ChangeStage
  deriving DecidableEq, Repr

/-- A brace (17 R524): what it was entered on, and whether its checkpoint window is open. -/
structure Brace where
  holdup : Bool
  vin : Bool
  window : Bool
  deriving DecidableEq, Repr

/-- VIN as the base layer sees it (17 R523): 10.8 to 13.2 V, 10.2 to 10.8 V, below 10.2 V, 13.2 to 14.0 V. -/
inductive VinRange where
  | normal
  | low
  | sag
  | high
  deriving DecidableEq, Repr

/-- Clocks and power. `on`: the rails are up; `vpm`: the package waystation is powered and boots; `wakeHeld`: a WAKE waits
for VIN; `aux`: AUX is present; `holdup`: HOLDUP# is asserted; `cause`: the stop cause latched on AUX; `lastStop`: as
reported after boot; `phase`: root periods since the last A edge, by die; `par`: the place in the stretch pattern, by die;
`stopped`: dies whose PLL has lost lock; `lost`: phases shed, by rail; `op`, `k`: the setting applied; `change`, `next`: a
change of operating point and the decision that waits for its end; `level`: the rest level in force, by CD; `slot`: the
forced-rest slot, by CD; `droop`: the tripped detectors, by die; `edc`: dies that stretch for current; `edcRun`: control
steps above 90% in a row, by rail; `why`: the reasons the governor set; `restLater`: a target REST waits for RUN; `acnt`:
CLK.ACNT at the last telemetry step, by die. -/
structure Power where
  on : Bool
  vpm : Bool
  wakeHeld : Bool
  aux : Bool
  holdup : Bool
  vin : VinRange
  cause : Nat
  lastStop : Nat
  phase : List (Nat × Nat)
  par : List (Nat × Nat)
  stopped : List Nat
  lost : List (Nat × Nat)
  op : Nat
  k : Nat
  change : Option Change
  next : Option (Nat × Nat)
  level : List (Nat × Nat)
  slot : List (Nat × Nat)
  droop : List (Nat × Nat)
  edc : List Nat
  edcRun : List (Nat × Nat)
  why : Nat
  thermHold : Bool
  crit : Bool
  brace : Option Brace
  restLater : Bool
  acnt : List (Nat × Word64)
  deriving DecidableEq, Repr

/-- One partition at a control step (17 R515): its toll rate over the window, and the predicted rate at rest levels 1 to
16, in watts. -/
structure PartLoad where
  part : Nat
  rate : Nat
  pred : List Nat
  deriving DecidableEq, Repr

/-- What the power unit finds at a control step (17 R511 to R521): the calibrated estimate of the last step, its mean over
the window and whether a window ends with this step, the predictions P(op, k) at index 16 × op + k − 1, the partitions, the
calibrated currents by rail, the readings of the temperature sources (die, sensor, in 0.125 °C, present), and whether VIN
has been at least 10.8 V for 1 ms. -/
structure StepLoad where
  estimate : Nat
  mean : Nat
  windowEnd : Bool
  pred : List Nat
  parts : List PartLoad
  amps : List (Nat × Nat)
  temps : List (Nat × Nat × Int × Bool)
  vinSteady : Bool
  deriving DecidableEq, Repr

/-- A telemetry sample of a rail (17 R506): mV (10 mV for VIN), A, °C. -/
structure RailSample where
  rail : Nat
  volts : Nat
  amps : Nat
  temp : Nat
  deriving DecidableEq, Repr

/-- A calibration fit of a rail (17 R508): gain in 2^-14, offset in 1/16 W, whether its residual is within 5%. -/
structure RailFit where
  rail : Nat
  gain : Nat
  offset : Int
  close : Bool
  deriving DecidableEq, Repr

/-- The energy that one estimate of a die charges, in µJ (17 R531): to queues, to partitions beside their queues, and to
the shared counter. -/
structure Charges where
  queues : List (Nat × Nat)
  parts : List (Nat × Nat)
  shared : Nat
  deriving DecidableEq, Repr

end Sys2Proof.Machine.Parts
end

