-- ==== Sys2Proof/Machine/Parts/Service.lean ====
section
/-! DEFINITION. Live service (18): swaps, retrains, sensor calibration, the SVC command, the waystation's shadow. -/

namespace Sys2Proof.Machine.Parts

/-- A tile swap that waits for its tile (18 R552): the logical tile, the spare that will hold it, and whether the tile it
leaves has failed. -/
structure Swap where
  logical : Nat
  spare : Nat
  failed : Bool
  deriving DecidableEq, Repr

/-- The operations of SVC.CMD (18 R566). -/
inductive SvcOp where
  | chn
  | disp
  | core
  deriving DecidableEq, Repr

/-- An update in progress (18 R555): operation, target, the command number of the management command that carries it, the
image, the slot it goes to, whether it has still to be written there, whether it is switching, and whether the previous
slot has been started again. -/
structure SvcRun where
  op : SvcOp
  target : Nat
  cmd : Option Nat
  image : List Byte
  slot : Nat
  write : Bool
  switching : Bool
  reverting : Bool
  deriving DecidableEq, Repr

/-- An HBM channel that has shown a trend within 24 h (18 R554): CD, channel, and whether it returns no readable sector (10
R335). -/
structure Trend where
  cd : Nat
  chan : Nat
  dead : Bool
  deriving DecidableEq, Repr

/-- A tile's measurement (18 R550): physical tile, drift in 0.01%, whether TM.FLAGS `f_ue` was set twice within 24 h. -/
structure Drift where
  tile : Nat
  drift : Nat
  ue : Bool
  deriving DecidableEq, Repr

/-- A sensor's calibration (18 R541): sensor, and its distance from the reference in 0.125 °C. -/
structure SensorCal where
  sensor : Nat
  off : Nat
  deriving DecidableEq, Repr

/-- Live service. `shadow`: the waystation's copies of voted registers; `swaps`: swaps waiting, by CD; `tries`: failed
attempts of the retrain running, by CD; `turn`: the channel that is retrained next or after, by CD; `good`: consecutive
close calibrations, by die × 32 + sensor; `failed`: failed tiles not yet swapped, as CD × 192 + physical tile; `run`: the
update in progress; `evacTold`: the parent knows that the package is evacuated. -/
structure Service where
  shadow : List (Nat × Word32)
  swaps : List (Nat × List Swap)
  tries : List (Nat × Nat)
  turn : List (Nat × Nat)
  good : List (Nat × Nat)
  failed : List Nat
  run : Option SvcRun
  evacTold : Bool
  deriving DecidableEq, Repr

end Sys2Proof.Machine.Parts
end

