-- ==== Sys2Proof/Machine/Parts/Gong.lean ====
section
/-! DEFINITION. Gongs and chimes (09 R282 to R299). -/

namespace Sys2Proof.Machine.Parts

/-- A gong: its value and its chime slot (threshold, entry) (09 R282, R287). -/
structure Gong where
  value : Word64 := 0
  arm : Option (Word64 × Nat) := none
  deriving DecidableEq, Repr

/-- Who issued a gong operation or waits on a gong: a queue, a path of a tile (cd, tile, group slot, lane mask), a
drover's completion, the end of a block, a peer's message, or the host. -/
inductive Who where
  | queue (q : Nat)
  | path (cd tile slot lanes : Nat)
  | drover
  | blockEnd
  | peer
  | host
  deriving DecidableEq, Repr

/-- Gong functions (09 R287). -/
inductive GongFn where
  | add
  | set
  | max
  | arm (entry : Nat)
  | disarm
  deriving DecidableEq, Repr

/-- A gong update in flight: issued, and not yet performed by the gong unit (09 R288); its scope (R114 code) and, for
a thread, the tile issue order that its release covers. -/
structure GongUpd where
  gong : Nat
  fn : GongFn
  operand : Word64
  scope : Nat
  who : Who
  ord : Nat
  deriving DecidableEq, Repr

/-- The waiter entry a wait holds (09 R290): none yet, its own reserved entry, or a shared one. -/
inductive WaitEntry where
  | none
  | reserved
  | shared
  deriving DecidableEq, Repr

/-- An update that a convoy carries (09 R292): the convoy, the update, its packet sequence number once it has been sent;
it stays until the peer has acknowledged it. -/
structure CvUpd where
  convoy : Nat
  upd : GongUpd
  psn : Option Nat
  deriving DecidableEq, Repr

/-- A wait: `eq` tells `gong.wait.eq` from `gong.wait.ge`; `arrived` is false until it reaches the gong unit; `since` is
the HD's P-cycle count at its issue, `pc` the word index of a thread's wait. -/
structure Waiter where
  gong : Nat
  eq : Bool
  operand : Word64
  scope : Nat
  who : Who
  arrived : Bool
  entry : WaitEntry
  since : Nat
  pc : Nat
  deriving DecidableEq, Repr

/-- A chime message still to be written to a hart's interrupt file, or written: hart, file, identity (09 R295). -/
structure ChimeMsg where
  entry : Nat
  hart : Nat
  file : Nat
  identity : Nat
  deriving DecidableEq, Repr

/-- All gongs (keyed by gong id), updates in flight, updates that convoys carry, waits, the chimes of armed slots whose
triggering update has still to complete its release at system scope (09 R296: entry and update), chime messages to be written and
those written. -/
structure Gongs where
  val : List (Nat × Gong)
  upd : List GongUpd
  cv : List CvUpd
  wait : List Waiter
  chimeHeld : List (Nat × GongUpd)
  chimeDue : List ChimeMsg
  chimeOut : List ChimeMsg
  deriving DecidableEq, Repr

end Sys2Proof.Machine.Parts
end

