-- ==== Sys2Proof/Machine/Parts/Xlat.lean ====
section
/-! DEFINITION. Address translation (13 R390 to R412): spaces, cached leaves and pointers, request slots. -/

namespace Sys2Proof.Machine.Parts

/-- The kind of access a translation serves (13 R391, R393, R410). -/
inductive Access where
  | read
  | write
  | fetch
  | gong
  deriving DecidableEq, Repr

/-- A device space, named by its queue: partition, `dasid` and root table (13 R398, R412); or a host space, named by
its HX index (13 R394). -/
inductive Space where
  | dev (part dasid root : Nat)
  | host (hx : Nat)
  deriving DecidableEq, Repr

/-- Which first-level TLB an access looks in (13 R398): a tile's, its CD's stream TLB, or a channel's own cache. -/
inductive TlbSel where
  | tile (c t : Nat)
  | stream (c : Nat)
  | chan (ch : Nat)
  deriving DecidableEq, Repr

/-- A cached leaf or pointer (13 R398): its tag (device partition and `dasid`, or HX index), the first VA it serves,
log2 of the bytes it serves, the entry word, and the level it came from. -/
structure TlbEntry where
  host : Bool
  part : Nat
  space : Nat
  va : Nat
  size : Nat
  entry : Word64
  level : Nat
  deriving DecidableEq, Repr

/-- A request slot of host-assisted translation (13 R406), with the agent whose access waits for it. -/
structure ReqSlot where
  waiting : Bool := false
  seq : Nat := 0
  va : Nat := 0
  space : Space := .host 0
  acc : Access := .read
  sel : TlbSel := .chan 0
  deriving DecidableEq, Repr

/-- A fault answer that an access has still to take (13 R408): whose access, its space, VA and kind, and the cause. -/
structure XAnswer where
  sel : TlbSel
  space : Space
  va : Nat
  acc : Access
  cause : Nat
  named : Nat
  deriving DecidableEq, Repr

/-- One translation instance (a CD or a channel): its shared leaf cache, its walk cache, its request slots, the fault
answers not yet taken, and whether an invalidation is in progress with what it covers. -/
structure XInst where
  cache : List TlbEntry := []
  walk : List TlbEntry := []
  slots : List (Nat × ReqSlot) := []
  answers : List XAnswer := []
  deriving DecidableEq, Repr

/-- An invalidation in progress (13 R401, R402), with what it waits for: the issue order each tile had reached when it
started (key = tile key), and the moves, gong updates, waits on their way to a gong unit, and checked transfers of channels (channel,
convoy, PSN of the CHECK) then in flight. -/
structure Inval where
  host : Bool
  kind : Nat
  part : Nat
  space : Nat
  va : Nat
  upTo : List (Nat × Nat)
  moves : List (Nat × Nat)
  upds : List GongUpd
  waits : List Waiter
  kept : List (Nat × Nat × Nat)
  deriving DecidableEq, Repr

/-- Translation state: instances keyed 0 to 3 for CDs and 16 + ch for channels; stream TLBs by CD; tile TLBs by
CD × 180 + tile; invalidations in progress by instance code (0 package, 1 + c, 16 + ch as in 13 R406). -/
structure Xlat where
  inst : List (Nat × XInst)
  stream : List (Nat × List TlbEntry)
  tile : List (Nat × List TlbEntry)
  inval : List (Nat × Option Inval)
  deriving DecidableEq, Repr

end Sys2Proof.Machine.Parts
end

