-- ==== Sys2Proof/Syntax.lean ====
section
/-! DEFINITION. The commands: one constructor per row of the opcode table. -/

namespace Sys2Proof

open Machine.Parts (TlbSel Space Access HostOp RxMsg TwoSided Ident StepLoad RailSample RailFit Charges BootIn Command Trend
  Drift SensorCal)

/-- The outcome of the error check of a read (10 R310): no error, one bit in a word, two bits in a word. -/
inductive EccFound where
  | none
  | one
  | two
  deriving DecidableEq, Repr

/-- A path of threads that is to issue: CD, logical tile, group slot, and one lane that it holds. -/
structure PathRef where
  cd : Nat
  tile : Nat
  slot : Nat
  lane : Nat
  deriving DecidableEq, Repr

/-- Who issues an instruction that threads and streams share (04 R108): a queue, by its 12-bit id, or a path. -/
inductive Issuer where
  | stream (q : Nat)
  | thread (p : PathRef)
  deriving DecidableEq, Repr

/-- An operation of a device that is performed at a home slice (10 R321): the atomic of one lane of an outstanding access
(CD, tile, its order, lane), or a reduce-write by its number. -/
inductive HomeOp where
  | atomic (cd tile ord lane : Nat)
  | reduce (id : Nat)
  deriving DecidableEq, Repr

-- BEGIN INSTR
/-- The commands: one constructor per row of the opcode table, in its order; the operands say what the row leaves to the
outside (log entry 2). -/
inductive Instr where
  | wakeAssert
  | boot (b : BootIn)
  | markerBeat (die inst : Nat) (bad : List (Nat × Nat × Nat)) (relOk : Bool) (late : Nat)
  | beatReplay (die inst : Nat) (cadence : Bool)
  | bundleClockLoss (die inst bundle : Nat)
  | portTraining (die inst : Nat)
  | portTrained (die inst : Nat) (ident : Ident) (bad : List (Nat × Nat × Nat)) (clocks : Nat) (relOk : Bool)
  | trainingAttemptTimeout (die inst : Nat)
  | loopbackPeerRetry (die inst : Nat)
  | d2dLoopback (die inst : Nat) (errs : List (Nat × Nat))
  | d2dRetrain (die inst : Nat)
  | d2dSteer (die inst : Nat)
  | phaseShed (rail : Nat)
  | registerWrite (off : Nat) (value keep : Word32) (after : Option Nat)
  | readToClear (core off : Nat) (fenced : Bool)
  | bufferedWriteApply (die unit inst : Nat)
  | votedScrub (same : List Nat) (upsets : List (Nat × Nat × Word32))
  | qDoorbell (q count : Nat) (after : Option Nat)
  | recordRead (q : Nat) (noToken : Bool)
  | recordReread (q : Nat)
  | qResume (q : Nat)
  | qSkip (q : Nat)
  | qHold (q : Nat)
  | qFlush (q : Nat)
  | queueBoundary (q : Nat)
  | ctlNop (q : Nat)
  | ctlComplete (q : Nat)
  | chimeMessageWrite (n : Nat)
  | cfgSet (q : Nat) (keep : Word32)
  | cfgFence (q : Nat)
  | cfgFenceRetire (q : Nat)
  | blkLaunch (q : Nat)
  | blockPlacement (q n : Nat)
  | blockStart (cd tile blk : Nat)
  | blockEnd (cd tile blk : Nat)
  | blockWatchdogExpiry (cd tile blk : Nat)
  | tileBlockBoundary (cd tile : Nat)
  | tilePartitionMove (cd tile : Nat)
  | instructionFetch (p : PathRef) (k : Nat) (seen : Option Line)
  | reservedOpcode (src : Issuer)
  | thrAdd (p : PathRef)
  | thrSub (p : PathRef)
  | thrAnd (p : PathRef)
  | thrOr (p : PathRef)
  | thrXor (p : PathRef)
  | thrShl (p : PathRef)
  | thrShr (p : PathRef)
  | thrSra (p : PathRef)
  | thrMin (p : PathRef)
  | thrMax (p : PathRef)
  | thrMinu (p : PathRef)
  | thrMaxu (p : PathRef)
  | thrClz (p : PathRef)
  | thrPopc (p : PathRef)
  | thrLi (p : PathRef)
  | thrMul (p : PathRef)
  | thrMulh (p : PathRef)
  | thrMulhu (p : PathRef)
  | thrMad (p : PathRef)
  | thrDiv (p : PathRef)
  | thrDivu (p : PathRef)
  | thrRem (p : PathRef)
  | thrRemu (p : PathRef)
  | thrFadd (p : PathRef)
  | thrFsub (p : PathRef)
  | thrFmul (p : PathRef)
  | thrFfma (p : PathRef)
  | thrFmin (p : PathRef)
  | thrFmax (p : PathRef)
  | thrCvtF32S32 (p : PathRef)
  | thrCvtF32U32 (p : PathRef)
  | thrCvtS32F32 (p : PathRef)
  | thrCvtU32F32 (p : PathRef)
  | thrCmpEq (p : PathRef)
  | thrCmpNe (p : PathRef)
  | thrCmpLt (p : PathRef)
  | thrCmpLe (p : PathRef)
  | thrCmpGt (p : PathRef)
  | thrCmpGe (p : PathRef)
  | thrCmpLtu (p : PathRef)
  | thrCmpLeu (p : PathRef)
  | thrCmpGtu (p : PathRef)
  | thrCmpGeu (p : PathRef)
  | thrCmpFeq (p : PathRef)
  | thrCmpFlt (p : PathRef)
  | thrCmpFle (p : PathRef)
  | thrCmpFun (p : PathRef)
  | thrPand (p : PathRef)
  | thrPor (p : PathRef)
  | thrPxor (p : PathRef)
  | thrPandn (p : PathRef)
  | thrPnot (p : PathRef)
  | thrPset (p : PathRef)
  | thrPclr (p : PathRef)
  | thrMov (p : PathRef)
  | thrSel (p : PathRef)
  | thrMovuLo (p : PathRef)
  | thrMovuHi (p : PathRef)
  | thrShfl (p : PathRef)
  | thrBallot (p : PathRef)
  | thrVoteAny (p : PathRef)
  | thrVoteAll (p : PathRef)
  | uniAdd (p : PathRef)
  | uniSub (p : PathRef)
  | uniAnd (p : PathRef)
  | uniOr (p : PathRef)
  | uniXor (p : PathRef)
  | uniShl (p : PathRef)
  | uniShr (p : PathRef)
  | uniMul (p : PathRef)
  | uniMov (p : PathRef)
  | uniMovtLo (p : PathRef)
  | uniMovtHi (p : PathRef)
  | uniLi (p : PathRef)
  | thrNop (p : PathRef)
  | thrExit (p : PathRef)
  | thrYield (p : PathRef)
  | yieldTimeout (p : PathRef)
  | thrBctl (p : PathRef)
  | thrClk (p : PathRef)
  | thrLd (p : PathRef) (ecc : List (Nat × EccFound))
  | thrSt (p : PathRef)
  | thrAtom (p : PathRef)
  | globalAccessResponse (cd tile ord : Nat) (part : Option Nat) (ecc : List (Nat × EccFound))
  | storeBufferDrain (cd tile line : Nat) (ecc : EccFound)
  | thrBr (p : PathRef)
  | thrCall (p : PathRef)
  | thrBrInd (p : PathRef)
  | joinTimeout (p : PathRef)
  | barSync (p : PathRef)
  | fenceG (p : PathRef)
  | fenceB (p : PathRef)
  | fenceD (src : Issuer)
  | fenceS (src : Issuer)
  | fenceRelease (p : PathRef)
  | streamFenceRetire (q : Nat)
  | mxMma (p : PathRef)
  | mxZero (p : PathRef)
  | mxStAcc (p : PathRef)
  | mxLdAcc (p : PathRef)
  | mxSync (p : PathRef)
  | mxSyncRelease (p : PathRef)
  | mxStart (cd tile stall : Nat) (ecc : List (Nat × EccFound))
  | mxComplete (cd tile ord : Nat)
  | alBind (p : PathRef)
  | alZero (p : PathRef)
  | alRdI32 (p : PathRef)
  | alRdF32 (p : PathRef)
  | alStart (cd tile : Nat) (ecc : List (Nat × EccFound))
  | alComplete (cd tile ord : Nat)
  | spSplit (p : PathRef)
  | spMma (p : PathRef)
  | spRdF64 (p : PathRef)
  | spRdF32 (p : PathRef)
  | spRdBf16 (p : PathRef)
  | slicerStart (cd tile : Nat) (ecc : List (Nat × EccFound))
  | slicerComplete (cd tile ord : Nat)
  | vxAdd (p : PathRef)
  | vxSub (p : PathRef)
  | vxMul (p : PathRef)
  | vxMulh (p : PathRef)
  | vxMad (p : PathRef)
  | vxMin (p : PathRef)
  | vxMax (p : PathRef)
  | vxAnd (p : PathRef)
  | vxOr (p : PathRef)
  | vxXor (p : PathRef)
  | vxShl (p : PathRef)
  | vxShr (p : PathRef)
  | vxSra (p : PathRef)
  | vxAbs (p : PathRef)
  | vxAddFp (p : PathRef)
  | vxSubFp (p : PathRef)
  | vxMulFp (p : PathRef)
  | vxFma (p : PathRef)
  | vxMinFp (p : PathRef)
  | vxMaxFp (p : PathRef)
  | vxAbsFp (p : PathRef)
  | vxNeg (p : PathRef)
  | vxCmpEq (p : PathRef)
  | vxCmpNe (p : PathRef)
  | vxCmpLt (p : PathRef)
  | vxCmpLe (p : PathRef)
  | vxCmpGt (p : PathRef)
  | vxCmpGe (p : PathRef)
  | vxCmpUn (p : PathRef)
  | vxSel (p : PathRef)
  | vxExp2 (p : PathRef)
  | vxLog2 (p : PathRef)
  | vxRcp (p : PathRef)
  | vxRsqrt (p : PathRef)
  | vxCvt (p : PathRef)
  | vxQnt (p : PathRef)
  | vxRadd (p : PathRef)
  | vxRmin (p : PathRef)
  | vxRmax (p : PathRef)
  | vxPerm (p : PathRef)
  | vxBcast (p : PathRef)
  | vxSlideUp (p : PathRef)
  | vxSlideDn (p : PathRef)
  | vxMov (p : PathRef)
  | vxUnpkI8 (p : PathRef)
  | vxUnpkI4 (p : PathRef)
  | vxTr64 (p : PathRef)
  | vxLd (p : PathRef)
  | vxSt (p : PathRef)
  | vxStart (cd tile stall : Nat) (ecc : List (Nat × EccFound))
  | vxComplete (cd tile ord : Nat)
  | drvMove (src : Issuer)
  | drvFill (src : Issuer)
  | drvDescriptorFetch (drover : Nat) (ecc : List (Nat × EccFound))
  | drvMoveStart (drover id : Nat) (ecc : List (Nat × EccFound))
  | drvMoveComplete (drover id : Nat)
  | gongAdd (src : Issuer)
  | gongSet (src : Issuer)
  | gongMax (src : Issuer)
  | gongArm (src : Issuer)
  | gongDisarm (src : Issuer)
  | gongWaitGe (src : Issuer)
  | gongWaitEq (src : Issuer)
  | gongUpdatePerformed (n : Nat)
  | gongWaitArrival (n : Nat)
  | hostGongStoreSet (addr bytes : Nat) (v : Word64) (after : Option Nat)
  | hostGongStoreAdd (addr bytes : Nat) (v : Word64) (after : Option Nat)
  | hostGongStoreMax (addr bytes : Nat) (v : Word64) (after : Option Nat)
  | hostGongLoad (core addr bytes : Nat) (fenced : Bool)
  | correctedLineRewrite (line : Nat)
  | homeFill (line : Nat) (victim : Option Nat) (ondie : Bool) (found : EccFound)
  | homeAtomic (op : HomeOp) (ecc : EccFound) (noToken : Bool)
  | wellShrinkStep (cd : Nat)
  | wellGrowStep (cd : Nat)
  | bucketTransfer (cd : Nat) (waits : Bool)
  | refreshWindow (cd chan : Nat)
  | sectorRead (line : Nat) (ondie : Bool) (found : EccFound) (late noToken waits : Bool)
  | sectorRewrite (line : Nat)
  | patrolScrub (cd chan : Nat) (ondie : Bool) (found : EccFound) (waits : Bool)
  | ftScrub (cd : Nat)
  | commandedScrubDone (cd : Nat) (found : List (Nat × Nat × Bool × EccFound)) (waits : Bool)
  | ftMapout (cd : Nat)
  | shareCopy (cd : Nat) (found : List (Nat × EccFound)) (waits : Bool)
  | mapoutDone (cd : Nat)
  | l2Miss (core line : Nat) (store : Option (Line × BitVec 64)) (fetch fenced : Bool)
  | l2Victim (core line : Nat)
  | hartAmo (core line off sz op : Nat) (v : Word64) (fenced : Bool)
  | hartLr (core line off sz : Nat) (fenced : Bool)
  | hartSc (core line : Nat) (data : Line) (mask : BitVec 64) (trapped fenced : Bool)
  | hartCboClean (core line : Nat) (fenced : Bool)
  | hartCboFlush (core line : Nat) (fenced : Bool)
  | hartCboInval (core line : Nat) (flush fenced : Bool)
  | hostWindowAccess (core pa n : Nat) (op : HostOp) (fenced : Bool) (ecc : List (Nat × EccFound))
  | hostPrivateAccess (core pa n : Nat) (op : HostOp)
  | rds (core line : Nat) (victim : Option Nat)
  | rdx (core line : Nat) (victim : Option Nat)
  | upg (core line : Nat) (victim : Option Nat)
  | amo (core line : Nat)
  | lr (core line : Nat)
  | sc (core line : Nat)
  | cln (core line : Nat)
  | flu (core line : Nat)
  | inv (core line : Nat)
  | snps (core line : Nat)
  | snpx (core line : Nat)
  | snpinv (core line : Nat)
  | snprecall (core line : Nat)
  | snpclean (core line : Nat)
  | comp (core line : Nat)
  | compack (core line : Nat)
  | snpack (core line : Nat)
  | invack (core line : Nat)
  | rspGone (core line : Nat)
  | evictclean (core line : Nat)
  | wback (core line : Nat)
  | data (core line : Nat)
  | fwddata (core line : Nat)
  | snpdata (core line : Nat)
  | wb (core line : Nat)
  | amodata (core line : Nat)
  | fwdTimeout (core line : Nat)
  | lrDeferralEnd (core line : Nat)
  | tableWalkComplete (sel : TlbSel) (sp : Space) (va : Nat) (acc : Access)
  | hostAssistMiss (sel : TlbSel) (sp : Space) (va : Nat) (acc : Access)
  | xlatInv (code : Nat)
  | invalidationComplete (code : Nat)
  | xlatFill (code : Nat)
  | convoySend (ch idx : Nat) (two : Option TwoSided) (ecc : List (Nat × EccFound)) (noToken : Bool)
  | rxSend (ch : Nat) (r : RxMsg)
  | rxWrite (ch : Nat) (r : RxMsg)
  | rxReadReq (ch : Nat) (r : RxMsg) (ecc : List (Nat × EccFound))
  | rxReadResp (ch : Nat) (r : RxMsg)
  | rxReduce (ch : Nat) (r : RxMsg)
  | rxGong (ch : Nat) (r : RxMsg)
  | rxDoorbell (ch : Nat) (r : RxMsg)
  | rxCheck (ch : Nat) (r : RxMsg)
  | rxOpen (ch : Nat) (r : RxMsg)
  | rxOpenAck (ch : Nat) (r : RxMsg)
  | rxClose (ch : Nat) (r : RxMsg)
  | rxCloseAck (ch : Nat) (r : RxMsg)
  | rxAck (ch : Nat) (r : RxMsg)
  | rxNak (ch : Nat) (r : RxMsg)
  | rxCredit (ch : Nat) (r : RxMsg)
  | rxPealArm (ch : Nat) (r : RxMsg)
  | rxPealArmAck (ch : Nat) (r : RxMsg)
  | rxPealStrike (ch : Nat) (r : RxMsg) (broken : Bool)
  | rxPealAbort (ch : Nat) (r : RxMsg)
  | rxProbe (ch : Nat) (r : RxMsg) (turnaround : Nat)
  | rxProbeResp (ch : Nat) (r : RxMsg)
  | rawFrame (ch : Nat) (bytes : List Byte)
  | frameDiscard (ch : Nat)
  | pauseFrame (ch : Nat)
  | ackTimer (ch idx : Nat)
  | creditReport (ch : Nat)
  | rtoExpiry (ch idx : Nat)
  | openResend (ch idx : Nat)
  | closeResend (ch idx : Nat)
  | probeTimeout (ch : Nat)
  | linkTrainingRetry (ch : Nat)
  | linkUp (ch : Nat)
  | linkDown (ch : Nat)
  | chnOpen (ch : Nat)
  | chnClose (ch : Nat)
  | chnReset (ch : Nat)
  | chnRead (ch : Nat)
  | chnRetx (ch : Nat)
  | chnSetwin (ch : Nat)
  | chnSpill (ch : Nat)
  | chnRingHead (ch : Nat)
  | chnRedDone (ch : Nat)
  | chnHreqHead (ch : Nat)
  | chnProbe (ch : Nat)
  | rootclkLoss
  | rootclkReturn
  | pllUnlock (die : Nat)
  | divisorChange
  | divisorChangeComplete (misses : List (Nat × Nat))
  | flightMeasurement (ch f : Nat)
  | levelSaturation (level cls : Nat)
  | powerControlStep (load : StepLoad)
  | voltageSettled
  | railTelemetry (samples : List RailSample)
  | energyEstimate (die : Nat) (charges : Charges) (amps : Nat)
  | calibrationFit (fits : List RailFit)
  | restSlotBoundary (cd : Nat)
  | droopTrip (die det : Nat)
  | droopRelease (die det : Nat)
  | thermalCritical (die sensor : Nat)
  | thermtrip (die sensor : Nat)
  | vinOver
  | vinUnder
  | vinSag
  | holdupAssert
  | braceWindowClose
  | pwrStateRun
  | pwrStateRest
  | pwrStateDormant
  | dormantStop
  | tileRetention (cd tile : Nat)
  | restEntryTimeout
  | retentionExitDone
  | selfRefreshEntry (cd chan : Nat)
  | idleEntry
  | wellTileScrub (line : Nat) (ecc : EccFound)
  | hbmRetrain (cd : Nat)
  | hbmRetrainDone (cd : Nat) (ok : Bool) (misses : Nat)
  | sensorCalibration (die : Nat) (offs : List SensorCal)
  | telemetryStep (trends : List Trend)
  | wearMeasurement (cd : Nat) (drifts : List Drift)
  | rotationDecision (cd : Nat)
  | wearCmd (cd : Nat)
  | tileSwap (cd tile : Nat)
  | sentryHeartbeat (die inst : Nat)
  | heartbeatSilenceExpiry (die inst : Nat)
  | unackedBeatExpiry (die inst : Nat)
  | cdRejoin (cd : Nat)
  | hdReset
  | updateChn (signed : Bool)
  | updateDisp (signed : Bool)
  | updateCore (signed stopped : Bool)
  | evac
  | evacEnd
  | slotWritten
  | channelFwSwitch (ch : Nat)
  | chnFwRunning (ch : Nat)
  | chnFwRevert (ch : Nat)
  | dispatcherSwitch (cd : Nat) (loaded : Option Bool)
  | attGo
  | reportComplete
  | enrol (seq src key parent : Nat) (signed : Bool)
  | mgmtReadReg (c : Command) (off : Nat)
  | mgmtWriteReg (c : Command) (off : Nat) (value mask : Word32) (gen : Nat)
  | mgmtSvc (c : Command) (op target : Nat) (image : List Byte) (signed stopped : Bool)
  | mgmtAttest (c : Command) (nonce : List Byte)
  | mgmtRecover (c : Command) (slot : Nat) (image : List Byte) (signed : Bool)
  | mgmtAck (seq : Nat)
  | helloTimer
  | telemetryTimer
  | mgmtResend
  | mgmtLinkChange (link : Nat)
  | pealInstall (slot : Nat)
  | pealCmdArm (slot : Nat)
  | pealCancel (slot : Nat)
  | pealUninstall (slot : Nat)
  | pealCmdSend (slot : Nat)
  | pealArmWaitEnd (slot : Nat)
  | pealActionTime (slot : Nat)
  | pealHoldExpiry (slot : Nat)
  | traceSync (die : Nat)
  | traceSample
  | traceRingWrite (die : Nat) (waits : Bool)
  | traceObsSend (die : Nat)
  | auxLoss
  | auxReturn
  | vinRise
  | vinLeavesNormalRange (high : Bool)
  | holdupDeassert
  deriving DecidableEq, Repr
-- END INSTR

end Sys2Proof
end

