-- ==== Sys2Proof/Machine/Bits.lean ====
section
/-! DEFINITION. Bit-field helpers: a field [hi:lo] of a word, a word with a field replaced, byte order (00 R11),
population count and leading zeros. -/

namespace Sys2Proof.Machine

/-- Bits [hi:lo] of a word, as a number. -/
def fld {w : Nat} (x : BitVec w) (hi lo : Nat) : Nat := (x.toNat >>> lo) % 2 ^ (hi + 1 - lo)

/-- One bit of a word. -/
def bit {w : Nat} (x : BitVec w) (i : Nat) : Bool := x.toNat.testBit i

/-- The mask of bits [hi:lo]. -/
def fieldMask (w hi lo : Nat) : BitVec w := BitVec.ofNat w ((2 ^ (hi + 1 - lo) - 1) <<< lo)

/-- A word with bits [hi:lo] replaced by the low bits of a number. -/
def setFld {w : Nat} (x : BitVec w) (hi lo v : Nat) : BitVec w :=
  (x &&& ~~~ (fieldMask w hi lo)) ||| (BitVec.ofNat w (v <<< lo) &&& fieldMask w hi lo)

/-- Bits of `new` where the mask is 1, bits of `old` elsewhere. -/
def mergeMask {w : Nat} (old new mask : BitVec w) : BitVec w := (old &&& ~~~ mask) ||| (new &&& mask)

/-- The bitwise majority of three copies (03 R87). -/
def maj3 {w : Nat} (a b c : BitVec w) : BitVec w := (a &&& b) ||| (a &&& c) ||| (b &&& c)

/-- The number of 1 bits among the low `n` bits of a number. -/
def popNat : Nat → Nat → Nat
  | 0, _ => 0
  | n + 1, x => x % 2 + popNat n (x / 2)

/-- The number of 1 bits of a word. -/
def popcount {w : Nat} (x : BitVec w) : Nat := popNat w x.toNat

/-- The index of the lowest 1 bit among the low `n` bits of a number; `n` when there is none. -/
def lowNat : Nat → Nat → Nat
  | 0, _ => 0
  | n + 1, x => if x % 2 = 1 then 0 else lowNat n (x / 2) + 1

/-- The index of the lowest 1 bit of a word; its width when there is none. -/
def lowestBit {w : Nat} (x : BitVec w) : Nat := lowNat w x.toNat

/-- The number of zeros above the highest 1 of the low `n` bits of a number; `n` for zero. -/
def clzNat : Nat → Nat → Nat
  | 0, _ => 0
  | n + 1, x => if x.testBit n then 0 else clzNat n x + 1

/-- The number of leading zeros of a word. -/
def clz {w : Nat} (x : BitVec w) : Nat := clzNat w x.toNat

/-- A Bool as a bit. -/
def b2n (b : Bool) : Nat := if b then 1 else 0

/-- The numbers below `n`, rising. -/
def upto (n : Nat) : List Nat := List.range n

/-- The little-endian value of a list of bytes (00 R11). -/
def leNat : List Byte → Nat
  | [] => 0
  | b :: bs => b.toNat + 256 * leNat bs

/-- The first `n` bytes of a number, least significant first (00 R11). -/
def leBytes : Nat → Nat → List Byte
  | 0, _ => []
  | n + 1, x => BitVec.ofNat 8 x :: leBytes n (x / 256)

/-- The sign-extended value of the low `n` bits of a number. -/
def sextNat (n x : Nat) : Int :=
  let y := x % 2 ^ n
  if 2 ^ n ≤ 2 * y then (y : Int) - (2 ^ n : Nat) else y

/-- An integer as an n-bit two's complement number. -/
def wrapInt (n : Nat) (x : Int) : Nat := (x % ((2 ^ n : Nat) : Int)).toNat

/-- A number clamped to at most `m`. -/
def clampNat (m x : Nat) : Nat := if x ≤ m then x else m

/-- The rounded-up quotient. -/
def ceilDiv (a b : Nat) : Nat := (a + b - 1) / b

/-- The elements of a list with their indexes, from `i`. -/
def enumFrom {α : Type} : Nat → List α → List (Nat × α)
  | _, [] => []
  | i, x :: xs => (i, x) :: enumFrom (i + 1) xs

/-- A list with the element at an index replaced. -/
def listSet {α : Type} : List α → Nat → α → List α
  | [], _, _ => []
  | _ :: xs, 0, y => y :: xs
  | x :: xs, n + 1, y => x :: listSet xs n y

/-- The element at an index, or a default. -/
def listGet {α : Type} (d : α) : List α → Nat → α
  | [], _ => d
  | x :: _, 0 => x
  | _ :: xs, n + 1 => listGet d xs n

end Sys2Proof.Machine
end

