-- ==== Sys2Proof/Machine/Flags.lean ====
section
/-! DEFINITION. Status bits (03 R101) and the flag and cause codes that are computed from them. -/

namespace Sys2Proof.Machine

/-- Status bits of Q.ACCUM (03 R101), as masks. -/
def stAbsent : Nat := 1
/-- STATE. -/
def stState : Nat := 2
/-- ILLEGAL. -/
def stIllegal : Nat := 4
/-- OVF. -/
def stOvf : Nat := 8
/-- SAT. -/
def stSat : Nat := 16
/-- INVALID. -/
def stInvalid : Nat := 32
/-- IDX. -/
def stIdx : Nat := 64
/-- POISON. -/
def stPoison : Nat := 128
/-- NOATOMIC. -/
def stNoatomic : Nat := 256
/-- PAGESIZE. -/
def stPagesize : Nat := 512
/-- XLAT. -/
def stXlat : Nat := 1024
/-- BARRIER_STRANDED. -/
def stStranded : Nat := 2048
/-- LINK. -/
def stLink : Nat := 4096
/-- TORN. -/
def stTorn : Nat := 8192
/-- HOST. -/
def stHost : Nat := 16384

/-- The union of two sets of status bits. -/
def stOr (a b : Nat) : Nat := a ||| b

/-- Does a set of status bits hold one? -/
def stHas (a b : Nat) : Bool := a &&& b != 0

/-- The status of a translation cause (13 R396). -/
def causeStatus (c : Nat) : Nat := if c = 2 then stPoison else if c = 4 then stPagesize else stXlat

/-- The cause code of TG.FAULT for a status (04 R157). -/
def faultCode (st : Nat) : Nat :=
  if stHas st stIllegal then 1 else if stHas st stXlat then 2 else if stHas st stNoatomic then 3
  else if stHas st stPoison then 4 else if stHas st stStranded then 5 else if stHas st stInvalid then 6
  else if stHas st stAbsent then 7 else if stHas st stState then 8 else 0

/-- The cause code of DRV.FAULT for a status (09 R301). -/
def drvCode (st : Nat) : Nat :=
  if stHas st stIllegal then 1 else if stHas st stXlat then 2 else if stHas st stNoatomic then 3
  else if stHas st stAbsent then 4 else if stHas st stState then 5 else if stHas st stLink then 6 else 7

end Sys2Proof.Machine
end

