-- ==== Sys2Proof/Machine/Parts/Regs.lean ====
section
/-! DEFINITION. Register space (03 R81 to R93): the row of a register map, a register's write buffer, and the
store of all registers. -/

namespace Sys2Proof.Machine.Parts

/-- A row of a register map: the kinds of die that have it (1 CD, 2 HD, 4 package), the highest instance, the first
and last index and the step between indexes, the bits of each access kind, the command bits (03 R84), the reset
value, and its place in a 64-bit pair (0 none, 1 low half, 2 high half; 03 R90). -/
structure RegRow where
  die : Nat
  inst : Nat
  lo : Nat
  hi : Nat
  step : Nat
  rwb : Nat
  rov : Nat
  rw : Nat
  w1c : Nat
  rc : Nat
  cmd : Nat
  rst : Nat
  pair : Nat
  deriving DecidableEq, Repr

/-- A register's write buffer (03 R84, R90): the bits buffered, their values; for a low half, whether its high half
has been written since; for a high half, whether its low half was pending when it was written; for FN.MODE of a CD, the tiles whose block boundary
has come since `split` was buffered (02 R49, R56). -/
structure WBuf where
  mask : Word32 := 0
  value : Word32 := 0
  armed : Bool := false
  paired : Bool := false
  tiles : List Nat := []
  deriving DecidableEq, Repr

/-- The three copies of a voted register, each as its difference from the applied value (03 R87). -/
structure Votes where
  a : Word32 := 0
  b : Word32 := 0
  c : Word32 := 0
  deriving DecidableEq, Repr

/-- A companion's disagreement count and last position (03 R89). -/
structure Disagree where
  count : Nat := 0
  lastBit : Nat := 0
  deriving DecidableEq, Repr

/-- A management WRITE_REG held apart until its boundary (03 R85; 18 R561): the register, the value, the bits not yet applied,
its generation, and its command number. -/
structure MgmtWrite where
  off : Nat
  value : Word32
  mask : Word32
  gen : Nat
  cmd : Nat
  deriving DecidableEq, Repr

/-- Register space: applied values, write buffers, vote differences and companions, keyed by register-space offset;
the management writes in the order the waystation buffered them. -/
structure RegFile where
  val : List (Nat × Word32)
  buf : List (Nat × WBuf)
  votes : List (Nat × Votes)
  dis : List (Nat × Disagree)
  mgmt : List MgmtWrite
  deriving DecidableEq, Repr

end Sys2Proof.Machine.Parts
end

