-- ==== Sys2Proof/Machine/RegMap.lean ====
section
/-! DEFINITION. The register maps of every unit: one row per register (or run of like registers) of the spec's
register tables, with the bits of each access kind and the reset value. -/

namespace Sys2Proof.Machine

open Parts (RegRow)

/-- The registers of unit 0x01 (03 R100, 03 R101, 03 R102, 03 R93, 03 R95, 03 R96, 03 R97, 03 R98, 03 R99, 18 R560). -/
def regRowsQ : List RegRow := [
  /- Q.BASE_LO -/ ⟨1, 1023, 0, 0, 1, 0xFFFFF000, 0, 0, 0, 0, 0, 0, 1⟩,
  /- Q.BASE_HI -/ ⟨1, 1023, 0x1, 0x1, 1, 0xFFFF, 0, 0, 0, 0, 0, 0, 2⟩,
  /- Q.CTRL -/ ⟨1, 1023, 0x2, 0x2, 1, 0x7F00, 0xFF, 0, 0, 0, 0, 0x4C02, 0⟩,
  /- Q.DOORBELL -/ ⟨1, 1023, 0x3, 0x3, 1, 0, 0, 0xFFFF, 0, 0, 0, 0, 0⟩,
  /- Q.HEAD -/ ⟨1, 1023, 0x4, 0x4, 1, 0, 0, 0, 0, 0, 0, 0, 0⟩,
  /- Q.STATUS -/ ⟨1, 1023, 0x5, 0x5, 1, 0, 0, 0, 0x7F0000, 0, 0, 0, 0⟩,
  /- Q.ACTION -/ ⟨1, 1023, 0x6, 0x6, 1, 0xFFFF000F, 0, 0, 0, 0, 0xF, 0, 0⟩,
  /- Q.ACCUM -/ ⟨1, 1023, 0x7, 0x7, 1, 0, 0, 0, 0, 0, 0, 0, 0⟩,
  /- Q.PRODUCER -/ ⟨1, 1023, 0x8, 0x8, 1, 0, 0x7FFFF, 0, 0, 0, 0, 0, 0⟩,
  /- Q.OCC -/ ⟨1, 1023, 0x10, 0x12, 1, 0, 0, 0, 0, 0xFFFFFFFF, 0, 0, 0⟩,
  /- Q.OCC -/ ⟨1, 1023, 0x13, 0x13, 1, 0, 0, 0, 0, 0xFFFF, 0, 0, 0⟩,
  /- UNIT.GEN -/ ⟨1, 1023, 0x1FF, 0x1FF, 1, 0, 0, 0, 0, 0, 0, 0, 0⟩]

/-- The registers of unit 0x02 (03 R103, 03 R104). -/
def regRowsDisp : List RegRow := [
  /- DISP.STATUS -/ ⟨1, 0, 0, 0, 1, 0, 0, 0, 0, 0, 0, 0, 0⟩,
  /- DISP.HELD -/ ⟨1, 0, 0x1, 0x1, 1, 0, 0, 0, 0, 0, 0, 0, 0⟩]

/-- The registers of unit 0x03 (02 R57, 18 R560). -/
def regRowsFn : List RegRow := [
  /- FN.MODE of a CD -/ ⟨1, 0, 0, 0, 1, 0, 0x239, 0, 0, 0, 0, 0, 0⟩,
  /- FN.MODE of a channel -/ ⟨2, 47, 0, 0, 1, 0, 0x107, 0, 0, 0, 0, 0, 0⟩,
  /- FN.MODE of the package -/ ⟨4, 0, 0, 0, 1, 0, 0xC0, 0, 0, 0, 0, 0, 0⟩,
  /- UNIT.GEN -/ ⟨5, 0, 0x1FF, 0x1FF, 1, 0, 0, 0, 0, 0, 0, 0, 0⟩,
  /- UNIT.GEN -/ ⟨2, 47, 0x1FF, 0x1FF, 1, 0, 0, 0, 0, 0, 0, 0, 0⟩]

/-- The registers of unit 0x04 (01 R28, 01 R29, 01 R30, 18 R560). -/
def regRowsD2d : List RegRow := [
  /- D2D.PORT_STATUS -/ ⟨1, 1, 0, 0, 1, 0, 0, 0, 0, 0, 0, 0, 0⟩,
  /- D2D.PORT_CTRL -/ ⟨1, 1, 0x1, 0x1, 1, 0, 0xFFF, 0, 0, 0, 0, 0x8, 0⟩,
  /- D2D.FAIL -/ ⟨1, 1, 0x2, 0x2, 1, 0, 0, 0, 0, 0, 0, 0, 0⟩,
  /- D2D.STEER -/ ⟨1, 1, 0x3, 0x3, 1, 0x7FFF, 0, 0, 0, 0, 0x4000, 0, 0⟩,
  /- UNIT.GEN -/ ⟨1, 1, 0x1FF, 0x1FF, 1, 0, 0, 0, 0, 0, 0, 0, 0⟩,
  /- D2D.PORT_STATUS -/ ⟨2, 3, 0, 0, 1, 0, 0, 0, 0, 0, 0, 0, 0⟩,
  /- D2D.PORT_CTRL -/ ⟨2, 3, 0x1, 0x1, 1, 0, 0xFFF, 0, 0, 0, 0, 0x8, 0⟩,
  /- D2D.FAIL -/ ⟨2, 3, 0x2, 0x2, 1, 0, 0, 0, 0, 0, 0, 0, 0⟩,
  /- D2D.STEER -/ ⟨2, 3, 0x3, 0x3, 1, 0x7FFF, 0, 0, 0, 0, 0x4000, 0, 0⟩,
  /- UNIT.GEN -/ ⟨2, 3, 0x1FF, 0x1FF, 1, 0, 0, 0, 0, 0, 0, 0, 0⟩]

/-- The registers of unit 0x05 (00 R10, 00 R8, 00 R9). -/
def regRowsPkg : List RegRow := [
  /- PKG.VARIANT -/ ⟨4, 0, 0, 0, 1, 0, 0, 0, 0, 0, 0, 0, 0⟩,
  /- PKG.PRESENT -/ ⟨4, 0, 0x1, 0x1, 1, 0, 0, 0, 0, 0, 0, 0, 0⟩,
  /- PKG.FAILED -/ ⟨4, 0, 0x2, 0x2, 1, 0, 0, 0, 0, 0, 0, 0, 0⟩]

/-- The registers of unit 0x06 (02 R51, 17 R535, 18 R560). -/
def regRowsPart : List RegRow := [
  /- PART.CTRL -/ ⟨4, 15, 0, 0, 1, 0, 0x7, 0, 0, 0, 0, 0x7, 0⟩,
  /- PART.CAP -/ ⟨4, 15, 0x1, 0x1, 1, 0, 0x1FFF, 0, 0, 0, 0, 0x100000, 0⟩,
  /- UNIT.GEN -/ ⟨4, 15, 0x1FF, 0x1FF, 1, 0, 0, 0, 0, 0, 0, 0, 0⟩]

/-- The registers of unit 0x07 (02 R47, 03 R93, 04 R155, 04 R156, 04 R157, 04 R158, 18 R560). -/
def regRowsTg : List RegRow := [
  /- TG.CTRL -/ ⟨1, 179, 0, 0, 1, 0x1F, 0, 0, 0, 0, 0, 0x1A, 0⟩,
  /- TG.STATUS -/ ⟨1, 179, 0x1, 0x1, 1, 0, 0, 0, 0, 0, 0, 0, 0⟩,
  /- TG.FAULT -/ ⟨1, 179, 0x2, 0x2, 1, 0, 0, 0, 0, 0, 0, 0, 0⟩,
  /- TG.FAULT_PC -/ ⟨1, 179, 0x3, 0x3, 1, 0, 0, 0, 0, 0, 0, 0, 0⟩,
  /- TG.FAULT_VA_LO -/ ⟨1, 179, 0x4, 0x4, 1, 0, 0, 0, 0, 0, 0, 0, 0⟩,
  /- TG.FAULT_VA_HI -/ ⟨1, 179, 0x5, 0x5, 1, 0, 0, 0, 0, 0, 0, 0, 0⟩,
  /- TG.FLAGS -/ ⟨1, 179, 0x6, 0x6, 1, 0, 0, 0, 0xF, 0, 0, 0, 0⟩,
  /- TG.OCC -/ ⟨1, 179, 0x10, 0x11, 1, 0, 0, 0, 0, 0xFFFFFFFF, 0, 0, 0⟩,
  /- TG.PART (02 R47; the index is the model's, log entry 8) -/ ⟨1, 179, 0x7, 0x7, 1, 0, 0xF, 0, 0, 0, 0, 0, 0⟩,
  /- UNIT.GEN -/ ⟨1, 179, 0x1FF, 0x1FF, 1, 0, 0, 0, 0, 0, 0, 0, 0⟩]

/-- The registers of unit 0x08 (03 R93, 05 R184, 05 R185, 05 R186). -/
def regRowsMx : List RegRow := [
  /- MX.STATUS -/ ⟨1, 179, 0, 0, 1, 0, 0, 0, 0, 0, 0, 0, 0⟩,
  /- MX.FLAGS -/ ⟨1, 179, 0x1, 0x1, 1, 0, 0, 0, 0x7, 0, 0, 0, 0⟩,
  /- MX.OCC -/ ⟨1, 179, 0x10, 0x10, 1, 0, 0, 0, 0, 0xFFFFFFFF, 0, 0, 0⟩,
  /- MX.OCC -/ ⟨1, 179, 0x11, 0x11, 1, 0, 0, 0, 0, 0xFFFF, 0, 0, 0⟩,
  /- MX.BUSY_LO -/ ⟨1, 179, 0x2, 0x2, 1, 0, 0, 0, 0, 0, 0, 0, 0⟩,
  /- MX.BUSY_HI -/ ⟨1, 179, 0x3, 0x3, 1, 0, 0, 0, 0, 0, 0, 0, 0⟩,
  /- MX.STALL_LO -/ ⟨1, 179, 0x4, 0x4, 1, 0, 0, 0, 0, 0, 0, 0, 0⟩,
  /- MX.STALL_HI -/ ⟨1, 179, 0x5, 0x5, 1, 0, 0, 0, 0, 0, 0, 0, 0⟩]

/-- The registers of unit 0x09 (03 R93, 06 R214). -/
def regRowsAl : List RegRow := [
  /- AL.STATUS -/ ⟨1, 179, 0, 0, 1, 0, 0, 0, 0, 0, 0, 0, 0⟩,
  /- AL.FLAGS -/ ⟨1, 179, 0x1, 0x1, 1, 0, 0, 0, 0xF, 0, 0, 0, 0⟩,
  /- AL.OCC -/ ⟨1, 179, 0x10, 0x11, 1, 0, 0, 0, 0, 0xFFFFFFFF, 0, 0, 0⟩]

/-- The registers of unit 0x0A (03 R93, 06 R213, 06 R211, 06 R212). -/
def regRowsXs : List RegRow := [
  /- XS.SUMMARY -/ ⟨1, 179, 0, 0, 1, 0, 0, 0, 0xF, 0, 0, 0, 0⟩,
  /- XS.INV_AT -/ ⟨1, 179, 0x1, 0x1, 1, 0, 0, 0, 0, 0, 0, 0, 0⟩,
  /- XS.INV_PC -/ ⟨1, 179, 0x2, 0x2, 1, 0, 0, 0, 0, 0, 0, 0, 0⟩,
  /- XS.SATCNT_LO -/ ⟨1, 179, 0x3, 0x3, 1, 0, 0, 0, 0, 0, 0, 0, 0⟩,
  /- XS.SATCNT_HI -/ ⟨1, 179, 0x4, 0x4, 1, 0, 0, 0, 0, 0, 0, 0, 0⟩,
  /- XS.OCC -/ ⟨1, 179, 0x10, 0x11, 1, 0, 0, 0, 0, 0xFFFFFFFF, 0, 0, 0⟩]

/-- The registers of unit 0x0B (03 R93, 07 R238, 07 R239). -/
def regRowsSp : List RegRow := [
  /- SP.STATUS -/ ⟨1, 179, 0, 0, 1, 0, 0, 0, 0, 0, 0, 0, 0⟩,
  /- SP.FLAGS -/ ⟨1, 179, 0x1, 0x1, 1, 0, 0, 0, 0x1F, 0, 0, 0, 0⟩,
  /- SP.OCC -/ ⟨1, 179, 0x10, 0x11, 1, 0, 0, 0, 0, 0xFFFFFFFF, 0, 0, 0⟩,
  /- SP.OCC -/ ⟨1, 179, 0x12, 0x12, 1, 0, 0, 0, 0, 0xFFFF, 0, 0, 0⟩,
  /- SP.PASS_LO -/ ⟨1, 179, 0x2, 0x2, 1, 0, 0, 0, 0, 0, 0, 0, 0⟩,
  /- SP.PASS_HI -/ ⟨1, 179, 0x3, 0x3, 1, 0, 0, 0, 0, 0, 0, 0, 0⟩]

/-- The registers of unit 0x0C (03 R93, 08 R265, 08 R266). -/
def regRowsVx : List RegRow := [
  /- VX.STATUS -/ ⟨1, 179, 0, 0, 1, 0, 0, 0, 0, 0, 0, 0x20, 0⟩,
  /- VX.FLAGS -/ ⟨1, 179, 0x1, 0x1, 1, 0, 0, 0, 0x7, 0, 0, 0, 0⟩,
  /- VX.OCC -/ ⟨1, 179, 0x10, 0x10, 1, 0, 0, 0, 0, 0xFFFFFFFF, 0, 0, 0⟩,
  /- VX.OCC -/ ⟨1, 179, 0x11, 0x11, 1, 0, 0, 0, 0, 0xFFFF, 0, 0, 0⟩,
  /- VX.BUSY_LO -/ ⟨1, 179, 0x2, 0x2, 1, 0, 0, 0, 0, 0, 0, 0, 0⟩,
  /- VX.BUSY_HI -/ ⟨1, 179, 0x3, 0x3, 1, 0, 0, 0, 0, 0, 0, 0, 0⟩]

/-- The registers of unit 0x0D (03 R93, 09 R301). -/
def regRowsDrv : List RegRow := [
  /- DRV.STATUS -/ ⟨1, 1023, 0, 0, 1, 0, 0, 0, 0, 0, 0, 0, 0⟩,
  /- DRV.FLAGS -/ ⟨1, 1023, 0x1, 0x1, 1, 0, 0, 0, 0x3, 0, 0, 0, 0⟩,
  /- DRV.FAULT -/ ⟨1, 1023, 0x2, 0x2, 1, 0, 0, 0, 0, 0, 0, 0, 0⟩,
  /- DRV.FAULT_VA_LO -/ ⟨1, 1023, 0x3, 0x3, 1, 0, 0, 0, 0, 0, 0, 0, 0⟩,
  /- DRV.FAULT_VA_HI -/ ⟨1, 1023, 0x4, 0x4, 1, 0, 0, 0, 0, 0, 0, 0, 0⟩,
  /- DRV.OCC -/ ⟨1, 1023, 0x10, 0x10, 1, 0, 0, 0, 0, 0xFFFFFFFF, 0, 0, 0⟩]

/-- The registers of unit 0x0E (09 R302). -/
def regRowsGong : List RegRow := [
  /- GONG.STATUS -/ ⟨1, 0, 0, 0, 1, 0, 0, 0, 0, 0, 0, 0x7800000, 0⟩]

/-- The registers of unit 0x0F (09 R303). -/
def regRowsChm : List RegRow := [
  /- CHM.ENTRY -/ ⟨2, 75, 0, 0xFC, 4, 0, 0, 0x7FFFF, 0, 0, 0, 0, 0⟩,
  /- CHM.PEND -/ ⟨2, 75, 0x1, 0xFD, 4, 0, 0, 0, 0x1, 0, 0, 0, 0⟩,
  /- CHM.OCC -/ ⟨2, 75, 0x2, 0xFE, 4, 0, 0, 0, 0, 0xFFFF, 0, 0, 0⟩]

/-- The registers of unit 0x10 (03 R93, 10 R338). -/
def regRowsTm : List RegRow := [
  /- TM.FLAGS -/ ⟨1, 179, 0, 0, 1, 0, 0, 0, 0x3, 0, 0, 0, 0⟩,
  /- TM.OCC -/ ⟨1, 179, 0x10, 0x10, 1, 0, 0, 0, 0, 0xFFFFFFFF, 0, 0, 0⟩]

/-- The registers of unit 0x11 (10 R339, 10 R340, 18 R560). -/
def regRowsWell : List RegRow := [
  /- WELL.SPLIT -/ ⟨1, 0, 0, 0, 1, 0, 0x7F, 0, 0, 0, 0, 0x40, 0⟩,
  /- WELL.STATUS -/ ⟨1, 0, 0x1, 0x1, 1, 0, 0, 0, 0, 0, 0, 0x40, 0⟩,
  /- WELL.HOME -/ ⟨1, 0, 0x10, 0x4F, 1, 0, 0, 0, 0, 0, 0, 0, 0⟩,
  /- UNIT.GEN -/ ⟨1, 0, 0x1FF, 0x1FF, 1, 0, 0, 0, 0, 0, 0, 0, 0⟩]

/-- The registers of unit 0x12 (03 R93, 10 R338, 10 R341, 18 R560). -/
def regRowsSlice : List RegRow := [
  /- SLICE.CTRL -/ ⟨1, 63, 0, 0, 1, 0, 0xF, 0, 0, 0, 0, 0, 0⟩,
  /- SLICE.STATUS -/ ⟨1, 63, 0x1, 0x1, 1, 0, 0, 0, 0, 0, 0, 0x10, 0⟩,
  /- SLICE.FLAGS -/ ⟨1, 63, 0x2, 0x2, 1, 0, 0, 0, 0x7, 0, 0, 0, 0⟩,
  /- SLICE.OCC -/ ⟨1, 63, 0x10, 0x10, 1, 0, 0, 0, 0, 0xFFFFFFFF, 0, 0, 0⟩,
  /- SLICE.OCC -/ ⟨1, 63, 0x11, 0x11, 1, 0, 0, 0, 0, 0xFFFF, 0, 0, 0⟩,
  /- UNIT.GEN -/ ⟨1, 63, 0x1FF, 0x1FF, 1, 0, 0, 0, 0, 0, 0, 0, 0⟩]

/-- The registers of unit 0x13 (03 R93, 10 R338, 10 R342, 18 R560). -/
def regRowsFt : List RegRow := [
  /- FT.CTRL -/ ⟨1, 0, 0, 0, 1, 0, 0x1F, 0, 0, 0, 0, 0, 0⟩,
  /- FT.MAPOUT -/ ⟨1, 0, 0x1, 0x1, 1, 0x1FFFF, 0, 0, 0, 0, 0x10000, 0, 0⟩,
  /- FT.SCRUB -/ ⟨1, 0, 0x2, 0x2, 1, 0x3FFFFF, 0, 0, 0, 0, 0x200000, 0, 0⟩,
  /- FT.STATUS -/ ⟨1, 0, 0x3, 0x3, 1, 0, 0, 0, 0, 0, 0, 0, 0⟩,
  /- FT.FRAMESk -/ ⟨1, 0, 0x4, 0x7, 1, 0, 0, 0, 0, 0, 0, 0, 0⟩,
  /- FT.FLAGS -/ ⟨1, 0, 0x8, 0x8, 1, 0, 0, 0, 0xF, 0, 0, 0, 0⟩,
  /- FT.OCC -/ ⟨1, 0, 0x10, 0x11, 1, 0, 0, 0, 0, 0xFFFFFFFF, 0, 0, 0⟩,
  /- UNIT.GEN -/ ⟨1, 0, 0x1FF, 0x1FF, 1, 0, 0, 0, 0, 0, 0, 0, 0⟩]

/-- The registers of unit 0x14 (03 R93, 10 R338, 10 R343). -/
def regRowsHbmc : List RegRow := [
  /- HBMC.STATUS -/ ⟨1, 127, 0, 0, 1, 0, 0, 0, 0, 0, 0, 0, 0⟩,
  /- HBMC.FLAGS -/ ⟨1, 127, 0x1, 0x1, 1, 0, 0, 0, 0x7, 0, 0, 0, 0⟩,
  /- HBMC.OCC -/ ⟨1, 127, 0x10, 0x10, 1, 0, 0, 0, 0, 0xFFFFFFFF, 0, 0, 0⟩,
  /- HBMC.OCC -/ ⟨1, 127, 0x11, 0x11, 1, 0, 0, 0, 0, 0xFFFF, 0, 0, 0⟩]

/-- The registers of unit 0x15 (03 R93, 12 R389). -/
def regRowsCoh : List RegRow := [
  /- COH.STATUS -/ ⟨1, 63, 0, 0, 1, 0, 0, 0, 0, 0, 0, 0, 0⟩,
  /- COH.FLAGS -/ ⟨1, 63, 0x1, 0x1, 1, 0, 0, 0, 0xF, 0, 0, 0, 0⟩,
  /- COH.LOG -/ ⟨1, 63, 0x2, 0x2, 1, 0, 0, 0, 0, 0, 0, 0, 0⟩,
  /- COH.LOG_PA_LO -/ ⟨1, 63, 0x3, 0x3, 1, 0, 0, 0, 0, 0, 0, 0, 0⟩,
  /- COH.LOG_PA_HI -/ ⟨1, 63, 0x4, 0x4, 1, 0, 0, 0, 0, 0, 0, 0, 0⟩,
  /- COH.OCC -/ ⟨1, 63, 0x10, 0x11, 1, 0, 0, 0, 0, 0xFFFFFFFF, 0, 0, 0⟩]

/-- The registers of unit 0x16 (03 R93, 13 R409, 13 R410, 13 R411). -/
def regRowsXlat : List RegRow := [
  /- XLAT.INV -/ ⟨1, 0, 0, 0, 1, 0xFFFFF, 0, 0, 0, 0, 0x1, 0, 0⟩,
  /- XLAT.INV_VA_LO -/ ⟨1, 0, 0x2, 0x2, 1, 0xFFFFFFFF, 0, 0, 0, 0, 0, 0, 1⟩,
  /- XLAT.INV_VA_HI -/ ⟨1, 0, 0x3, 0x3, 1, 0x1FFFFFF, 0, 0, 0, 0, 0, 0, 2⟩,
  /- XLAT.REQ_PEND -/ ⟨1, 0, 0x4, 0x4, 1, 0, 0, 0, 0, 0, 0, 0, 0⟩,
  /- XLAT.FLAGS -/ ⟨1, 0, 0x5, 0x5, 1, 0, 0, 0, 0x7, 0, 0, 0, 0⟩,
  /- XLAT.FAULT -/ ⟨1, 0, 0x6, 0x6, 1, 0, 0, 0, 0, 0, 0, 0, 0⟩,
  /- XLAT.FAULT_VA_LO -/ ⟨1, 0, 0x8, 0x8, 1, 0, 0, 0, 0, 0, 0, 0, 0⟩,
  /- XLAT.FAULT_VA_HI -/ ⟨1, 0, 0x9, 0x9, 1, 0, 0, 0, 0, 0, 0, 0, 0⟩,
  /- XLAT.FILL -/ ⟨1, 0, 0xA, 0xA, 1, 0xFFFFF, 0, 0, 0, 0, 0x20000, 0, 0⟩,
  /- XLAT.FILL_LO -/ ⟨1, 0, 0xC, 0xC, 1, 0xFFFFFFFF, 0, 0, 0, 0, 0, 0, 1⟩,
  /- XLAT.FILL_HI -/ ⟨1, 0, 0xD, 0xD, 1, 0xFFFFFFFF, 0, 0, 0, 0, 0, 0, 2⟩,
  /- XLAT.OCC -/ ⟨1, 0, 0x10, 0x10, 1, 0, 0, 0, 0, 0xFFFFFFFF, 0, 0, 0⟩,
  /- XLAT.OCC -/ ⟨1, 0, 0x11, 0x11, 1, 0, 0, 0, 0, 0xFFFF, 0, 0, 0⟩,
  /- XLAT.REQ -/ ⟨1, 0, 0x20, 0x5C, 4, 0, 0, 0, 0, 0, 0, 0, 0⟩,
  /- XLAT.REQ_VA_LO -/ ⟨1, 0, 0x22, 0x5E, 4, 0, 0, 0, 0, 0, 0, 0, 0⟩,
  /- XLAT.REQ_VA_HI -/ ⟨1, 0, 0x23, 0x5F, 4, 0, 0, 0, 0, 0, 0, 0, 0⟩,
  /- XLAT.INV -/ ⟨2, 47, 0, 0, 1, 0xFFFFF, 0, 0, 0, 0, 0x1, 0, 0⟩,
  /- XLAT.INV_VA_LO -/ ⟨2, 47, 0x2, 0x2, 1, 0xFFFFFFFF, 0, 0, 0, 0, 0, 0, 1⟩,
  /- XLAT.INV_VA_HI -/ ⟨2, 47, 0x3, 0x3, 1, 0x1FFFFFF, 0, 0, 0, 0, 0, 0, 2⟩,
  /- XLAT.REQ_PEND -/ ⟨2, 47, 0x4, 0x4, 1, 0, 0, 0, 0, 0, 0, 0, 0⟩,
  /- XLAT.FLAGS -/ ⟨2, 47, 0x5, 0x5, 1, 0, 0, 0, 0x7, 0, 0, 0, 0⟩,
  /- XLAT.FAULT -/ ⟨2, 47, 0x6, 0x6, 1, 0, 0, 0, 0, 0, 0, 0, 0⟩,
  /- XLAT.FAULT_VA_LO -/ ⟨2, 47, 0x8, 0x8, 1, 0, 0, 0, 0, 0, 0, 0, 0⟩,
  /- XLAT.FAULT_VA_HI -/ ⟨2, 47, 0x9, 0x9, 1, 0, 0, 0, 0, 0, 0, 0, 0⟩,
  /- XLAT.FILL -/ ⟨2, 47, 0xA, 0xA, 1, 0xFFFFF, 0, 0, 0, 0, 0x20000, 0, 0⟩,
  /- XLAT.FILL_LO -/ ⟨2, 47, 0xC, 0xC, 1, 0xFFFFFFFF, 0, 0, 0, 0, 0, 0, 1⟩,
  /- XLAT.FILL_HI -/ ⟨2, 47, 0xD, 0xD, 1, 0xFFFFFFFF, 0, 0, 0, 0, 0, 0, 2⟩,
  /- XLAT.OCC -/ ⟨2, 47, 0x10, 0x10, 1, 0, 0, 0, 0, 0xFFFFFFFF, 0, 0, 0⟩,
  /- XLAT.OCC -/ ⟨2, 47, 0x11, 0x11, 1, 0, 0, 0, 0, 0xFFFF, 0, 0, 0⟩,
  /- XLAT.REQ -/ ⟨2, 47, 0x20, 0x5C, 4, 0, 0, 0, 0, 0, 0, 0, 0⟩,
  /- XLAT.REQ_VA_LO -/ ⟨2, 47, 0x22, 0x5E, 4, 0, 0, 0, 0, 0, 0, 0, 0⟩,
  /- XLAT.REQ_VA_HI -/ ⟨2, 47, 0x23, 0x5F, 4, 0, 0, 0, 0, 0, 0, 0, 0⟩,
  /- XLAT.INV -/ ⟨4, 0, 0, 0, 1, 0xFFFFF, 0, 0, 0, 0, 0x1, 0, 0⟩,
  /- XLAT.INV_VA_LO -/ ⟨4, 0, 0x2, 0x2, 1, 0xFFFFFFFF, 0, 0, 0, 0, 0, 0, 1⟩,
  /- XLAT.INV_VA_HI -/ ⟨4, 0, 0x3, 0x3, 1, 0x1FFFFFF, 0, 0, 0, 0, 0, 0, 2⟩]

/-- The registers of unit 0x17 (13 R412). -/
def regRowsQx : List RegRow := [
  /- QX.ROOT_LO -/ ⟨1, 1023, 0, 0, 1, 0xFFFFF000, 0, 0, 0, 0, 0, 0, 1⟩,
  /- QX.ROOT_HI -/ ⟨1, 1023, 0x1, 0x1, 1, 0xFFFF, 0, 0, 0, 0, 0, 0, 2⟩,
  /- QX.CTRL -/ ⟨1, 1023, 0x2, 0x2, 1, 0xFFF, 0, 0, 0, 0, 0, 0, 0⟩]

/-- The registers of unit 0x18 (13 R412, 18 R560). -/
def regRowsHx : List RegRow := [
  /- HX.SATP_LO -/ ⟨2, 1023, 0, 0, 1, 0xFFFFFFFF, 0, 0, 0, 0, 0, 0, 1⟩,
  /- HX.SATP_HI -/ ⟨2, 1023, 0x1, 0x1, 1, 0xFFFFFFFF, 0, 0, 0, 0, 0, 0, 2⟩,
  /- HX.CTRL -/ ⟨2, 1023, 0x2, 0x2, 1, 0x10, 0x2F, 0, 0, 0, 0, 0x10, 0⟩,
  /- UNIT.GEN -/ ⟨2, 1023, 0x1FF, 0x1FF, 1, 0, 0, 0, 0, 0, 0, 0, 0⟩]

/-- The registers of unit 0x19 (02 R47, 03 R93, 14 R450, 14 R451, 14 R452, 14 R453, 18 R560). -/
def regRowsChn : List RegRow := [
  /- CHN.CTRL -/ ⟨2, 47, 0, 0, 1, 0x60, 0x9F, 0, 0, 0, 0, 0x40, 0⟩,
  /- CHN.STATUS -/ ⟨2, 47, 0x1, 0x1, 1, 0, 0, 0, 0, 0, 0, 0, 0⟩,
  /- CHN.CMD -/ ⟨2, 47, 0x2, 0x2, 1, 0x3FFFF, 0, 0, 0, 0, 0x20000, 0, 0⟩,
  /- CHN.CMD_ARG_LO -/ ⟨2, 47, 0x3, 0x3, 1, 0xFFFFFFFF, 0, 0, 0, 0, 0, 0, 1⟩,
  /- CHN.CMD_ARG_HI -/ ⟨2, 47, 0x4, 0x4, 1, 0xFFFFFFFF, 0, 0, 0, 0, 0, 0, 2⟩,
  /- CHN.FLAGS -/ ⟨2, 47, 0x5, 0x5, 1, 0, 0, 0, 0x3FF, 0, 0, 0, 0⟩,
  /- CHN.MAC_LO -/ ⟨2, 47, 0x6, 0x6, 1, 0xFFFFFFFF, 0, 0, 0, 0, 0, 0, 1⟩,
  /- CHN.MAC_HI -/ ⟨2, 47, 0x7, 0x7, 1, 0xFFFF, 0, 0, 0, 0, 0, 0, 2⟩,
  /- CHN.IP0–IP3 -/ ⟨2, 47, 0x8, 0xB, 1, 0xFFFFFFFF, 0, 0, 0, 0, 0, 0, 0⟩,
  /- CHN.PORT -/ ⟨2, 47, 0xC, 0xC, 1, 0x1FFFFFFF, 0, 0, 0, 0, 0, 0xC7A4, 0⟩,
  /- CHN.QOS -/ ⟨2, 47, 0xD, 0xD, 1, 0xFFFFFF, 0, 0, 0, 0, 0, 0x20802E, 0⟩,
  /- CHN.CC -/ ⟨2, 47, 0xE, 0xE, 1, 0x7FFFFFFF, 0, 0, 0, 0, 0, 0x811CA, 0⟩,
  /- CHN.SERAI -/ ⟨2, 47, 0xF, 0xF, 1, 0, 0, 0, 0, 0, 0, 0x8000, 0⟩,
  /- CHN.SPILL_LO -/ ⟨2, 47, 0x10, 0x10, 1, 0xFFFFF01F, 0, 0, 0, 0, 0, 0, 1⟩,
  /- CHN.SPILL_HI -/ ⟨2, 47, 0x11, 0x11, 1, 0xFFFF, 0, 0, 0, 0, 0, 0, 2⟩,
  /- CHN.HREQ_LO -/ ⟨2, 47, 0x12, 0x12, 1, 0xFFFFF01F, 0, 0, 0, 0, 0, 0, 1⟩,
  /- CHN.HREQ_HI -/ ⟨2, 47, 0x13, 0x13, 1, 0xFFFF, 0, 0, 0, 0, 0, 0, 2⟩,
  /- CHN.RQk -/ ⟨2, 47, 0x14, 0x17, 1, 0, 0, 0, 0, 0, 0, 0, 0⟩,
  /- CHN.PART (02 R47; the index is the model's, log entry 8) -/ ⟨2, 47, 0x18, 0x18, 1, 0, 0xF, 0, 0, 0, 0, 0, 0⟩,
  /- CHN.OCC -/ ⟨2, 47, 0x20, 0x24, 1, 0, 0, 0, 0, 0xFFFFFFFF, 0, 0, 0⟩,
  /- UNIT.GEN -/ ⟨2, 47, 0x1FF, 0x1FF, 1, 0, 0, 0, 0, 0, 0, 0, 0⟩]

/-- The registers of unit 0x1A (03 R93, 15 R478). -/
def regRowsClk : List RegRow := [
  /- CLK.STATUS -/ ⟨3, 0, 0, 0, 1, 0, 0, 0, 0, 0, 0, 0x4, 0⟩,
  /- CLK.FLAGS -/ ⟨3, 0, 0x1, 0x1, 1, 0, 0, 0, 0x7, 0, 0, 0, 0⟩,
  /- CLK.ACNT_LO -/ ⟨3, 0, 0x2, 0x2, 1, 0, 0, 0, 0, 0, 0, 0, 0⟩,
  /- CLK.ACNT_HI -/ ⟨3, 0, 0x3, 0x3, 1, 0, 0, 0, 0, 0, 0, 0, 0⟩,
  /- CLK.PCNT_LO -/ ⟨3, 0, 0x4, 0x4, 1, 0, 0, 0, 0, 0, 0, 0, 0⟩,
  /- CLK.PCNT_HI -/ ⟨3, 0, 0x5, 0x5, 1, 0, 0, 0, 0, 0, 0, 0, 0⟩,
  /- CLK.HELD_LO -/ ⟨3, 0, 0x6, 0x6, 1, 0, 0, 0, 0, 0, 0, 0, 0⟩,
  /- CLK.HELD_HI -/ ⟨3, 0, 0x7, 0x7, 1, 0, 0, 0, 0, 0, 0, 0, 0⟩,
  /- CLK.OCC -/ ⟨3, 0, 0x10, 0x10, 1, 0, 0, 0, 0, 0xFFFFFFFF, 0, 0, 0⟩,
  /- CLK.OCC -/ ⟨3, 0, 0x11, 0x11, 1, 0, 0, 0, 0, 0xFFFF, 0, 0, 0⟩]

/-- The registers of unit 0x1B (03 R93, 15 R479, 18 R560). -/
def regRowsCad : List RegRow := [
  /- CAD.MODE -/ ⟨4, 15, 0, 0, 1, 0, 0xF, 0, 0, 0, 0, 0x1, 0⟩,
  /- UNIT.GEN -/ ⟨4, 15, 0x1FF, 0x1FF, 1, 0, 0, 0, 0, 0, 0, 0, 0⟩,
  /- CAD.FLAGS -/ ⟨3, 0, 0x1, 0x1, 1, 0, 0, 0, 0xF, 0, 0, 0, 0⟩,
  /- CAD.OCC -/ ⟨3, 0, 0x10, 0x11, 1, 0, 0, 0, 0, 0xFFFFFFFF, 0, 0, 0⟩]

/-- The registers of unit 0x1C (15 R480). -/
def regRowsHop : List RegRow := [
  /- HOP.STATUS -/ ⟨2, 47, 0, 0, 1, 0, 0, 0, 0, 0, 0, 0, 0⟩]

/-- The registers of unit 0x1D (03 R93, 16 R503, 16 R504, 18 R560). -/
def regRowsArb : List RegRow := [
  /- ARB.WEIGHT -/ ⟨4, 0, 0, 0, 1, 0, 0xFFF, 0, 0, 0, 0, 0x148, 0⟩,
  /- UNIT.GEN -/ ⟨4, 0, 0x1FF, 0x1FF, 1, 0, 0, 0, 0, 0, 0, 0, 0⟩,
  /- ARB.FLAGS -/ ⟨3, 0, 0x1, 0x1, 1, 0, 0, 0, 0x3, 0, 0, 0, 0⟩,
  /- ARB.OCC -/ ⟨3, 0, 0x10, 0x10, 1, 0, 0, 0, 0, 0xFFFFFFFF, 0, 0, 0⟩]

/-- The registers of unit 0x1E (03 R93, 16 R505). -/
def regRowsLvl : List RegRow := [
  /- LVL.CTRL -/ ⟨2, 3, 0, 0, 1, 0x7FF, 0, 0, 0, 0, 0, 0x100, 0⟩,
  /- LVL.STATUS -/ ⟨2, 3, 0x1, 0x1, 1, 0, 0, 0, 0, 0, 0, 0, 0⟩,
  /- LVL.FLAGS -/ ⟨2, 3, 0x2, 0x2, 1, 0, 0, 0, 0x1, 0, 0, 0, 0⟩,
  /- LVL.OCC -/ ⟨2, 3, 0x10, 0x10, 1, 0, 0, 0, 0, 0xFFFF, 0, 0, 0⟩]

/-- The registers of unit 0x1F (03 R93, 17 R522, 17 R535, 17 R536, 17 R537, 18 R560). -/
def regRowsPwr : List RegRow := [
  /- PWR.CAP_LIMIT -/ ⟨4, 0, 0, 0, 1, 0, 0x7FFF, 0, 0, 0, 0, 0x2ED8, 0⟩,
  /- PWR.STATE -/ ⟨4, 0, 0x1, 0x1, 1, 0, 0x3, 0, 0, 0, 0, 0, 0⟩,
  /- PWR.OP -/ ⟨4, 0, 0x2, 0x2, 1, 0x7F, 0, 0, 0, 0, 0, 0x4040, 0⟩,
  /- PWR.BRACE -/ ⟨4, 0, 0x3, 0x3, 1, 0, 0x3FFFFFFF, 0, 0, 0, 0, 0xF46708, 0⟩,
  /- PWR.THERM -/ ⟨4, 0, 0x4, 0x4, 1, 0, 0x1FFFFF, 0, 0, 0, 0, 0xB6FE4, 0⟩,
  /- PWR.STATUS -/ ⟨4, 0, 0x5, 0x5, 1, 0, 0, 0, 0, 0, 0, 0, 0⟩,
  /- PWR.POWER -/ ⟨4, 0, 0x6, 0x6, 1, 0, 0, 0, 0, 0, 0, 0, 0⟩,
  /- PWR.ALERT -/ ⟨4, 0, 0x7, 0x7, 1, 0, 0, 0x3F00, 0x3F, 0, 0, 0xF00, 0⟩,
  /- PWR.FLAGS -/ ⟨4, 0, 0x8, 0x8, 1, 0, 0, 0, 0x3, 0, 0, 0, 0⟩,
  /- PWR.OCC -/ ⟨4, 0, 0x10, 0x13, 1, 0, 0, 0, 0, 0xFFFFFFFF, 0, 0, 0⟩,
  /- PWR.DUR_LO -/ ⟨4, 0, 0x20, 0x2E, 2, 0, 0, 0, 0, 0, 0, 0, 0⟩,
  /- PWR.DUR_HI -/ ⟨4, 0, 0x21, 0x2F, 2, 0, 0, 0, 0, 0, 0, 0, 0⟩,
  /- UNIT.GEN -/ ⟨4, 0, 0x1FF, 0x1FF, 1, 0, 0, 0, 0, 0, 0, 0, 0⟩]

/-- The registers of unit 0x20 (17 R536). -/
def regRowsRail : List RegRow := [
  /- RAIL.TEL -/ ⟨4, 12, 0, 0, 1, 0, 0, 0, 0, 0, 0, 0, 0⟩,
  /- RAIL.CAL -/ ⟨4, 12, 0x1, 0x1, 1, 0, 0, 0, 0, 0, 0, 0x4000, 0⟩]

/-- The registers of unit 0x21 (17 R531). -/
def regRowsToll : List RegRow := [
  /- TOLL_LO -/ ⟨1, 1023, 0, 0, 1, 0, 0, 0, 0, 0, 0, 0, 0⟩,
  /- TOLL_HI -/ ⟨1, 1023, 0x1, 0x1, 1, 0, 0, 0, 0, 0, 0, 0, 0⟩,
  /- TOLL_LO -/ ⟨4, 16, 0, 0, 1, 0, 0, 0, 0, 0, 0, 0, 0⟩,
  /- TOLL_HI -/ ⟨4, 16, 0x1, 0x1, 1, 0, 0, 0, 0, 0, 0, 0, 0⟩]

/-- The registers of unit 0x22 (17 R533, 17 R536). -/
def regRowsPace : List RegRow := [
  /- PACE.ACLK -/ ⟨4, 0, 0, 0, 1, 0, 0, 0, 0, 0, 0, 0, 0⟩,
  /- PACE.WAIT_LO -/ ⟨4, 0, 0x2, 0x20, 2, 0, 0, 0, 0, 0, 0, 0, 0⟩,
  /- PACE.WAIT_HI -/ ⟨4, 0, 0x3, 0x21, 2, 0, 0, 0, 0, 0, 0, 0, 0⟩]

/-- The registers of unit 0x23 (17 R536). -/
def regRowsThm : List RegRow := [
  /- THM.TEMP -/ ⟨1, 19, 0, 0, 1, 0, 0, 0, 0, 0, 0, 0, 0⟩,
  /- THM.TEMP -/ ⟨2, 15, 0, 0, 1, 0, 0, 0, 0, 0, 0, 0, 0⟩]

/-- The registers of unit 0x24 (03 R93, 18 R564). -/
def regRowsSent : List RegRow := [
  /- SENT.STATUS -/ ⟨1, 1, 0, 0, 1, 0, 0, 0, 0, 0, 0, 0, 0⟩,
  /- SENT.FLAGS -/ ⟨1, 1, 0x1, 0x1, 1, 0, 0, 0, 0x7, 0, 0, 0, 0⟩,
  /- SENT.OCC -/ ⟨1, 1, 0x10, 0x10, 1, 0, 0, 0, 0, 0xFFFFFFFF, 0, 0, 0⟩,
  /- SENT.OCC -/ ⟨1, 1, 0x11, 0x11, 1, 0, 0, 0, 0, 0xFFFF, 0, 0, 0⟩,
  /- SENT.STATUS -/ ⟨2, 3, 0, 0, 1, 0, 0, 0, 0, 0, 0, 0, 0⟩,
  /- SENT.FLAGS -/ ⟨2, 3, 0x1, 0x1, 1, 0, 0, 0, 0x7, 0, 0, 0, 0⟩,
  /- SENT.OCC -/ ⟨2, 3, 0x10, 0x10, 1, 0, 0, 0, 0, 0xFFFFFFFF, 0, 0, 0⟩,
  /- SENT.OCC -/ ⟨2, 3, 0x11, 0x11, 1, 0, 0, 0, 0, 0xFFFF, 0, 0, 0⟩]

/-- The registers of unit 0x25 (03 R93, 18 R560, 18 R565). -/
def regRowsWear : List RegRow := [
  /- WEAR.CTRL -/ ⟨1, 0, 0, 0, 1, 0, 0xFFFFFF, 0, 0, 0, 0, 0x3C32A8, 0⟩,
  /- WEAR.STATUS -/ ⟨1, 0, 0x1, 0x1, 1, 0, 0, 0, 0, 0, 0, 0, 0⟩,
  /- WEAR.CMD -/ ⟨1, 0, 0x2, 0x2, 1, 0x1FFFF, 0, 0, 0, 0, 0x10000, 0, 0⟩,
  /- WEAR.FLAGS -/ ⟨1, 0, 0x3, 0x3, 1, 0, 0, 0, 0x7, 0, 0, 0, 0⟩,
  /- WEAR.OCC -/ ⟨1, 0, 0x10, 0x10, 1, 0, 0, 0, 0, 0xFFFFFFFF, 0, 0, 0⟩,
  /- WEAR.OCC -/ ⟨1, 0, 0x11, 0x11, 1, 0, 0, 0, 0, 0xFFFF, 0, 0, 0⟩,
  /- WEAR.TILE -/ ⟨1, 0, 0x100, 0x1BF, 1, 0, 0, 0, 0, 0, 0, 0, 0⟩,
  /- UNIT.GEN -/ ⟨1, 0, 0x1FF, 0x1FF, 1, 0, 0, 0, 0, 0, 0, 0, 0⟩]

/-- The registers of unit 0x26 (03 R93, 18 R564). -/
def regRowsBg : List RegRow := [
  /- BG.STATUS -/ ⟨1, 0, 0, 0, 1, 0, 0, 0, 0, 0, 0, 0, 0⟩,
  /- BG.FLAGS -/ ⟨1, 0, 0x1, 0x1, 1, 0, 0, 0, 0x7, 0, 0, 0, 0⟩,
  /- BG.OCC -/ ⟨1, 0, 0x10, 0x10, 1, 0, 0, 0, 0, 0xFFFFFFFF, 0, 0, 0⟩,
  /- BG.OCC -/ ⟨1, 0, 0x11, 0x11, 1, 0, 0, 0, 0, 0xFFFF, 0, 0, 0⟩]

/-- The registers of unit 0x27 (03 R93, 18 R566). -/
def regRowsSvc : List RegRow := [
  /- SVC.CMD -/ ⟨4, 0, 0, 0, 1, 0x7FF, 0, 0, 0, 0, 0x400, 0, 0⟩,
  /- SVC.ARG_LO -/ ⟨4, 0, 0x1, 0x1, 1, 0xFFFFFFFF, 0, 0, 0, 0, 0, 0, 1⟩,
  /- SVC.ARG_HI -/ ⟨4, 0, 0x2, 0x2, 1, 0xFFFF, 0, 0, 0, 0, 0, 0, 2⟩,
  /- SVC.STATUS -/ ⟨4, 0, 0x3, 0x3, 1, 0, 0, 0, 0, 0, 0, 0, 0⟩,
  /- SVC.FLAGS -/ ⟨4, 0, 0x4, 0x4, 1, 0, 0, 0, 0x7, 0, 0, 0, 0⟩,
  /- SVC.OCC -/ ⟨4, 0, 0x10, 0x10, 1, 0, 0, 0, 0, 0xFFFFFFFF, 0, 0, 0⟩,
  /- SVC.OCC -/ ⟨4, 0, 0x11, 0x11, 1, 0, 0, 0, 0, 0xFFFF, 0, 0, 0⟩]

/-- The registers of unit 0x28 (19 R599). -/
def regRowsBoot : List RegRow := [
  /- BOOT.STATUS -/ ⟨4, 0, 0, 0, 1, 0, 0, 0, 0, 0, 0, 0, 0⟩,
  /- BOOT.CNT_LO -/ ⟨4, 0, 0x1, 0x1, 1, 0, 0, 0, 0, 0, 0, 0, 0⟩,
  /- BOOT.CNT_HI -/ ⟨4, 0, 0x2, 0x2, 1, 0, 0, 0, 0, 0, 0, 0, 0⟩]

/-- The registers of unit 0x29 (19 R599). -/
def regRowsAtt : List RegRow := [
  /- ATT.CMD -/ ⟨4, 0, 0, 0, 1, 0x1, 0, 0, 0, 0, 0x1, 0, 0⟩,
  /- ATT.ARG_LO -/ ⟨4, 0, 0x1, 0x1, 1, 0xFFFFFFC0, 0, 0, 0, 0, 0, 0, 1⟩,
  /- ATT.ARG_HI -/ ⟨4, 0, 0x2, 0x2, 1, 0xFFFF, 0, 0, 0, 0, 0, 0, 2⟩,
  /- ATT.STATUS -/ ⟨4, 0, 0x3, 0x3, 1, 0, 0, 0, 0, 0, 0, 0, 0⟩,
  /- ATT.IDKEY -/ ⟨4, 0, 0x10, 0x1F, 1, 0, 0, 0, 0, 0, 0, 0, 0⟩]

/-- The registers of unit 0x2A (03 R93, 19 R600). -/
def regRowsPeal : List RegRow := [
  /- PEAL.CMD -/ ⟨4, 15, 0, 0, 1, 0x1FFFFCF, 0, 0, 0, 0, 0x8, 0, 0⟩,
  /- PEAL.ARG_LO -/ ⟨4, 15, 0x1, 0x1, 1, 0xFFFFFFC0, 0, 0, 0, 0, 0, 0, 1⟩,
  /- PEAL.ARG_HI -/ ⟨4, 15, 0x2, 0x2, 1, 0xFFFF, 0, 0, 0, 0, 0, 0, 2⟩,
  /- PEAL.STATUS -/ ⟨4, 15, 0x3, 0x3, 1, 0, 0, 0, 0, 0, 0, 0, 0⟩,
  /- PEAL.COUNT -/ ⟨4, 15, 0x4, 0x4, 1, 0, 0, 0, 0, 0, 0, 0, 0⟩,
  /- PEAL.FLAGS -/ ⟨4, 15, 0x5, 0x5, 1, 0, 0, 0, 0xF, 0, 0, 0, 0⟩,
  /- PEAL.OCC -/ ⟨4, 15, 0x10, 0x11, 1, 0, 0, 0, 0, 0xFFFFFFFF, 0, 0, 0⟩]

/-- The registers of unit 0x2B (03 R93, 19 R601). -/
def regRowsMgt : List RegRow := [
  /- MGT.CTRL -/ ⟨4, 0, 0, 0, 1, 0x7FF, 0, 0, 0, 0, 0, 0x3E8, 0⟩,
  /- MGT.STATUS -/ ⟨4, 0, 0x1, 0x1, 1, 0, 0, 0, 0, 0, 0, 0, 0⟩,
  /- MGT.LAST -/ ⟨4, 0, 0x2, 0x2, 1, 0, 0, 0, 0, 0, 0, 0, 0⟩,
  /- MGT.FLAGS -/ ⟨4, 0, 0x3, 0x3, 1, 0, 0, 0, 0x7, 0, 0, 0, 0⟩,
  /- MGT.OCC -/ ⟨4, 0, 0x10, 0x10, 1, 0, 0, 0, 0, 0xFFFFFFFF, 0, 0, 0⟩,
  /- MGT.OCC -/ ⟨4, 0, 0x11, 0x11, 1, 0, 0, 0, 0, 0xFFFF, 0, 0, 0⟩]

/-- The registers of unit 0x2C (03 R93, 20 R617). -/
def regRowsTrc : List RegRow := [
  /- TRC.CTRL -/ ⟨4, 0, 0, 0, 1, 0x1FFFF, 0, 0, 0, 0, 0, 0x195A0, 0⟩,
  /- TRC.SEL -/ ⟨4, 0, 0x1, 0x1, 1, 0x3FFE, 0, 0, 0, 0, 0, 0, 0⟩,
  /- TRC.FILTER -/ ⟨4, 0, 0x2, 0x2, 1, 0xFFFFF, 0, 0, 0, 0, 0, 0xFFFFF, 0⟩,
  /- TRC.RING_LO -/ ⟨4, 0, 0x3, 0x3, 1, 0xFFFF003F, 0, 0, 0, 0, 0, 0x10, 1⟩,
  /- TRC.RING_HI -/ ⟨4, 0, 0x4, 0x4, 1, 0xFFFF, 0, 0, 0, 0, 0, 0, 2⟩,
  /- TRC.HEAD_LO -/ ⟨4, 0, 0x5, 0x5, 1, 0, 0, 0, 0, 0, 0, 0, 0⟩,
  /- TRC.HEAD_HI -/ ⟨4, 0, 0x6, 0x6, 1, 0, 0, 0, 0, 0, 0, 0, 0⟩,
  /- TRC.TAIL -/ ⟨4, 0, 0x7, 0x8, 1, 0, 0, 0xFFFFFFFF, 0, 0, 0, 0, 0⟩,
  /- TRC.FLAGS -/ ⟨4, 0, 0x9, 0x9, 1, 0, 0, 0, 0x3, 0, 0, 0, 0⟩,
  /- TRC.OCC -/ ⟨4, 0, 0x10, 0x10, 1, 0, 0, 0, 0, 0xFFFFFFFF, 0, 0, 0⟩,
  /- TRC.SAMPLEk -/ ⟨4, 0, 0x18, 0x1F, 1, 0xFFFFFFFF, 0, 0, 0, 0, 0, 0, 0⟩,
  /- TRC.LOST -/ ⟨4, 0, 0x20, 0x24, 1, 0, 0, 0, 0, 0xFFFFFFFF, 0, 0, 0⟩]

/-- The registers of unit 0x2D (20 R616). -/
def regRowsCnt : List RegRow := [
  /- CNT counters of a CD -/ ⟨1, 0, 0, 0xD, 1, 0, 0, 0, 0, 0, 0, 0, 0⟩,
  /- CNT counters of a channel -/ ⟨2, 47, 0, 0x3, 1, 0, 0, 0, 0, 0, 0, 0, 0⟩]

/-- The register rows of a unit code (03 R81 and the tables of the other chapters); none for a code no unit has. -/
def regRowsOf : Nat → List RegRow
  | 0x1 => regRowsQ
  | 0x2 => regRowsDisp
  | 0x3 => regRowsFn
  | 0x4 => regRowsD2d
  | 0x5 => regRowsPkg
  | 0x6 => regRowsPart
  | 0x7 => regRowsTg
  | 0x8 => regRowsMx
  | 0x9 => regRowsAl
  | 0xA => regRowsXs
  | 0xB => regRowsSp
  | 0xC => regRowsVx
  | 0xD => regRowsDrv
  | 0xE => regRowsGong
  | 0xF => regRowsChm
  | 0x10 => regRowsTm
  | 0x11 => regRowsWell
  | 0x12 => regRowsSlice
  | 0x13 => regRowsFt
  | 0x14 => regRowsHbmc
  | 0x15 => regRowsCoh
  | 0x16 => regRowsXlat
  | 0x17 => regRowsQx
  | 0x18 => regRowsHx
  | 0x19 => regRowsChn
  | 0x1A => regRowsClk
  | 0x1B => regRowsCad
  | 0x1C => regRowsHop
  | 0x1D => regRowsArb
  | 0x1E => regRowsLvl
  | 0x1F => regRowsPwr
  | 0x20 => regRowsRail
  | 0x21 => regRowsToll
  | 0x22 => regRowsPace
  | 0x23 => regRowsThm
  | 0x24 => regRowsSent
  | 0x25 => regRowsWear
  | 0x26 => regRowsBg
  | 0x27 => regRowsSvc
  | 0x28 => regRowsBoot
  | 0x29 => regRowsAtt
  | 0x2A => regRowsPeal
  | 0x2B => regRowsMgt
  | 0x2C => regRowsTrc
  | 0x2D => regRowsCnt
  | _ => []

end Sys2Proof.Machine
end

