-- ==== Sys2Proof/Machine/Parts/Coh.lean ====
section
/-! DEFINITION. Host-core coherence (12): L2 lines, directory entries, transactions, messages, reservations. -/

namespace Sys2Proof.Machine.Parts

/-- The states of a line in a core's L2 (12 R363). -/
inductive L2State where
  | i
  | s
  | e
  | o
  | m
  deriving DecidableEq, Repr

/-- A line of a core's L2, and whether the core's instruction and data L1 hold it: both are included in the L2, so that a line that
leaves the L2 leaves them (12 R363). -/
structure L2Line where
  st : L2State := .i
  data : Line := 0
  poison : Bool := false
  l1i : Bool := false
  l1d : Bool := false
  deriving DecidableEq, Repr

/-- The states of a directory entry (12 R364); DI is the absence of one. -/
inductive DirState where
  | di
  | ds
  | de
  | d_o
  deriving DecidableEq, Repr

/-- A directory entry; `busy` is the presence of a transaction on the line. -/
structure DirEntry where
  st : DirState := .di
  owner : Nat := 0
  sharers : BitVec 64 := 0
  deriving DecidableEq, Repr

/-- The requests of a core (12 R370). An Amo names byte offset, size code, operation (code of 04 R140) and operand; an
Lr names byte offset and size code; an Sc its bytes and mask. -/
inductive ReqKind where
  | rdS
  | rdX
  | upg
  | amo (off sz op : Nat) (v : Word64)
  | lr (off sz : Nat)
  | sc (data : Line) (mask : BitVec 64)
  | cln
  | flu
  | inv
  deriving DecidableEq, Repr

/-- The snoops of a home (12 R370). -/
inductive FwdKind where
  | snpS
  | snpX
  | snpInv
  | snpRecall
  | snpClean
  deriving DecidableEq, Repr

/-- The content of a message (12 R370). A forward names the requester, for FwdData; `comp` of data tells that a Comp
follows. -/
inductive MsgBody where
  | req (k : ReqKind) (prior : Nat)
  | fwd (k : FwdKind) (forCore : Option Nat) (comp : Bool)
  | comp (grant : L2State) (sc : Option Bool)
  | compAck
  | snpAck (kept : L2State)
  | invAck
  | gone
  | evictClean
  | wbAck
  | data (x : Line) (grant : L2State) (poison comp : Bool)
  | fwdData (x : Line) (grant : L2State) (poison comp : Bool)
  | snpData (x : Line) (poison : Bool)
  | wb (x : Line) (poison : Bool) (keep : L2State)
  | amoData (v : Word64) (poison : Bool)
  deriving DecidableEq, Repr

/-- A message under way: the core it comes from or goes to, the line, its content. -/
structure CohMsg where
  core : Nat
  line : Nat
  body : MsgBody
  deriving DecidableEq, Repr

/-- Who opened a transaction or waits for one: a core, or a device atomic or reduce-write, by a number that names it. -/
inductive CohWho where
  | core (n : Nat)
  | device (id : List Nat)
  deriving DecidableEq, Repr

/-- A counted response (12 R367): of which line (the request's or the victim's), from which core, to which forward;
whether RSP-GONE has come and the WB is still awaited, and whether a WB or EvictClean of that core came meanwhile. -/
structure Snoop where
  line : Nat
  core : Nat
  kind : FwdKind
  gone : Bool
  left : Bool
  deriving DecidableEq, Repr

/-- An open transaction (12 R368, R373): its line, who asked and for what, the victim line it recovers, the responses
still counted, whether the data has to come from the home (a snooped owner had none), whether the reply has gone (or
the operation has been performed), whether the CompAck is in. -/
structure Txn where
  line : Nat
  who : CohWho
  kind : ReqKind
  victim : Option Nat
  pend : List Snoop
  fromHome : Bool
  replied : Bool
  acked : Bool
  deriving DecidableEq, Repr

/-- A request of a core that is not complete (12 R367, R373): the request, the store it makes on arrival, whether data
and Comp are in, whether a Comp is expected, and whether it is for an instruction fetch. -/
structure Mshr where
  core : Nat
  line : Nat
  kind : ReqKind
  store : Option (Line × BitVec 64)
  dataIn : Bool
  compIn : Bool
  needComp : Bool
  fetch : Bool := false
  deriving DecidableEq, Repr

/-- A WB or EvictClean sent and not acknowledged, which holds a credit of a slice (12 R365). -/
structure WbOut where
  core : Nat
  line : Nat
  cd : Nat
  slice : Nat
  clean : Bool
  deriving DecidableEq, Repr

/-- All coherence state: L2 lines keyed by line × 64 + core, the directory by line, transactions, requests waiting in
REQ in arrival order (with their line), messages under way, requests outstanding, write-backs outstanding, reservations
(core, line), deferrals (core, line), the line of each core's latest LR, what each core has sent for a line since its last grant (12
R371: 1 a WB, 2 an EvictClean; key line × 64 + core), the WBs and EvictCleans (core, line) still under way from cores whose response
to a forward has been counted (12 R376, R377), and the results that the harts have seen. -/
structure Coh where
  l2 : List (Nat × L2Line)
  dir : List (Nat × DirEntry)
  txns : List Txn
  waiting : List (Nat × CohWho)
  net : List CohMsg
  mshr : List Mshr
  wbs : List WbOut
  resv : List (Nat × Nat)
  defer : List (Nat × Nat)
  lr : List (Nat × Option Nat)
  sent : List (Nat × Nat)
  crossed : List (Nat × Nat)
  out : List HostResult
  deriving DecidableEq, Repr

end Sys2Proof.Machine.Parts
end

