-- ==== Sys2Proof/Machine/Parts/Drover.lean ====
section
/-! DEFINITION. Drovers (09 R267 to R281, R300, R301) and reduce-writes on their way to their homes (09 R276). -/

namespace Sys2Proof.Machine.Parts

/-- Where a move stands: in the drover's queue; accepted and its descriptor read, to be checked and started; moving, with
reduce-writes or messages left; or moved, to complete. -/
inductive MovePhase where
  | queued
  | read
  | moving
  | moved
  deriving DecidableEq, Repr

/-- The name of a move: drover (CD × 1,024 + instance of R300) and number. -/
structure MoveId where
  drover : Nat
  id : Nat
  deriving DecidableEq, Repr

/-- What some bytes of a line held before a unit instruction that was in flight at the issue of a move wrote them (09 R278): the
line, its content and poison, and the bytes. -/
structure HiddenLine where
  line : Nat
  data : Line
  poison : Bool
  mask : BitVec 64
  deriving DecidableEq, Repr

/-- A move: its number, whether it is `drv.fill`, its `dim`, the address of its descriptor (none for a local one, read
at issue), the descriptor's words, class, queue, partition, space, issuing tile and the block's class, issue order in
the tile, phase, status bits, the side and address of its failure, whether its local gong is to be added, the messages
not yet sent or not acknowledged, the bytes of a remote read still to come, what its reads see where a unit has written since
(09 R278), and, once it has started, the tiles (CD × 180 + tile) and scratch slices (1,024 + CD × 64 + slice) whose windows it
reads or writes (09 R279; 10 R319). -/
structure Move where
  id : Nat
  fill : Bool
  dim : Nat
  addr : Option Nat
  words : List Word64
  cls : Nat
  queue : Nat
  part : Nat
  space : Space
  tile : Option (Nat × Nat)
  ord : Nat
  phase : MovePhase
  status : Nat
  side : Nat
  va : Option Nat
  gongOk : Bool
  msgs : Nat
  bytes : Nat
  hidden : List HiddenLine := []
  touch : List Nat := []
  deriving DecidableEq, Repr

/-- One drover (a tile's, or a CD's stream drover): its moves in order, queued ones last, and the next move number. -/
structure Drover where
  moves : List Move := []
  next : Nat := 0
  deriving DecidableEq, Repr

/-- What a reduce-write belongs to: a move, or a REDUCE message of a convoy (channel, index, PSN). -/
inductive RedOwner where
  | move (m : MoveId)
  | msg (ch idx psn : Nat)
  deriving DecidableEq, Repr

/-- A reduce-write to elements of one line (09 R276, 10 R321): its number, owner, operation, line, operands and the bytes
they stand at, whether an operand is poisoned. -/
structure RedWrite where
  id : Nat
  owner : RedOwner
  red : Nat
  line : Nat
  data : Line
  mask : BitVec 64
  poison : Bool
  deriving DecidableEq, Repr

end Sys2Proof.Machine.Parts
end

