-- ==== Sys2Proof/Machine/Parts/Link.lean ====
section
/-! DEFINITION. Link channels and convoys (14). -/

namespace Sys2Proof.Machine.Parts

/-- The states of a convoy (14 R433). -/
inductive ConvoyState where
  | closed
  | opening
  | open_
  | closing
  | error
  deriving DecidableEq, Repr

/-- What a sent message belongs to. -/
inductive TxOwner where
  | none
  | move (m : MoveId)
  | gong (u : GongUpd)
  deriving DecidableEq, Repr

/-- A sequenced message to send or sent and not done with: the message (its PSN once sent), what it belongs to, the
physical ranges its payload is read from (for a READ_REQ those that its responses go to, in move order), whether its
tracking record is spilled (14 R427, R445), and for a READ_REQ whether it is acknowledged while responses are still to
come, the bytes still to come, the offsets that have come, and the words it reserved (14 R430). -/
structure TxRec where
  msg : Ctp
  owner : TxOwner
  src : List (Nat × Nat)
  spilled : Bool := false
  acked : Bool := false
  left : Nat := 0
  got : List Nat := []
  resv : Nat := 0
  deriving DecidableEq, Repr

/-- A received message that is accepted and not yet performed (14 R424 to R426): whether it is a REDUCE that has been
handed out, or stands in its receive queue (R441); whether one of its reduce-writes met poison (10 R323); and of a strike, whether its
path was broken (19 R594). -/
structure RxHeld where
  rx : RxMsg
  reduce : Bool
  pois : Bool := false
  broken : Bool := false
  deriving DecidableEq, Repr

/-- A convoy context (14 R433) with what the channel keeps beside it: the transfers that wait to be sent, the records of
sent messages, accepted messages not performed, whether an acknowledgement is due, the last one sent, the performed messages
that wrote poisoned data and are not acknowledged, the records written to
the ring, the lines the peer's ring had at OPEN, when a NAK SEQ was last sent and when the window was last halved (HD
P-cycles), the translations that a passed CHECK keeps for its transfer (14 R428: each line's VA with its physical
address; and the CHECK's PSN), which host requests are outstanding, whether a congestion mark is to be reported, whether the CLOSE of the
peer waits for its answer, how often OPEN or CLOSE has been sent, the first PSN, and the order of its last transmission. -/
structure Convoy where
  st : ConvoyState := .closed
  host : Bool := false
  perm : Nat := 0
  db : Bool := false
  peer : Nat := 0
  hx : Nat := 0
  gbLo : Nat := 0
  gbHi : Nat := 0
  maxOut : Nat := 0
  retryLimit : Nat := 0
  mac : Nat := 0
  sport : Nat := 0
  ip : Nat := 0
  sndNxt : Nat := 0
  sndUna : Nat := 0
  rcvNxt : Nat := 0
  rto : Nat := 0
  retries : Nat := 0
  cwnd : Nat := 0
  ringVa : Nat := 0
  ringExp : Nat := 0
  ringTail : Nat := 0
  ringHead : Nat := 0
  txCredit : Nat := 0
  txUsed : Nat := 0
  rxGong : Nat := 0
  rgv : Bool := false
  sendq : List TxRec := []
  recs : List TxRec := []
  held : List RxHeld := []
  gen : Nat := 0
  peerRing : Nat := 0
  nakAt : Option Nat := none
  halvedAt : Option Nat := none
  ackDue : Bool := false
  ackSent : Nat := 0
  poisRx : List Nat := []
  kept : List (Nat × Nat) := []
  keptPsn : Nat := 0
  askedTo : Bool := false
  askedNak : Bool := false
  askedEcn : Bool := false
  askedRec : Bool := false
  ceSeen : Bool := false
  closeWait : Bool := false
  tries : Nat := 0
  first : Nat := 0
  lastTx : Nat := 0
  deriving DecidableEq, Repr

/-- A probe waiting for its response: convoy, record address, the value sent (14 R438). -/
structure Probe where
  convoy : Nat
  addr : Nat
  sent : Word64
  deriving DecidableEq, Repr

/-- A channel: its link (0 DOWN, 1 TRAINING, 2 UP, 3 LOOPBACK), whether verified firmware runs, whether the frame in
progress is held at its end for a new firmware (18 R556), its convoys, direct-framing credits used, the peer's last
count of words freed, the words freed here and those of its last CREDIT, by class, words of its receive queues that reads have reserved, what it has transmitted, records written to and freed
from its host request ring and those that wait, words used of its spill area, the probe in progress, and a count of
transmissions. -/
structure Channel where
  link : Nat := 0
  fw : Bool := false
  swap : Bool := false
  convoys : List (Nat × Convoy) := []
  used : List (Nat × Nat) := []
  peerFreed : List (Nat × Nat) := []
  freed : List (Nat × Nat) := []
  reported : List (Nat × Nat) := []
  reserved : List (Nat × Nat) := []
  tx : List TxFrame := []
  hreqTail : Nat := 0
  hreqHead : Nat := 0
  hreqWait : List (Nat × Nat × Nat) := []
  spillUsed : Nat := 0
  probe : Option Probe := none
  sent : Nat := 0
  deriving DecidableEq, Repr

end Sys2Proof.Machine.Parts
end

