-- ==== Sys2Proof/Machine/Parts/Peal.lean ====
section
/-! DEFINITION. Peal slots (19 R590 to R597). -/

namespace Sys2Proof.Machine.Parts

/-- A peal slot: its state as PEAL.STATUS codes it, the descriptor's words, the counts of the last arm phase with its lost
nodes and whether some were dropped, what the children have told in the arm phase under way (armed nodes, lost nodes, their
lists, whether a list was cut), the children (by index) that have answered or are lost, those among them that armed, whether
the root's decision is to be abort, the lateness of the strike whose action is due, and whether the peal was armed in
host-assisted mode (02 R60). -/
structure PealSlot where
  state : Nat := 0
  words : List Word64 := []
  armed : Nat := 0
  lost : Nat := 0
  list : List Nat := []
  overflow : Bool := false
  sumArmed : Nat := 0
  sumLost : Nat := 0
  lists : List Nat := []
  cut : Bool := false
  answered : List Nat := []
  ackd : List Nat := []
  cancel : Bool := false
  due : Option Nat := none
  host : Bool := false
  deriving DecidableEq, Repr

end Sys2Proof.Machine.Parts
end

