-- ==== Sys2Proof/Machine/Parts/Queue.lean ====
section
/-! DEFINITION. Command queues and dispatchers (02 R37 to R62, 03 R63 to R104). -/

namespace Sys2Proof.Machine.Parts

/-- Queue states (03 R99). -/
inductive QState where
  | disabled
  | empty
  | run
  | wait
  | held
  | paused
  deriving DecidableEq, Repr

/-- The instruction a queue's record has in hand: none, waiting for its gong, waiting for its `cfg.set` writes,
waiting for its fence, waiting for its blocks to be placed, or waiting for the drover to take its move. -/
inductive QWait where
  | none
  | gong
  | cfgFence
  | fence
  | launch
  deriving DecidableEq, Repr

/-- A launch in progress (02 R41 to R44): its number on the CD, its fields, its class, and the blocks placed: those
below `next`, and `ahead`. -/
structure Launch where
  id : Nat
  prog : Nat
  groups : Nat
  blocks : Nat
  arg : Word64
  gong : Nat
  fixed : Bool
  first : Nat
  stride : Nat
  cls : Nat
  next : Nat
  ahead : List Nat
  deriving DecidableEq, Repr

/-- A `cfg.set` write not yet known to be applied: register offset and bits (02 R38, R40). -/
structure CfgWrite where
  off : Nat
  mask : Word32
  deriving DecidableEq, Repr

/-- One command queue. `state` is the state shown by Q.STATUS; `before` the state a PAUSED queue returns to;
`fetched` and `retired` are the generations of 03 (Doorbells and fetch); `count` the last accepted doorbell count;
`line` the line of the next record; `words` the words of the sealed record in hand, `pos` the index of the next one,
`lines` its length; `reads` how often an unsealed record has been read. -/
structure Queue where
  state : QState := .disabled
  before : QState := .disabled
  reason : Nat := 0
  fetched : Nat := 0
  retired : Nat := 0
  count : Nat := 0
  line : Nat := 0
  words : List Word64 := []
  pos : Nat := 0
  lines : Nat := 0
  gen : Nat := 0
  reads : Nat := 0
  accum : Nat := 0
  seq : Nat := 0
  wait : QWait := .none
  launch : Option Launch := none
  cfg : List CfgWrite := []
  fenceSys : Bool := false
  deriving DecidableEq, Repr

/-- One CD's dispatcher: microcode state (0 RUN, 1 PAUSED, 2 RECOVERY), the queue that most recently went to HELD and
its reason (03 R103, R104). -/
structure Dispatcher where
  state : Nat := 0
  last : Nat := 0
  reason : Nat := 0
  nextLaunch : Nat := 0
  deriving DecidableEq, Repr

end Sys2Proof.Machine.Parts
end

