-- ==== Sys2Proof/Machine/Parts/Tile.lean ====
section
/-! DEFINITION. A tile: thread groups (04), matrix engine (05), aligner (06), splitter (07), vector engine (08), the
store buffer (11 R346). -/

namespace Sys2Proof.Machine.Parts

/-- A 32-bit element with its poison bit: an accumulator element (05 R160) or a vector element (08 R240). -/
structure Elem where
  v : Word32 := 0
  p : Bool := false
  deriving DecidableEq, Repr

/-- An element of an aligned accumulator (06 R191, 07 R224): the significand S and exponent E of a value
S × 2^(E − 112) when not empty, the NaN bit, the planes of +∞ and −∞, poison. -/
structure XElem where
  empty : Bool := true
  s : Int := 0
  e : Int := 0
  nan : Bool := false
  pinf : Bool := false
  ninf : Bool := false
  p : Bool := false
  deriving DecidableEq, Repr

/-- One thread: t0 to t63 and their poison bits, the registers that await an outstanding access, each with that access's
order (04 R122), p0 to p7 and their poison bits, and whether it has exited (04 R120, R152). -/
structure Thread where
  t : List (Nat × Word32) := []
  tp : BitVec 64 := 0
  late : List (Nat × Nat) := []
  p : BitVec 8 := 0
  pp : BitVec 8 := 0
  exited : Bool := false
  deriving DecidableEq, Repr

/-- What a path is doing (04 R122 to R148): ready; parked at its join; at the barrier; in a gong wait; held by
`thr.yield` until the listed lanes have issued; held by `mx.sync` or by a fence (scope code) until the operations of
its block issued before the given order are done. -/
inductive PathState where
  | ready
  | parked
  | barrier
  | gong
  | yielded (until_ : BitVec 32)
  | mxSync (ord : Nat)
  | fence (scope ord : Nat)
  deriving DecidableEq, Repr

/-- A path (04 Issue): its lanes, program counter, join stack (top first) and state. -/
structure Path where
  lanes : BitVec 32
  pc : Nat
  join : List Nat
  st : PathState
  deriving DecidableEq, Repr

/-- A resident group: the block it belongs to, its index in the block, u0 to u31 and their poison bits, its threads
by lane, its paths. -/
structure Group where
  blk : Nat
  index : Nat
  u : List (Nat × Word64)
  up : BitVec 32
  thr : List (Nat × Thread)
  paths : List Path
  deriving DecidableEq, Repr

/-- A resident block: its number on the tile, queue, launch, index and count of the launch, groups, argument, end
gong, program address, class, space, partition, block control word (04 R135), status bits (04 R151), whether it has
started (04 R120), faulted. -/
structure Block where
  id : Nat
  queue : Nat
  launch : Nat
  index : Nat
  count : Nat
  groups : Nat
  arg : Word64
  gong : Nat
  prog : Nat
  cls : Nat
  space : Space
  part : Nat
  trap : Bool
  status : Nat
  started : Bool
  faulted : Bool
  deriving DecidableEq, Repr

/-- A line of the instruction cache, or the failure of its fetch (04 R633): cause codes of TG.FAULT, 0 for none. -/
structure ILine where
  space : Space
  va : Nat
  data : Line
  cause : Nat
  deriving DecidableEq, Repr

/-- One store in a store-buffer entry: its order, block, group slot and lanes. -/
structure StoreBy where
  ord : Nat
  blk : Nat
  slot : Nat
  lanes : BitVec 32
  deriving DecidableEq, Repr

/-- A store-buffer entry (11 R346): a line number (physical address / 64), bytes, byte mask, poison, and the stores in
it, earliest first. -/
structure StoreEntry where
  line : Nat
  data : Line
  mask : BitVec 64
  poison : Bool
  by_ : List StoreBy
  deriving DecidableEq, Repr

/-- A part of an access that is performed as one: device VA, physical address, length in bytes, the status that refuses it
(0 for none), and for a load, once the part has been performed, its bytes with their poison (04 R136, R137; 02 R50, R61). -/
structure Chunk where
  va : Nat
  pa : Nat
  n : Nat
  st : Nat
  got : Option (List (Byte × Bool)) := none
  deriving DecidableEq, Repr

/-- One lane's part of an outstanding global load or atomic: lane, chunks, the atomic's operand and compare value,
whether one of them is poisoned, and for an atomic, once its home has performed it, the old value, its poison, and
whether the operation was invalid. -/
structure LaneAcc where
  lane : Nat
  chunks : List Chunk
  data : Word64
  cmp : Word64
  poison : Bool
  done : Option (Word64 × Bool × Bool)
  deriving DecidableEq, Repr

/-- An outstanding global load or atomic of a path (04 R139, R140): its order, block, slot, lanes, destination,
size code, sign extension, atomic operation (none for a load), whether it acquires and releases and its scope, word index, whether
`trap_invalid` was set at its issue, and one part per lane. -/
structure Outstanding where
  ord : Nat
  blk : Nat
  slot : Nat
  lanes : BitVec 32
  rd : Nat
  sz : Nat
  sx : Bool
  aop : Option Nat
  acq : Bool
  rel : Bool
  scope : Nat := 0
  pc : Nat
  trap : Bool
  parts : List LaneAcc
  deriving DecidableEq, Repr

/-- The aligner's binding (06 R198). -/
structure Binding where
  x : Bool := false
  offA : Nat := 0
  offB : Nat := 0
  sa : Bool := false
  sb : Bool := false
  deriving DecidableEq, Repr

/-- A write to one line: line number, bytes, mask, poison. -/
structure LineWrite where
  line : Nat
  data : Line
  mask : BitVec 64
  poison : Bool
  deriving DecidableEq, Repr

/-- What a unit instruction will write when it completes: accumulator, vector and aligned-accumulator elements, lines
of tile memory, the status it raises, the unit's flags it sets (bit mask), those of the aligner, saturations counted, the
first invalid result index, and the slice-pair passes that the engine runs. -/
structure UnitRes where
  acc : List (Nat × Elem) := []
  vec : List (Nat × Elem) := []
  xel : List (Nat × XElem) := []
  mem : List LineWrite := []
  status : Nat := 0
  flags : Nat := 0
  alFlags : Nat := 0
  sat : Nat := 0
  inv : Option Nat := none
  count : Nat := 0
  deriving DecidableEq, Repr

/-- A unit instruction, queued or running: its order in the tile's issue, block and issuing thread, its words, the
uniform operands read at issue, the accumulators (bits 0 to 3), vector registers (bits 4 to 11) and aligned
accumulators (bits 12, 13) it reads and writes, the tile-memory extents (first, length) it reads and writes, the
binding it took (06 R198), whether `trap_invalid` was set at its issue (06 R209), and, once started, its occupancy and
what it will write. -/
structure UnitInstr where
  ord : Nat
  blk : Nat
  slot : Nat
  lane : Nat
  pc : Nat
  word : Word64
  uops : List Nat
  reads : Nat
  writes : Nat
  rmem : List (Nat × Nat)
  wmem : List (Nat × Nat)
  bind : Binding
  trap : Bool
  res : UnitRes
  deriving DecidableEq, Repr

/-- One of a tile's units: instructions queued (head first) and running (earliest first), and the order of the one that started
last (05 R174). -/
structure UnitQ where
  queue : List UnitInstr := []
  run : List UnitInstr := []
  last : Nat := 0
  deriving DecidableEq, Repr

/-- One logical tile. -/
structure Tile where
  draining : Bool := false
  split : Bool := false
  retired : Bool := false
  retention : Bool := false
  gated : Bool := false
  lastLaunch : Option Nat := none
  nextBlk : Nat := 0
  ord : Nat := 0
  blocks : List Block := []
  slots : List (Nat × Group) := []
  icache : List ILine := []
  stores : List StoreEntry := []
  out : List Outstanding := []
  acc : List (Nat × Elem) := []
  vec : List (Nat × Elem) := []
  xel : List (Nat × XElem) := []
  bind : Binding := {}
  mx : UnitQ := {}
  al : UnitQ := {}
  sp : UnitQ := {}
  vx : UnitQ := {}
  deriving DecidableEq, Repr

end Sys2Proof.Machine.Parts
end

