-- ==== Sys2Proof/Machine/Parts/Trace.lean ====
section
/-! DEFINITION. The trace (20 R602 to R617). -/

namespace Sys2Proof.Machine.Parts

/-- A trace record (20 R608): its four words, and whether it has still to leave on OBS and to be written to the ring. -/
structure TraceRec where
  w0 : Word64
  w1 : Word64
  w2 : Word64
  w3 : Word64
  obs : Bool
  ring : Bool
  deriving DecidableEq, Repr

/-- The trace unit of one die: its buffer (oldest first), the next sequence number, and the records dropped since its last
LOST record (20 R605 to R607). -/
structure TraceUnit where
  buf : List TraceRec := []
  seq : Nat := 0
  dropped : Nat := 0
  deriving DecidableEq, Repr

/-- All trace units by die, and what has left on OBS: the lane and the record, oldest first (20 R612, R613). -/
structure Trace where
  units : List (Nat × TraceUnit)
  out : List (Nat × TraceRec)
  deriving DecidableEq, Repr

end Sys2Proof.Machine.Parts
end

