-- ==== Sys2Proof/Machine/Sparse.lean ====
section
/-! DEFINITION. Finite maps from Nat to data, kept in one canonical form: keys strictly rising and no entry equal
to what an unlisted key reads as. Memory, register files and every table of instances of a unit are such maps. -/

namespace Sys2Proof.Machine.Sparse

variable {α : Type}

/-- The entry listed at a key. -/
def find? : List (Nat × α) → Nat → Option α
  | [], _ => none
  | (k, v) :: m, a => if a = k then some v else find? m a

/-- What a key reads as: its entry, or the default of that key. -/
def get (dflt : Nat → α) (m : List (Nat × α)) (a : Nat) : α :=
  (find? m a).getD (dflt a)

/-- The map without an entry of a key. -/
def erase : List (Nat × α) → Nat → List (Nat × α)
  | [], _ => []
  | (k, v) :: m, a => if a = k then erase m a else (k, v) :: erase m a

/-- The map with an entry put at its place in the rising order of keys. -/
def put : List (Nat × α) → Nat → α → List (Nat × α)
  | [], a, w => [(a, w)]
  | (k, v) :: m, a, w =>
    if a < k then (a, w) :: (k, v) :: m
    else if a = k then (k, w) :: m
    else (k, v) :: put m a w

/-- Writes a key; writing the default of the key removes its entry. -/
def set [DecidableEq α] (dflt : Nat → α) (m : List (Nat × α)) (a : Nat) (w : α) : List (Nat × α) :=
  if w = dflt a then erase m a else put m a w

/-- Changes the value at a key. -/
def modify [DecidableEq α] (dflt : Nat → α) (m : List (Nat × α)) (a : Nat) (f : α → α) : List (Nat × α) :=
  set dflt m a (f (get dflt m a))

/-- Keys strictly rising, all above a bound. -/
def rising : Option Nat → List (Nat × α) → Bool
  | _, [] => true
  | lo, (k, _) :: m => (match lo with | none => true | some l => decide (l < k)) && rising (some k) m

/-- The canonical form: keys strictly rising and no entry equal to its key's default. -/
def wf [DecidableEq α] (dflt : Nat → α) (m : List (Nat × α)) : Bool :=
  rising none m && m.all fun e => decide (e.2 ≠ dflt e.1)

end Sys2Proof.Machine.Sparse
end

