-- ==== Sys2Proof/Machine/State.lean ====
section
/-! DEFINITION. The state of the package. -/

namespace Sys2Proof.Machine

open Parts

/-- Everything the spec gives the package, but for the queue of commands. `variant` is the variant descriptor's code,
`straps` the mask of the CD sites whose presence strap is closed (01 R25), `full` the mask of the sites whose CD is a CDa,
as its identity word says (01, training; 00 R9). -/
structure Dev where
  variant : Nat
  straps : Nat
  full : Nat
  rg : RegFile
  mem : Mem
  xl : Xlat
  gg : Gongs
  qs : List (Nat × Queue)
  disp : List (Nat × Dispatcher)
  tiles : List (Nat × Tile)
  drv : List (Nat × Drover)
  reds : List RedWrite
  ch : List (Nat × Channel)
  evac : Bool
  mg : Mgmt
  coh : Coh
  ports : List (Nat × Port)
  pw : Power
  tr : Trace
  fl : Flash
  id : Trust
  sv : Service
  peal : List (Nat × PealSlot)
  fresh : Nat
  deriving DecidableEq, Repr

/-- The faults of the model: none. Every command has an effect in every state. -/
inductive Fault where
  deriving DecidableEq, Repr

/-- The refusals of the model. -/
inductive Refusal where
  /-- A command without a meaning, by its mnemonic: raised by no command of the table (safe). -/
  | notModelled (mnemonic : String)
  deriving DecidableEq, Repr

/-- The block: the commands that wait, first in, first out, and the package. -/
structure State where
  pending : List Instr
  dev : Dev
  deriving DecidableEq, Repr

/-- The flash as it is delivered: every instance starts from slot A, nothing is in the repair map (log entry 6). -/
def Flash.delivered : Flash :=
  { bytes := [], slots := [], writes := 0, floors := [], floorOk := false, tiles := [], ft := [], boots := 0 }

/-- The package without power, with AUX present (17 R526; log entry 4): every register at its reset value, nothing stored,
nothing under way; `fl` is what its flash holds. -/
def Dev.dark (variant : Nat) (fl : Flash) : Dev :=
  { variant := variant
    straps := if variant = 4 then 3 else 15
    full := if variant = 2 then 0 else if variant = 4 then 3 else 15
    rg := { val := [], buf := [], votes := [], dis := [], mgmt := [] }
    mem := { bytes := [], poison := [], lines := [], rewr := [], wells := [], ft := [], lost := [], stale := [], cut := [], past := [] }
    xl := { inst := [], stream := [], tile := [], inval := [] }
    gg := { val := [], upd := [], cv := [], wait := [], chimeHeld := [], chimeDue := [], chimeOut := [] }
    qs := [], disp := [], tiles := [], drv := [], reds := [], ch := [], evac := false
    mg := { link := 0, operator := none, ackAt := none, readyAcked := false, seq := 0, queue := [], lost := 0,
            lastCmd := none, sent := [] }
    coh := { l2 := [], dir := [], txns := [], waiting := [], net := [], mshr := [], wbs := [], resv := [], defer := [], sent := [], crossed := [],
             lr := [], out := [] }
    ports := []
    pw := { on := false, vpm := false, wakeHeld := false, aux := true, holdup := false, vin := .normal,
            cause := 0, lastStop := 0, phase := [], par := [], stopped := [], lost := [], op := 0, k := 16,
            change := none, next := none, level := [], slot := [], droop := [], edc := [], edcRun := [], why := 0,
            thermHold := false, crit := false, brace := none, restLater := false, acnt := [] }
    tr := { units := [], out := [] }
    fl := fl
    id := { entries := [], report := none }
    sv := { shadow := [], swaps := [], tries := [], turn := [], good := [], failed := [], run := none, evacTold := false }
    peal := []
    fresh := 0 }

/-- The block at reset: a BQ1480 as delivered, AUX present, no command waiting (log entry 4). -/
def State.reset : State := { pending := [], dev := Dev.dark 1 Flash.delivered }

/-- The outcome of a command. -/
abbrev Out := Host.Outcome State Fault Refusal

end Sys2Proof.Machine
end

