-- ==== Sys2Proof/Machine/Regs.lean ====
section
/-! DEFINITION. Register conventions (03 R81 to R93, 18 R560, R561): offsets, rows, applied values, buffers, voted
copies, flags with their occurrence counters, 64-bit counters. -/

namespace Sys2Proof.Machine

open Parts

/-- The register-space offset of a register (03, register space): die, unit, instance, index. -/
def regOff (die unit inst reg : Nat) : Nat := die * 0x10000000 + unit * 0x400000 + inst * 0x1000 + reg * 4

/-- The die field of a register-space offset. -/
def offDie (off : Nat) : Nat := off / 0x10000000
/-- The unit field of a register-space offset. -/
def offUnit (off : Nat) : Nat := off / 0x400000 % 0x40
/-- The instance field of a register-space offset. -/
def offInst (off : Nat) : Nat := off / 0x1000 % 0x400
/-- The register index of a register-space offset. -/
def offReg (off : Nat) : Nat := off / 4 % 0x400
/-- The offset without its register index: one instance of one unit. -/
def offInstance (off : Nat) : Nat := off / 0x1000

/-- The kinds of die of a die code: 1 CD, 2 HD, 4 package-wide, 0 reserved (03, register space). -/
def dieKind (die : Nat) : Nat := if die < 4 then 1 else if die = 4 then 2 else if die = 5 then 4 else 0

/-- Does a row name this register of this instance? -/
def rowHits (kind inst reg : Nat) (r : RegRow) : Bool :=
  (r.die &&& kind) != 0 && decide (inst ≤ r.inst) && decide (r.lo ≤ reg) && decide (reg ≤ r.hi) &&
    (reg - r.lo) % r.step == 0

/-- May a unit have this instance? Drovers are those of tiles 0 to 179 and the stream drover 0x3FF (09, registers). -/
def unitHasInst (unit inst : Nat) : Bool := unit != 0x0D || decide (inst < 180) || inst == 0x3FF

/-- The row of the register at an offset; none where the offset names no register (03 R82). -/
def regRow? (off : Nat) : Option RegRow :=
  if off % 4 = 0 ∧ unitHasInst (offUnit off) (offInst off) = true then (regRowsOf (offUnit off)).find? (rowHits (dieKind (offDie off)) (offInst off) (offReg off))
  else none

/-- The reset value of the register at an offset. PART.CTRL differs by instance (02 R51); WEAR.TILE is as an empty repair map
has it: tile p holds logical tile p, the others are spares (18 R565; log entry 6). -/
def regReset (off : Nat) : Word32 :=
  if offDie off = 5 ∧ offUnit off = 6 ∧ offReg off = 0 ∧ offInst off ≠ 0 then 4
  else if offUnit off = 0x25 ∧ 0x100 ≤ offReg off ∧ offReg off < 0x1C0 then
    (if offReg off < 0x100 + 180 then BitVec.ofNat 32 ((offReg off - 0x100) * 2 ^ 16) else 0x1FF0000)
  else match regRow? off with
    | some r => BitVec.ofNat 32 r.rst
    | none => 0

/-- The stored value of a register, before its votes. -/
def regRaw (d : Dev) (off : Nat) : Word32 := Sparse.get regReset d.rg.val off

/-- No vote differs (03 R87). -/
def noVotes (_ : Nat) : Votes := {}

/-- Nothing is buffered. -/
def noBuf (_ : Nat) : WBuf := {}

/-- No disagreement has been counted. -/
def noDis (_ : Nat) : Disagree := {}

/-- The applied value of a register: the bitwise majority of its copies (03 R87). -/
def regVal (d : Dev) (off : Nat) : Word32 :=
  let v := Sparse.get noVotes d.rg.votes off
  regRaw d off ^^^ maj3 v.a v.b v.c

/-- Stores a register's value. -/
def setReg (d : Dev) (off : Nat) (v : Word32) : Dev :=
  { d with rg := { d.rg with val := Sparse.set regReset d.rg.val off v } }

/-- Bits [hi:lo] of a register. -/
def regFld (d : Dev) (off hi lo : Nat) : Nat := fld (regVal d off) hi lo

/-- `PWR.STATE.current` (17 R527, R535): 0 RUN, 1 IDLE, 2 REST, 3 ENTERING_REST, 4 LEAVING_REST, 5 ENTERING_DORMANT. -/
def pwrState (d : Dev) : Nat := regFld d (regOff 5 0x1F 0 1) 6 4

/-- Is the package powered: anything but Dormant? -/
def powered (d : Dev) : Bool := d.pw.vpm

/-- Replaces bits [hi:lo] of a register's stored value. -/
def setRegFld (d : Dev) (off hi lo v : Nat) : Dev := setReg d off (setFld (regRaw d off) hi lo v)

/-- The buffer of a register. -/
def regBuf (d : Dev) (off : Nat) : WBuf := Sparse.get noBuf d.rg.buf off

/-- Stores a register's buffer. -/
def setBuf (d : Dev) (off : Nat) (b : WBuf) : Dev :=
  { d with rg := { d.rg with buf := Sparse.set noBuf d.rg.buf off b } }

/-- Empties a register's buffer. -/
def clearBuf (d : Dev) (off : Nat) : Dev := setBuf d off {}

/-- The occurrence counter of a flag: its register and which half (03 R93, 09 R303, 14 R453, 17 R537). -/
def occOf (off b : Nat) : Nat × Nat :=
  let base := off - 4 * offReg off
  if offUnit off = 0x0F then (off + 4, 0)
  else
    let n := if offUnit off = 1 then b - 16 else if offUnit off = 0x1F ∧ offReg off = 8 then b + 6 else b
    let first := if offUnit off = 0x19 then 0x20 else 0x10
    (base + 4 * (first + n / 2), n % 2)

/-- A 16-bit count raised by one, saturating at 0xFFFF (03 R92). -/
def satInc16 (n : Nat) : Nat := if n < 0xFFFF then n + 1 else 0xFFFF

/-! Trace records (20 R605 to R611). -/

/-- A register of the TRC unit. -/
def trcOff (reg : Nat) : Nat := regOff 5 0x2C 0 reg

/-- A trace unit of which nothing has been recorded. -/
def noTrace (_ : Nat) : TraceUnit := {}

/-- The trace unit of a die. -/
def traceOf (d : Dev) (die : Nat) : TraceUnit := Sparse.get noTrace d.tr.units die

/-- Stores the trace unit of a die. -/
def setTrace (d : Dev) (die : Nat) (u : TraceUnit) : Dev :=
  { d with tr := { d.tr with units := Sparse.set noTrace d.tr.units die u } }

/-- A 64-bit value held in a pair of registers, low half first (03, 64-bit values). -/
def reg64 (d : Dev) (off : Nat) : Word64 := (regVal d (off + 4) ++ regVal d off).setWidth 64

/-- Is an event selected, and does it pass the filter (20 R611)? Nothing is produced while `dest` names nowhere. -/
def traced (d : Dev) (ev : Nat) (part cls : Option Nat) : Bool :=
  let f := regVal d (trcOff 2)
  regFld d (trcOff 0) 1 0 != 0 && bit (regVal d (trcOff 1)) ev &&
    (match part with
      | some p => bit f p
      | none => true) &&
    (match cls with
      | some c => bit f (16 + c)
      | none => true)

/-- A record of a die, with its stamp (20 R606, R608). -/
def traceRec (d : Dev) (die unit inst ev : Nat) (part : Option Nat) (w2 w3 : Nat) : TraceRec :=
  let u := traceOf d die
  let dest := regFld d (trcOff 0) 1 0
  { w0 := BitVec.ofNat 64 (unit + die * 2 ^ 6 + inst * 2 ^ 9 + ev * 2 ^ 19 + part.getD 0 * 2 ^ 24 + u.seq % 2 ^ 32 * 2 ^ 32)
    w1 := reg64 d (regOff die 0x1A 0 2), w2 := BitVec.ofNat 64 w2, w3 := BitVec.ofNat 64 w3
    obs := dest % 2 == 1, ring := decide (2 ≤ dest) }

/-- One more record lost by a die, saturating (20 R607, R617). -/
def countLost (d : Dev) (die : Nat) : Dev :=
  let u := traceOf d die
  let o := trcOff (0x20 + die)
  let d := setReg d o (BitVec.ofNat 32 (min 0xFFFFFFFF ((regRaw d o).toNat + 1)))
  setTrace d die { u with seq := u.seq + 1, dropped := u.dropped + 1 }

/-- An event of a die: its record enters the buffer of 2,048 records, or is dropped and counted (20 R605, R607, R611). -/
def trace (d : Dev) (die unit inst ev : Nat) (part cls : Option Nat) (w2 w3 : Nat) : Dev :=
  if !traced d ev part cls then d else
  let u := traceOf d die
  if 2048 ≤ u.buf.length then countLost d die
  else setTrace d die { u with buf := u.buf ++ [traceRec d die unit inst ev part w2 w3], seq := u.seq + 1 }

/-- The well at boot: 64 cache slices, bucket b at slice b mod 64 (10 R314). -/
def noWell (_ : Nat) : Well :=
  { current := 64, homes := [], step := .none, stepSlice := 0, left := 0, target := 64,
    announce := false }

/-- The well of CD c. -/
def wellOf (d : Dev) (c : Nat) : Well := Sparse.get noWell d.mem.wells c

/-- The mode of a slice (10 R341): 0 cache, 1 scratch, 2 leaving cache, 3 joining cache. -/
def sliceMode (d : Dev) (c s : Nat) : Nat :=
  let w := wellOf d c
  if w.step = .shrink ∧ s = w.stepSlice then 2
  else if w.step = .grow ∧ s = w.stepSlice then 3
  else if s < w.current then 0 else 1

/-- The partition that a register's resource belongs to (03 R83). A well slice is its partition's while it is in scratch mode
(10 R337). The channel instances of FN.MODE and of CNT are taken for package registers (DESIGN CHOICE, log entry 64). -/
def offPart (d : Dev) (off : Nat) : Option Nat :=
  let u := offUnit off
  let c := offDie off
  let i := offInst off
  if (u = 1 ∨ u = 0x17 ∨ u = 0x21) ∧ c < 4 then some (regFld d (regOff c 1 i 2) 6 3)
  else if (7 ≤ u ∧ u ≤ 0xC) ∨ u = 0x10 ∨ (u = 0x0D ∧ i < 180) then some (regFld d (regOff c 7 i 7) 3 0)
  else if u = 0x12 then (if sliceMode d c i = 1 then some (regFld d (regOff c 0x12 i 0) 3 0) else none)
  else if u = 0x19 ∨ u = 0x1C then some (regFld d (regOff 4 0x19 i 0x18) 3 0)
  else if u = 0x21 ∧ i < 16 then some i
  else none

/-- Sets a W1C-S flag and counts the setting event (03 R92, R93); the event is traced (20 R609). -/
def setFlag (d : Dev) (off b : Nat) : Dev :=
  let d := setReg d off (regRaw d off ||| BitVec.ofNat 32 (1 <<< b))
  let (o, half) := occOf off b
  let v := regRaw d o
  let n := satInc16 (fld v (16 * half + 15) (16 * half))
  let d := setReg d o (setFld v (16 * half + 15) (16 * half) n)
  trace d (min 4 (offDie off)) (offUnit off) (offInst off) 6 (offPart d off) none (offReg off + b * 2 ^ 10) n

/-- Sets a flag when a condition holds. -/
def flagIf (c : Bool) (d : Dev) (off b : Nat) : Dev := if c then setFlag d off b else d

/-- Reads a flag. -/
def flag (d : Dev) (off b : Nat) : Bool := bit (regRaw d off) b

/-- Stores a 64-bit value in a pair of registers. -/
def setReg64 (d : Dev) (off : Nat) (v : Word64) : Dev :=
  setReg (setReg d off (v.setWidth 32)) (off + 4) ((v >>> 32).setWidth 32)

/-- Raises a 64-bit counter, wrapping at 2^64. -/
def addCtr (d : Dev) (off n : Nat) : Dev := setReg64 d off (reg64 d off + BitVec.ofNat 64 n)

/-- Merges a write into a register's buffer (03 R84, R90). Bits of `mask` are buffered; a low half waits again for
its high half; a high half that finds a low half pending is applied with it, and alone otherwise. -/
def bufferWrite (d : Dev) (off : Nat) (pair : Nat) (value mask : Word32) : Dev :=
  if mask = 0 then d else
  let b := regBuf d off
  let b := { b with mask := b.mask ||| mask, value := mergeMask b.value value mask, tiles := if bit mask 4 then [] else b.tiles }
  match pair with
  | 1 => setBuf d off { b with armed := false }
  | 2 =>
    let lo := regBuf d (off - 4)
    if lo.mask = 0 then setBuf d off b
    else setBuf (setBuf d (off - 4) { lo with armed := true }) off { b with paired := true }
  | _ => setBuf d off b

/-- A write to a register (03 R84 to R86): RW bits at once, W1C-S bits written 1 cleared at once, RW-B and RO-V bits
buffered; a command bit written 0 has no effect. Bits outside `mask`, and bits of other kinds, keep their value. -/
def writeReg (d : Dev) (off : Nat) (value mask : Word32) : Dev :=
  match regRow? off with
  | none => d
  | some r =>
    let rw := BitVec.ofNat 32 r.rw &&& mask
    let w1c := BitVec.ofNat 32 r.w1c &&& mask &&& value
    let buf := BitVec.ofNat 32 (r.rwb ||| r.rov) &&& mask
    let dead := BitVec.ofNat 32 r.cmd &&& ~~~ value
    let v := regRaw d off
    let d := if rw ||| w1c = 0 then d else setReg d off (mergeMask v value rw &&& ~~~ w1c)
    bufferWrite d off r.pair value (buf &&& ~~~ dead)

/-- The mask of a window write: every RW-B, RW and W1C-S bit of the register (03 R85). -/
def windowMask (off : Nat) : Word32 :=
  match regRow? off with
  | none => 0
  | some r => BitVec.ofNat 32 (r.rwb ||| r.rw ||| r.w1c)

/-- The bits of a register that a write may change (03 R85, R587). -/
def writable (off : Nat) : Word32 :=
  match regRow? off with
  | none => 0
  | some r => BitVec.ofNat 32 (r.rwb ||| r.rov ||| r.rw)

/-- The W1C-S bits of a register. -/
def clearable (off : Nat) : Word32 :=
  match regRow? off with
  | none => 0
  | some r => BitVec.ofNat 32 r.w1c

/-- The command bits of a register (03 R84). -/
def cmdBits (off : Nat) : Word32 :=
  match regRow? off with
  | none => 0
  | some r => BitVec.ofNat 32 r.cmd

/-- The voted bits of a register. -/
def votedBits (off : Nat) : Word32 :=
  match regRow? off with
  | none => 0
  | some r => BitVec.ofNat 32 r.rov

/-- Is a command bit of the register waiting in its buffer? -/
def cmdPending (d : Dev) (off : Nat) : Bool := (regBuf d off).mask &&& (regBuf d off).value &&& cmdBits off ≠ 0

/-- Does a management write start the command of its register? -/
def mgmtStarts (w : MgmtWrite) : Bool := w.mask &&& w.value &&& cmdBits w.off != 0

/-- Does a command wait at a register: in its buffer, or in a management write held apart (03 R84, R85)? -/
def cmdWaits (d : Dev) (off : Nat) : Bool := cmdPending d off || d.rg.mgmt.any fun w => w.off == off && mgmtStarts w

/-- Is a register's buffer ready to be applied (03 R90)? A low half waits for its high half, and a high half that
found a low half pending waits with it. -/
def bufReady (d : Dev) (off : Nat) : Bool :=
  match regRow? off with
  | none => false
  | some r =>
    let b := regBuf d off
    b.mask != 0 && (match r.pair with
      | 1 => b.armed
      | 2 => !b.paired || (regBuf d (off - 4)).armed || (regBuf d (off - 4)).mask == 0
      | _ => true)

/-- Is a command bit of a register waiting to be taken, with the registers it goes with ready? -/
def cmdReady (d : Dev) (off : Nat) : Bool := cmdPending d off && bufReady d off

/-- Writes some bits of a register as its boundary does: all three copies of the voted ones (03 R87). -/
def applyBits (d : Dev) (off : Nat) (value mask : Word32) : Dev :=
  let v := Sparse.get noVotes d.rg.votes off
  let keep := ~~~ (mask &&& votedBits off)
  let d := setReg d off (mergeMask (regRaw d off) value mask)
  { d with rg := { d.rg with votes := Sparse.set noVotes d.rg.votes off ⟨v.a &&& keep, v.b &&& keep, v.c &&& keep⟩ } }

/-- Applies the buffered bits of a register that lie in `bits`, and takes them out of the buffer (03 R84). -/
def applyBuf (d : Dev) (off : Nat) (bits : Word32) : Dev :=
  let b := regBuf d off
  let m := b.mask &&& bits
  let d := applyBits d off b.value m
  let rest := b.mask &&& ~~~ bits
  setBuf d off (if rest = 0 then {} else { b with mask := rest, value := b.value &&& rest })

/-- The generation register of an instance (18 R560). -/
def genOff (off : Nat) : Nat := offInstance off * 0x1000 + 4 * 0x1FF

/-- Advances an instance's generation by one, modulo 2^16 (18 R560). -/
def bumpGen (d : Dev) (off : Nat) : Dev :=
  setReg d (genOff off) (BitVec.ofNat 32 ((regFld d (genOff off) 15 0 + 1) % 0x10000))

/-- Applies buffered bits of a register; the instance's generation advances where that changes a voted field (18 R560). -/
def applyField (d : Dev) (off : Nat) (bits : Word32) : Dev :=
  let e := applyBuf d off bits
  if (regVal d off ^^^ regVal e off) &&& votedBits off = 0 then e else bumpGen e off

/-- The offsets with something buffered in an instance, in rising order. -/
def bufferedIn (d : Dev) (inst : Nat) : List Nat :=
  (d.rg.buf.filter fun e => offInstance e.1 == inst).map (·.1)

/-- One register's scrub: the copies take their majority and each differing position is counted (03 R87, R89), but not of a
register of `same` (03 R88). -/
def scrubReg (same : List Nat) (d : Dev) (e : Nat × Votes) : Dev :=
  let v := e.2
  let diff := (v.a ^^^ v.b) ||| (v.b ^^^ v.c)
  if diff = 0 then d else
  let x := Sparse.get noDis d.rg.dis e.1
  let d := setReg d e.1 (regVal d e.1)
  { d with rg := { d.rg with
      votes := Sparse.set noVotes d.rg.votes e.1 {}
      dis := if same.contains e.1 then d.rg.dis
        else Sparse.set noDis d.rg.dis e.1 ⟨min 0xFFFF (x.count + popcount diff), lowestBit diff⟩ } }

/-- Flips bits of one copy of a voted register: an upset (03 R87). -/
def upset (d : Dev) (off copy : Nat) (bits : Word32) : Dev :=
  let m := bits &&& votedBits off
  let v := Sparse.get noVotes d.rg.votes off
  let v := match copy with
    | 0 => { v with a := v.a ^^^ m }
    | 1 => { v with b := v.b ^^^ m }
    | _ => { v with c := v.c ^^^ m }
  { d with rg := { d.rg with votes := Sparse.set noVotes d.rg.votes off v } }

end Sys2Proof.Machine
end

