-- ==== Sys2Proof/Machine/Mem.lean ====
section
/-! DEFINITION. Storage (10): the physical address map, homes of far-tier lines, reads and writes of lines at their
point of performance, poison, write-back, partition and mode checks. -/

namespace Sys2Proof.Machine

open Parts

/-- Is the site of CD c fitted in the variant (00, variants)? -/
def cdFitted (v c : Nat) : Bool := decide (c < 4) && (v != 4 || decide (c < 2))

/-- Does the descriptor list a CDa at site c (00 R10)? -/
def listsFull (v c : Nat) : Bool := cdFitted v c && v != 2

/-- Is the CD at site c fitted, and a CDa by its identity word (01, training; 00 R9)? -/
def cdFull (d : Dev) (c : Nat) : Bool := cdFitted d.variant c && d.full.testBit c

/-- Is the CD at site c powered: listed by the descriptor, with its presence strap closed (01, discovery at boot)? -/
def cdPowered (d : Dev) (c : Nat) : Bool := cdFitted d.variant c && d.straps.testBit c

/-- The size of a CD's far-tier region (10 R305). -/
def regionSize (v : Nat) : Nat := if v = 3 then 0x1800000000 else 0x3000000000

/-- The fitted far-tier capacity (00, variants; 02 R61). -/
def farCapacity (v : Nat) : Nat := regionSize v * (if v = 4 then 2 else 4)

/-- A frame of the far tier, 1.5 GiB (10 R305). -/
def frameSize : Nat := 0x60000000

/-- The far tier of a CD where nothing has been recorded: all frames present, all channels UP, shares in place. -/
def noFt (_ : Nat) : FarTier :=
  { gone := [], chan := [], slots := [], mapout := none, scrub := none, rewr := [], autoWait := false,
    patrol := [], selfRefresh := [], modes := [] }

/-- The far-tier record of CD c. -/
def ftOf (d : Dev) (c : Nat) : FarTier := Sparse.get noFt d.mem.ft c

/-- Stores the far-tier record of CD c. -/
def setFt (d : Dev) (c : Nat) (f : FarTier) : Dev :=
  { d with mem := { d.mem with ft := Sparse.set noFt d.mem.ft c f } }

/-- Stores the well of CD c. -/
def setWell (d : Dev) (c : Nat) (w : Well) : Dev :=
  { d with mem := { d.mem with wells := Sparse.set noWell d.mem.wells c w } }

/-- The base of CD c's window (10 R304). -/
def windowBase (c : Nat) : Nat := 0x100000000000 + c * 0x010000000000

/-- The physical address of a byte of a logical tile's memory (10 R306). -/
def tilePa (c t off : Nat) : Nat := windowBase c + 0x40000000 + t * 0x200000 + off

/-- The size of a tile's memory, 2 MiB. -/
def tileBytes : Nat := 0x200000

/-- What a physical address names (10 R304 to R307, R333: a frame out of the map is a hole). -/
def paKind (d : Dev) (pa : Nat) : PaKind :=
  if pa < 0xC000000000 then
    if pa < farCapacity d.variant then
      let c := pa / regionSize d.variant
      let l := pa % regionSize d.variant
      if l / frameSize ∈ (ftOf d c).gone then .hole else .far c l
    else .unfitted
  else if 0x100000000000 ≤ pa ∧ pa < 0x140000000000 then
    let c := (pa - 0x100000000000) / 0x010000000000
    let o := pa % 0x010000000000
    if !cdFitted d.variant c then .noCd
    else if o < 0x20000000 then .scratch c (o / 0x800000)
    else if 0x40000000 ≤ o ∧ o < 0x56800000 then .tile c ((o - 0x40000000) / 0x200000)
    else .hole
  else if 0x200000000000 ≤ pa ∧ pa < 0x200100000000 then .regs
  else if 0x300000000000 ≤ pa ∧ pa < 0x300000800000 then .gong
  else if 0x400000000000 ≤ pa then .priv
  else .hole

/-- The bucket of a far-tier line (10 R314). -/
def bucketOf (l : Nat) : Nat :=
  (l / 0x40 % 256) ^^^ (l / 0x4000 % 256) ^^^ (l / 0x400000 % 256) ^^^ (l / 0x40000000 % 256)

/-- The boot home of a bucket (10 R314). -/
def bootHome (b : Nat) : Nat := b % 64

/-- The home slice of a bucket of CD c (10 R314, R340). -/
def bucketHome (d : Dev) (c b : Nat) : Nat := Sparse.get bootHome (wellOf d c).homes b

/-- The home slice of the far-tier line at region-relative address l of CD c. -/
def homeSlice (d : Dev) (c l : Nat) : Nat := bucketHome d c (bucketOf l)

/-- The number of buckets a slice homes (10 R341). -/
def bucketsAt (d : Dev) (c s : Nat) : Nat := ((upto 256).filter fun b => bucketHome d c b == s).length

/-- SLICE.CTRL `partition` (10 R341). -/
def slicePart (d : Dev) (c s : Nat) : Nat := regFld d (regOff c 0x12 s 0) 3 0

/-- The partition of a logical tile (02 R47; its register is the model's choice, log entry 8). -/
def tilePart (d : Dev) (c t : Nat) : Nat := regFld d (regOff c 7 t 7) 3 0

/-- No line is held. -/
def noLine (_ : Nat) : WellLine := {}

/-- No line is poisoned. -/
def noPoison (_ : Nat) : Bool := false

/-- What a byte of storage that nothing has written reads as: zero (log entry 5). -/
def memZero (_ : Nat) : Byte := 0

/-- The canonical form of the bytes of storage: addresses strictly rising, and no entry equal to zero, which an unlisted address
reads as (log entry 5). -/
def Memory.wf (m : List Host.Cell) : Bool := Sparse.wf memZero m

/-- The line held at its home, if any; keyed by line number (physical address / 64). -/
def wellLine (d : Dev) (ln : Nat) : WellLine := Sparse.get noLine d.mem.lines ln

/-- Stores a line held at its home. -/
def setWellLine (d : Dev) (ln : Nat) (w : WellLine) : Dev :=
  { d with mem := { d.mem with lines := Sparse.set noLine d.mem.lines ln w } }

/-- One byte of storage (a far-tier sector, a slice in scratch mode or a tile's memory), not looking at the well. -/
def rawByte (d : Dev) (pa : Nat) : Byte := Sparse.get memZero d.mem.bytes pa

/-- The 64 bytes of storage of a line. -/
def rawLine (d : Dev) (ln : Nat) : Line :=
  BitVec.ofNat 512 (leNat ((upto 64).map fun i => rawByte d (ln * 64 + i)))

/-- The CD that holds a line. -/
def lineCd (d : Dev) (ln : Nat) : Option Nat :=
  match paKind d (ln * 64) with
  | .far c _ => some c
  | .scratch c _ => some c
  | .tile c _ => some c
  | _ => none

/-- Does a line belong to a CD declared down (18 R547)? -/
def lineLost (d : Dev) (ln : Nat) : Bool :=
  match lineCd d ln with
  | some c => d.mem.lost.contains c
  | none => false

/-- Is CD k out of reach for an agent on CD c (01 R22; 18 R544, R547)? A CD that the HD has lost reaches its row neighbour only. -/
def cdDead (d : Dev) (c k : Nat) : Bool := k != c && (d.mem.lost.contains k || (k == c ^^^ 1 && d.mem.cut.contains c) ||
  (k != c ^^^ 1 && d.mem.lost.contains c))

/-- Is a line out of reach for an agent on CD c? -/
def deadTo (d : Dev) (c ln : Nat) : Bool :=
  match lineCd d ln with
  | some k => cdDead d c k
  | none => false

/-- Was a line written poisoned when its CD rejoined (18 R548)? -/
def poisonBase (d : Dev) (ln : Nat) : Bool :=
  match paKind d (ln * 64) with
  | .far c _ => d.mem.stale.contains c
  | _ => false

/-- The poison bit of a line of storage. -/
def rawPoison (d : Dev) (ln : Nat) : Bool :=
  lineLost d ln || (Sparse.get noPoison d.mem.poison ln != poisonBase d ln)

/-- Byte i of a line. -/
def lineByte (x : Line) (i : Nat) : Byte := BitVec.ofNat 8 (x.toNat >>> (8 * i))

/-- Memory with the masked bytes of a line written. -/
def putBytes (m : List Host.Cell) (ln : Nat) (data : Line) (mask : BitVec 64) : List Host.Cell :=
  (upto 64).foldl (fun m i => if bit mask i then Sparse.set memZero m (ln * 64 + i) (lineByte data i) else m) m

/-- Writes masked bytes of a line of storage. -/
def setRaw (d : Dev) (ln : Nat) (data : Line) (mask : BitVec 64) : Dev :=
  { d with mem := { d.mem with bytes := putBytes d.mem.bytes ln data mask } }

/-- Sets or clears the poison bit of a line of storage. -/
def setRawPoison (d : Dev) (ln : Nat) (p : Bool) : Dev :=
  { d with mem := { d.mem with poison := Sparse.set noPoison d.mem.poison ln (p != poisonBase d ln) } }

/-- The mask that covers a whole line. -/
def fullMask : BitVec 64 := BitVec.allOnes 64

/-- A line's poison bit after a write (10 R311): cleared only by a write of all 64 bytes from data that is not
poisoned, set by poisoned data, kept otherwise. -/
def poisonAfter (old data : Bool) (mask : BitVec 64) : Bool := data || (old && mask != fullMask)

/-- The 512-bit mask of a byte mask. -/
def bitMask (mask : BitVec 64) : Line :=
  BitVec.ofNat 512 (leNat ((upto 64).map fun i => if bit mask i then 0xFF else 0))

/-- Is a line number that of a far-tier line? Its CD and region-relative address. -/
def farLine? (d : Dev) (ln : Nat) : Option (Nat × Nat) :=
  match paKind d (ln * 64) with
  | .far c l => some (c, l)
  | _ => none

/-- A traffic counter of CD c (20 R616). -/
def cntOff (c reg : Nat) : Nat := regOff c 0x2D 0 reg

/-- Stores a sector of the far tier whole; a demand write cancels a pending rewrite of the sector (10 R329). -/
def sectorWrite (d : Dev) (c ln : Nat) (data : Line) (p : Bool) : Dev :=
  let d := setRawPoison (setRaw d ln data fullMask) ln p
  let d := addCtr d (cntOff c 6) 1
  let f := ftOf d c
  setFt d c { f with rewr := f.rewr.filter fun r => r.line != ln }

/-- Is a line of the far tier read poisoned: its poison bit is stored, or its rewrite with the bit set is still to come
(10 R328)? -/
def sectorPoison (d : Dev) (c ln : Nat) : Bool :=
  rawPoison d ln || (ftOf d c).rewr.any fun r => r.line == ln && r.poison

/-- The poison of a line of storage as a read finds it: of a far-tier sector also where its poisoned rewrite is still to come. -/
def storedPoison (d : Dev) (ln : Nat) : Bool :=
  match farLine? d ln with
  | some (c, _) => sectorPoison d c ln
  | none => rawPoison d ln

/-- A line read from the far tier is kept at its home, unless that slice is leaving (10 R315, R318). -/
def keepLine (d : Dev) (c l ln : Nat) : Dev :=
  if sliceMode d c (homeSlice d c l) = 2 then d
  else setWellLine d ln { valid := true, dirty := false, poison := storedPoison d ln, data := rawLine d ln }

/-- An access to a far-tier line at its home (10 R314, R315, R318, R322; 20 R616): it counts as a hit or a miss, and a missing
line is filled from the far tier, unless its home slice is leaving the cache and allocates none. -/
def homeFill (d : Dev) (ln : Nat) : Dev :=
  match farLine? d ln with
  | none => d
  | some (c, l) =>
    if (wellLine d ln).valid then addCtr d (cntOff c 0) 1
    else if lineLost d ln then d
    else keepLine (addCtr (addCtr d (cntOff c 2) 1) (cntOff c 4) 1) c l ln

/-- The accesses of some lines at their homes. -/
def fillLines (d : Dev) (lines : List Nat) : Dev := lines.foldl homeFill d

/-- Writes a dirty line back to the far tier; the line leaves the well (10 R314). -/
def evictLine (d : Dev) (ln : Nat) : Dev :=
  let w := wellLine d ln
  let d := setWellLine d ln {}
  match farLine? d ln with
  | some (c, _) => if w.valid && w.dirty then sectorWrite d c ln w.data w.poison else d
  | none => d

/-- The bytes and poison of a line at its point of performance (11 R345): the home's copy of a far-tier line,
storage otherwise. -/
def lineAt (d : Dev) (ln : Nat) : Line × Bool :=
  let w := wellLine d ln
  if w.valid then (w.data, w.poison) else (rawLine d ln, storedPoison d ln)

/-- One byte at its point of performance. -/
def byteAt (d : Dev) (pa : Nat) : Byte :=
  let w := wellLine d (pa / 64)
  if w.valid then lineByte w.data (pa % 64) else rawByte d pa

/-- The poison of a line at its point of performance. -/
def poisonAt (d : Dev) (ln : Nat) : Bool := (lineAt d ln).2

/-- Ends every reservation on a line (12 R385). -/
def breakResv (d : Dev) (ln : Nat) : Dev :=
  { d with coh := { d.coh with resv := d.coh.resv.filter fun r => r.2 != ln } }

/-- The launches that run: those with blocks to place, and those of resident blocks; each by its CD and number. -/
def runningLaunches (d : Dev) : List (Nat × Nat) :=
  (d.tiles.flatMap fun e => e.2.blocks.map fun b => (e.1 / 180, b.launch)) ++
    d.qs.filterMap fun e => e.2.launch.map fun l => (e.1 / 1024, l.id)

/-- Remembers what a line held while launches run (04 R121). -/
def notePast (d : Dev) (ln : Nat) : Dev :=
  match runningLaunches d with
  | [] => d
  | ls => { d with mem := { d.mem with past := ⟨ln, (lineAt d ln).1, ls⟩ :: d.mem.past } }

/-- Forgets the earlier contents that no running launch may see. -/
def prunePast (d : Dev) : Dev :=
  let ls := runningLaunches d
  { d with mem := { d.mem with past := d.mem.past.filter fun p => p.launches.any ls.contains } }

/-- Writes masked bytes of a line at its point of performance, its access already counted, with the poison rule of 10 R311; a
write to a far-tier line ends the host reservations on it (12 R385), and one whose home slice does not hold the line goes to the far
tier (10 R318). A write to a CD declared down is lost (18 R544). -/
def putLine (d : Dev) (ln : Nat) (data : Line) (mask : BitVec 64) (p : Bool) : Dev :=
  if lineLost d ln then d else
  let d := notePast d ln
  match farLine? d ln with
  | some (c, _) =>
    let d := breakResv d ln
    let w := wellLine d ln
    let x := mergeMask (lineAt d ln).1 data (bitMask mask)
    let p := poisonAfter (poisonAt d ln) p mask
    if w.valid then setWellLine d ln { w with dirty := true, poison := p, data := x } else sectorWrite d c ln x p
  | none =>
    let old := rawPoison d ln
    setRawPoison (setRaw d ln data mask) ln (poisonAfter old p mask)

/-- A write access to masked bytes of a line. -/
def writeLine (d : Dev) (ln : Nat) (data : Line) (mask : BitVec 64) (p : Bool) : Dev :=
  putLine (homeFill d ln) ln data mask p

/-- Bytes at their place in the line of a physical address. -/
def placed (pa : Nat) (bs : List Byte) : Line := BitVec.ofNat 512 (leNat bs <<< (8 * (pa % 64)))

/-- The mask of n bytes at their place in the line of a physical address. -/
def placedMask (pa n : Nat) : BitVec 64 := BitVec.ofNat 64 ((2 ^ n - 1) <<< (pa % 64))

/-- Writes bytes from a physical address, all within one line. -/
def writeIn (d : Dev) (pa : Nat) (bs : List Byte) (p : Bool) : Dev :=
  writeLine d (pa / 64) (placed pa bs) (placedMask pa bs.length) p

/-- Writes bytes from a physical address, all within one line whose access is already counted. -/
def putIn (d : Dev) (pa : Nat) (bs : List Byte) (p : Bool) : Dev :=
  putLine d (pa / 64) (placed pa bs) (placedMask pa bs.length) p

/-- The bytes from a physical address. -/
def bytesAt (d : Dev) (pa n : Nat) : List Byte := (upto n).map fun i => byteAt d (pa + i)

/-- The little-endian value of n bytes from a physical address. -/
def valAt (d : Dev) (pa n : Nat) : Nat := leNat (bytesAt d pa n)

/-- Is any line of n bytes from a physical address poisoned? -/
def poisonIn (d : Dev) (pa n : Nat) : Bool :=
  (upto ((pa + n - 1) / 64 - pa / 64 + 1)).any fun i => poisonAt d (pa / 64 + i)

/-- Writes n bytes from a physical address, line by line (at most `k` lines). -/
def writeSpan : Nat → Dev → Nat → List Byte → Bool → Dev
  | 0, d, _, _, _ => d
  | k + 1, d, pa, bs, p =>
    match bs with
    | [] => d
    | _ =>
      let room := 64 - pa % 64
      writeSpan k (writeIn d pa (bs.take room) p) (pa + room) (bs.drop room) p

/-- Writes bytes from a physical address across lines. -/
def writeAt (d : Dev) (pa : Nat) (bs : List Byte) (p : Bool) : Dev :=
  writeSpan (bs.length / 64 + 2) d pa bs p

/-- Zeroes a range of storage and clears its poison. -/
def zeroRange (d : Dev) (lo n : Nat) : Dev :=
  { d with mem := { d.mem with
      bytes := d.mem.bytes.filter fun e => decide (e.1 < lo) || decide (lo + n ≤ e.1)
      poison := d.mem.poison.filter fun e => decide (e.1 * 64 < lo) || decide (lo + n ≤ e.1 * 64) } }

/-- Is a logical tile retired (18 R553)? -/
def tileRetired (d : Dev) (c t : Nat) : Bool :=
  match Sparse.find? d.tiles (c * 180 + t) with
  | some x => x.retired
  | none => false

/-- The partition and mode check of a byte for an agent of a partition (02 R50, 10 R307, R308, R273): the status that
refuses it, or 0. Far-tier bytes are allowed. -/
def paCheck (d : Dev) (part pa : Nat) : Nat :=
  match paKind d pa with
  | .far _ _ => 0
  | .unfitted => stAbsent
  | .noCd => stAbsent
  | .scratch c s => if sliceMode d c s = 1 ∧ slicePart d c s = part then 0 else stState
  | .tile c t => if tilePart d c t = part ∧ !tileRetired d c t then 0 else stState
  | _ => stXlat

/-- `pending` of the companion of a register (03 R89): a write waits in its buffer; WELL.SPLIT's stays 1 until its target is
reached (10 R317). -/
def companionPending (d : Dev) (off : Nat) : Bool :=
  (regBuf d off).mask != 0 || d.rg.mgmt.any (fun w => w.off == off) ||
    (offUnit off == 0x11 && offReg off == 0 && (wellOf d (offDie off)).announce)

/-- The flags register of the unit whose storage holds a line: TM.FLAGS or SLICE.FLAGS; none elsewhere. -/
def eccFlags (d : Dev) (ln : Nat) : Option Nat :=
  match paKind d (ln * 64) with
  | .far c l => some (regOff c 0x12 (homeSlice d c l) 2)
  | .scratch c s => some (regOff c 0x12 s 2)
  | .tile c t => some (regOff c 0x10 t 0)
  | _ => none

/-- What a read that finds errors does to a line of tile memory or of a well slice (10 R310, R316). A corrected line
waits for its rewrite; an uncorrectable line is poisoned, but a clean far-tier line is fetched again. A far-tier line that
the well does not hold is in neither. -/
def eccRead (d : Dev) (ln : Nat) (e : EccFound) : Dev :=
  match eccFlags d ln with
  | none => d
  | some f =>
    if (farLine? d ln).isSome && !(wellLine d ln).valid then d else
    match e with
    | .none => d
    | .one =>
      let d := setFlag d f 0
      { d with mem := { d.mem with rewr := if ln ∈ d.mem.rewr then d.mem.rewr else d.mem.rewr ++ [ln] } }
    | .two =>
      let w := wellLine d ln
      if w.valid && !w.dirty then
        let d := setFlag d f 2
        homeFill (setWellLine d ln {}) ln
      else if w.valid then setFlag (setWellLine d ln { w with poison := true }) f 1
      else setFlag (setRawPoison d ln true) f 1

/-- What errors a read finds in lines, by line number (10 R310, R316). -/
def eccLines (d : Dev) (ecc : List (Nat × EccFound)) (lines : List Nat) : Dev :=
  ecc.foldl (fun d e => if lines.contains e.1 then eccRead d e.1 e.2 else d) d

/-- Reads of some lines: each is accessed at its home, and finds what errors there are. -/
def readLines (d : Dev) (ecc : List (Nat × EccFound)) (lines : List Nat) : Dev := eccLines (fillLines d lines) ecc lines

end Sys2Proof.Machine
end

