-- ==== Sys2Proof/Machine/Xlat.lean ====
section
/-! DEFINITION. Address translation (13): walks of device and host-format tables, the checks of their entries, cached
leaves and pointers, fault latching. -/

namespace Sys2Proof.Machine

open Parts

/-- No translation state. -/
def noXInst (_ : Nat) : XInst := {}

/-- A translation instance: 0 to 3 for CDs, 16 + ch for channels. -/
def xinst (d : Dev) (i : Nat) : XInst := Sparse.get noXInst d.xl.inst i

/-- Stores a translation instance. -/
def setXinst (d : Dev) (i : Nat) (x : XInst) : Dev :=
  { d with xl := { d.xl with inst := Sparse.set noXInst d.xl.inst i x } }

/-- An empty TLB. -/
def noTlb (_ : Nat) : List TlbEntry := []

/-- The instance an access translates in. -/
def selInst : TlbSel → Nat
  | .tile c _ => c
  | .stream c => c
  | .chan ch => 16 + ch

/-- The entries of a first-level TLB. -/
def tlbOf (d : Dev) : TlbSel → List TlbEntry
  | .tile c t => Sparse.get noTlb d.xl.tile (c * 180 + t)
  | .stream c => Sparse.get noTlb d.xl.stream c
  | .chan _ => []

/-- Stores a first-level TLB. -/
def setTlb (d : Dev) (s : TlbSel) (l : List TlbEntry) : Dev :=
  match s with
  | .tile c t => { d with xl := { d.xl with tile := Sparse.set noTlb d.xl.tile (c * 180 + t) l } }
  | .stream c => { d with xl := { d.xl with stream := Sparse.set noTlb d.xl.stream c l } }
  | .chan _ => d

/-- The device virtual address width, 57 bits. -/
def vaMod : Nat := 2 ^ 57

/-- The gong window of every device space (13 R393). -/
def gongWindow : Nat := 0x01FFFFFFFE000000

/-- The base of gong space (10 R304). -/
def gongSpace : Nat := 0x300000000000

/-- How a walk ends: a leaf and its level, or a cause of 13 R396. -/
inductive WalkEnd where
  | leaf (entry : Word64) (level : Nat)
  | cause (c : Nat)
  deriving DecidableEq, Repr

/-- May a table lie at this address (13 R392)? -/
def tableOk (d : Dev) (pa : Nat) : Bool :=
  match paKind d pa with
  | .far _ _ => true
  | .scratch c s => sliceMode d c s == 1
  | _ => false

/-- A table entry at its point of performance and whether it was read poisoned (13 R392, R396). -/
def tableEntry (d : Dev) (pa : Nat) : Word64 × Bool := (BitVec.ofNat 64 (valAt d pa 8), poisonAt d (pa / 64))

/-- log2 of the bytes a device entry of a level covers. -/
def devShift (level : Nat) : Nat := match level with | 0 => 25 | 1 => 30 | 2 => 39 | _ => 48

/-- The index of a device VA at a level (13, device tables). -/
def devIndex (va level : Nat) : Nat := if level = 0 then va / 2 ^ 25 % 32 else va / 2 ^ devShift level % 512

/-- Is a device pointer entry well formed at its level (13 R391)? -/
def devPtrOk (e : Word64) (level : Nat) : Bool :=
  fld e 7 5 == 0 && fld e 63 48 == 0 && level != 0 && (level == 1 || fld e 11 8 == 0)

/-- Is a device leaf well formed at its level, for the page holding a VA (13 R391, R393)? -/
def devLeafOk (e : Word64) (level va : Nat) : Bool :=
  let pa := fld e 47 8 * 256
  let gb := fld e 63 48 != 0
  let mapsGong := pa == gongSpace
  fld e 7 5 == 0 && decide (level ≤ 1) && (if level = 1 then fld e 29 8 == 0 else fld e 24 8 == 0) &&
    (!gb || mapsGong) && (!mapsGong || (level == 0 && va / 2 ^ 25 * 2 ^ 25 == gongWindow))

/-- What a walk has met: how it ends, the lines it read, and the pointers it passed with their levels. -/
structure Walked where
  stop : WalkEnd
  lines : List Nat := []
  ptrs : List (Nat × Word64) := []

/-- A walk that has first read a line and passed a pointer of a level. -/
def Walked.after (w : Walked) (ln level : Nat) (e : Word64) : Walked :=
  { w with lines := ln :: w.lines, ptrs := (level, e) :: w.ptrs }

/-- A device walk from a table through the given levels (13 R391, R392, R396). -/
def walkDev (d : Dev) (va : Nat) : List Nat → Nat → Walked
  | [], _ => ⟨.cause 3, [], []⟩
  | level :: rest, table =>
    if !tableOk d table then ⟨.cause 3, [], []⟩ else
    let pa := table + 8 * devIndex va level
    let (e, p) := tableEntry d pa
    let stops := fun (w : WalkEnd) => (⟨w, [pa / 64], []⟩ : Walked)
    if p then stops (.cause 2)
    else if !bit e 0 then stops (.cause 1)
    else if bit e 1 then (if devLeafOk e level va then stops (.leaf e level) else stops (.cause 3))
    else if devPtrOk e level then (walkDev d va rest (fld e 47 8 * 256)).after (pa / 64) level e
    else stops (.cause 3)

/-- The permission check of a device leaf (13 R391, R393): cause 5 where the right is absent. -/
def devPerm (e : Word64) (level va : Nat) (acc : Access) : Bool :=
  match acc with
  | .read => bit e 2
  | .write => bit e 3
  | .fetch => bit e 4
  | .gong =>
    let g := va % 2 ^ 25 / 64
    level == 0 && fld e 47 8 * 256 == gongSpace && bit e 3 && decide (fld e 55 48 ≤ g / 512) &&
      decide (g / 512 ≤ fld e 63 56)

/-- The physical address a device leaf gives. -/
def devPa (e : Word64) (level va : Nat) : Nat := fld e 47 8 * 256 + va % 2 ^ devShift level

/-- The range check of an ordinary device access (13 R396, RANGE): register space, gong space, host-private. -/
def devRange (d : Dev) (pa : Nat) (acc : Access) : Bool :=
  acc == .gong || (match paKind d pa with
    | .regs => false
    | .gong => false
    | .priv => false
    | _ => true)

/-- A host-format page's log2 size at a level. -/
def hostShift (level : Nat) : Nat := 12 + 9 * level

/-- The index of a VA in a host-format table of a level. -/
def hostIndex (va level : Nat) : Nat := va / 2 ^ hostShift level % 512

/-- Is a host-format entry a leaf: R, W or X set? -/
def hostIsLeaf (e : Word64) : Bool := fld e 3 1 != 0

/-- Is a host-format leaf well formed (13 R394)? `N` at level 0 makes a Svnapot leaf, which PAGESIZE refuses. -/
def hostLeafOk (e : Word64) (level : Nat) : Bool :=
  !(bit e 2 && !bit e 1) && fld e 60 54 == 0 && decide (level ≤ 2) && (level == 0 || !bit e 63) &&
    fld e 53 10 % 2 ^ (9 * level) == 0

/-- A host-format walk (13 R394, R395, R396). -/
def walkHost (d : Dev) (va : Nat) : List Nat → Nat → Walked
  | [], _ => ⟨.cause 3, [], []⟩
  | level :: rest, table =>
    if !tableOk d table then ⟨.cause 3, [], []⟩ else
    let pa := table + 8 * hostIndex va level
    let (e, p) := tableEntry d pa
    let stops := fun (w : WalkEnd) => (⟨w, [pa / 64], []⟩ : Walked)
    if p then stops (.cause 2)
    else if !bit e 0 then stops (.cause 1)
    else if hostIsLeaf e then
      (if !hostLeafOk e level then stops (.cause 3) else if level = 0 then stops (.cause 4) else stops (.leaf e level))
    else if bit e 63 || fld e 62 54 != 0 || fld e 7 6 != 0 || bit e 4 then stops (.cause 3)
    else (walkHost d va rest (fld e 53 10 * 4096)).after (pa / 64) level e

/-- The offset of a register of host space h (13 R409). -/
def hxOff (h reg : Nat) : Nat := regOff 4 0x18 h reg

/-- The permission and AD checks of a host leaf (13 R394): 0, 5 PERM or 6 AD. -/
def hostPerm (d : Dev) (hx : Nat) (e : Word64) (acc : Access) : Nat :=
  let ok := (if acc = .write then bit e 2 else bit e 1) && (regFld d (hxOff hx 2) 4 4 == 0 || bit e 4)
  if !ok then 5
  else if !bit e 6 || (acc == .write && !bit e 7) then 6
  else 0

/-- The physical address a host leaf gives. -/
def hostPa (e : Word64) (level va : Nat) : Nat := fld e 53 10 * 4096 + va % 2 ^ hostShift level

/-- The range check of a channel transfer (13 R394): far tier or a CD window. That a window belongs to the channel's partition
is checked byte by byte (02 R50, 14 R428). -/
def hostRange (d : Dev) (pa : Nat) : Bool :=
  decide (pa < 2 ^ 48) && (match paKind d pa with
    | .far _ _ => true
    | .unfitted => true
    | .scratch _ _ => true
    | .tile _ _ => true
    | .noCd => true
    | _ => false)

/-- Does a cached entry serve a VA of a space? -/
def tlbHits (sp : Space) (va : Nat) (t : TlbEntry) : Bool :=
  (match sp with
    | .dev part dasid _ => !t.host && t.part == part && t.space == dasid
    | .host hx => t.host && t.space == hx) && va / 2 ^ t.size * 2 ^ t.size == t.va

/-- The tag of a cached entry of a space. -/
def tlbTag (sp : Space) (va size : Nat) (e : Word64) (level : Nat) : TlbEntry :=
  match sp with
  | .dev part dasid _ => ⟨false, part, dasid, va / 2 ^ size * 2 ^ size, size, e, level⟩
  | .host hx => ⟨true, 0, hx, va / 2 ^ size * 2 ^ size, size, e, level⟩

/-- log2 of the bytes a leaf of a level covers in a space. -/
def leafShift (sp : Space) (level : Nat) : Nat :=
  match sp with
  | .dev _ _ _ => devShift level
  | .host _ => hostShift level

/-- An entry put at the head of a fully associative cache of n entries; the oldest leaves when it is full. -/
def tlbInsert (n : Nat) (l : List TlbEntry) (t : TlbEntry) : List TlbEntry := (t :: l.filter (· != t)).take n

/-- The set of an entry in an 8-way cache: its page number modulo the sets (DESIGN CHOICE, log entry 67). -/
def tlbSet (sets : Nat) (t : TlbEntry) : Nat := t.va / 2 ^ t.size % sets

/-- An entry put at the head of an 8-way cache (13 R398); the oldest of its set leaves when the set is full. -/
def setInsert (sets : Nat) (l : List TlbEntry) (t : TlbEntry) : List TlbEntry :=
  let l := l.filter (· != t)
  let same := l.filter fun u => tlbSet sets u == tlbSet sets t
  if same.length < 8 then t :: l
  else match same.getLast? with
    | some v => t :: l.erase v
    | none => t :: l

/-- The checks after a leaf is found, cached or walked: its cause, or 0 (13 R394, R396). -/
def leafCause (d : Dev) (sp : Space) (e : Word64) (level va : Nat) (acc : Access) : Nat :=
  match sp with
  | .dev _ _ _ =>
    if !devPerm e level va acc then 5
    else if !devRange d (devPa e level va) acc then 7 else 0
  | .host hx =>
    let c := hostPerm d hx e acc
    if c ≠ 0 then c
    else if !hostRange d (hostPa e level va) then 7 else 0

/-- The physical address of a leaf in a space. -/
def leafPa (sp : Space) (e : Word64) (level va : Nat) : Nat :=
  match sp with
  | .dev _ _ _ => devPa e level va
  | .host _ => hostPa e level va

/-- Levels n − 1 down to 0. -/
def levelsBelow (n : Nat) : List Nat := (upto n).reverse

/-- The root table and the number of levels of host space h (13 R394, R412). -/
def hostRoot (d : Dev) (hx : Nat) : Nat × Nat :=
  ((regFld d (hxOff hx 1) 11 0 * 2 ^ 32 + regFld d (hxOff hx 0) 31 0) * 4096, if regFld d (hxOff hx 1) 31 28 = 9 then 4 else 5)

/-- Is an address one that Sv48 maps (13 R395)? -/
def sv48Ok (va : Nat) : Bool := let top := va / 2 ^ 47 % 2 ^ 10; top == 0 || top == 2 ^ 10 - 1

/-- The cached pointer nearest to the leaf from which a walk starts (13 R398). -/
def cachedPtr (d : Dev) (inst : Nat) (sp : Space) (va : Nat) : Option TlbEntry :=
  ((xinst d inst).walk.filter (tlbHits sp va)).foldl (fun a t => match a with
    | none => some t
    | some b => if t.level < b.level then some t else a) none

/-- The table where a walk starts and the levels below (13 R398). -/
def walkStart (d : Dev) (inst : Nat) (sp : Space) (va : Nat) : Nat × List Nat :=
  match sp, cachedPtr d inst sp va with
  | .dev _ _ _, some p => (fld p.entry 47 8 * 256, levelsBelow p.level)
  | .dev _ _ root, none => (root, levelsBelow 4)
  | .host _, some p => (fld p.entry 53 10 * 4096, levelsBelow p.level)
  | .host hx, none => ((hostRoot d hx).1, levelsBelow (hostRoot d hx).2)

/-- Is an address of a space outside what its tables can map (13 R395)? -/
def outsideSpace (d : Dev) (sp : Space) (va : Nat) : Bool :=
  match sp with
  | .dev _ _ _ => false
  | .host hx => (hostRoot d hx).2 == 4 && !sv48Ok va

/-- The walk of a VA in a space, from a cached pointer where there is one (13 R390 to R398). -/
def walk (d : Dev) (inst : Nat) (sp : Space) (va : Nat) : Walked :=
  let (table, levels) := walkStart d inst sp va
  match sp with
  | .dev _ _ _ => walkDev d va levels table
  | .host _ => walkHost d va levels table

/-- The pointers to remember after a walk, with their levels: of a device walk that of level 1, of a host walk all (13
R398). -/
def walkPtrs (sp : Space) (w : Walked) : List (Nat × Word64) :=
  match sp with
  | .dev _ _ _ => w.ptrs.filter fun p => p.1 == 1
  | .host _ => w.ptrs

/-- The register instance of a translation instance (13 R409). -/
def xlatOff (inst reg : Nat) : Nat :=
  if inst < 16 then regOff inst 0x16 0 reg else regOff 4 0x16 (inst - 16) reg

/-- The code of an access kind (13 R410). -/
def accCode : Access → Nat
  | .read => 0
  | .write => 1
  | .fetch => 2
  | .gong => 3

/-- The `space` and `partition` fields of a space (13 R410, R411). -/
def spaceCode (d : Dev) : Space → Nat × Nat × Nat
  | .dev part dasid _ => (0, dasid, part)
  | .host hx => (1, hx, regFld d (hxOff hx 2) 3 0)

/-- A 57-bit VA stored in a LO/HI pair of fault registers. -/
def setVaRegs (d : Dev) (lo va : Nat) : Dev :=
  setReg (setReg d lo (BitVec.ofNat 32 va)) (lo + 4) (BitVec.ofNat 32 (va / 2 ^ 32 % 2 ^ 25))

/-- Records the end of a translation with a cause: `f_fault`, and the fault registers when it was 0 (13 R397, R411). -/
def latchXlat (d : Dev) (inst : Nat) (sp : Space) (va : Nat) (acc : Access) (c : Nat) : Dev :=
  let first := !flag d (xlatOff inst 5) 0
  let d := setFlag d (xlatOff inst 5) 0
  if first then
    let (tb, space, part) := spaceCode d sp
    let d := setReg d (xlatOff inst 6)
      (BitVec.ofNat 32 (c + tb * 16 + accCode acc * 32 + space * 128 + part * 2 ^ 19))
    setVaRegs d (xlatOff inst 8) va
  else d

/-- What a translation gives an access: a physical address; a cause with the status it has; or a wait for the host
(13 R406). -/
inductive XRes where
  | ok (pa : Nat)
  | cause (c st : Nat)
  | wait
  deriving DecidableEq, Repr

/-- The sets of the CD translation caches and of the channel TLBs, 8 ways each (13 R398): 4,096 and 512 entries. -/
def cacheSets (inst : Nat) : Nat := if inst < 16 then 512 else 64

/-- The sizes of the walk caches (13 R398). -/
def walkCap (inst : Nat) : Nat := if inst < 16 then 256 else 64

/-- Caches the pointers that a walk has passed (13 R398). -/
def cachePtrs (d : Dev) (inst : Nat) (sp : Space) (va : Nat) (ps : List (Nat × Word64)) : Dev :=
  let x := xinst d inst
  setXinst d inst { x with
    walk := ps.foldl (fun l p => tlbInsert (walkCap inst) l (tlbTag sp va (leafShift sp p.1) p.2 p.1)) x.walk }

/-- Caches a leaf that was walked or filled, in the instance's cache and in the first-level TLB (13 R398). -/
def cacheLeaf (d : Dev) (sel : TlbSel) (sp : Space) (va : Nat) (e : Word64) (level : Nat) : Dev :=
  let t := tlbTag sp va (leafShift sp level) e level
  let i := selInst sel
  let x := xinst d i
  let d := setXinst d i { x with cache := setInsert (cacheSets i) x.cache t }
  setTlb d sel (tlbInsert 64 (tlbOf d sel) t)

/-- A translation ends with a cause (13 R396, R397). -/
def xlatEnds (d : Dev) (inst : Nat) (sp : Space) (va : Nat) (acc : Access) (c : Nat) : Dev × XRes :=
  (latchXlat d inst sp va acc c, .cause c (causeStatus c))

/-- A walk made for an access: reads the entries at their homes, caches the leaf and the pointers, checks it, latches a cause (10
R315; 13 R392, R396, R398). -/
def walkFor (d : Dev) (sel : TlbSel) (sp : Space) (va : Nat) (acc : Access) : Dev × XRes :=
  let i := selInst sel
  let w := walk d i sp va
  let d := fillLines d w.lines
  match w.stop with
  | .cause c => xlatEnds d i sp va acc c
  | .leaf e level =>
    let d := cacheLeaf (cachePtrs d i sp va (walkPtrs sp w)) sel sp va e level
    let c := leafCause d sp e level va acc
    if c = 0 then (d, .ok (leafPa sp e level va)) else xlatEnds d i sp va acc c

/-- FN.MODE of an instance (02 R57): the package, CD c, or channel ch. -/
def fnOff (inst : Nat) : Nat := if inst < 16 then regOff inst 3 0 0 else regOff 4 3 (inst - 16) 0

/-- Is translation-miss fill host-assisted in an instance (13 R406)? -/
def hostXlat (d : Dev) (inst : Nat) : Bool := regFld d (fnOff inst) 0 0 == 1

/-- The cached leaf that serves an access, first-level TLB first. -/
def cachedLeaf (d : Dev) (sel : TlbSel) (sp : Space) (va : Nat) : Option TlbEntry :=
  match (tlbOf d sel).find? (tlbHits sp va) with
  | some t => some t
  | none => (xinst d (selInst sel)).cache.find? (tlbHits sp va)

/-- Drops a cached entry from the caches an access sees (13 R396). -/
def dropLeaf (d : Dev) (sel : TlbSel) (t : TlbEntry) : Dev :=
  let i := selInst sel
  let x := xinst d i
  let d := setXinst d i { x with cache := x.cache.filter (· != t) }
  setTlb d sel ((tlbOf d sel).filter (· != t))

/-- Is a fault answer the one that an access waits for? -/
def answers (sel : TlbSel) (sp : Space) (va : Nat) (acc : Access) (a : XAnswer) : Bool :=
  a.sel == sel && a.space == sp && a.acc == acc && a.va == va

/-- A miss: an address outside the space ends it, or it takes a fault that waits for it, or the walker walks, or in host-assisted
mode it waits (13 R395, R396, R406, R408). -/
def xlatMiss (d : Dev) (sel : TlbSel) (sp : Space) (va : Nat) (acc : Access) : Dev × XRes :=
  let i := selInst sel
  let x := xinst d i
  if outsideSpace d sp va then xlatEnds d i sp va acc 1 else
  match x.answers.find? (answers sel sp va acc) with
  | some a => (setXinst d i { x with answers := x.answers.erase a }, .cause a.cause (causeStatus a.named))
  | none => if hostXlat d i then (d, .wait) else walkFor d sel sp va acc

/-- The translation of an access (13 R390 to R408). -/
def translate (d : Dev) (sel : TlbSel) (sp : Space) (va : Nat) (acc : Access) : Dev × XRes :=
  match cachedLeaf d sel sp va with
  | none => xlatMiss d sel sp va acc
  | some t =>
    let c := leafCause d sp t.entry t.level va acc
    if c = 0 then (setTlb d sel (tlbInsert 64 (tlbOf d sel) t), .ok (leafPa sp t.entry t.level va))
    else if c = 5 ∨ c = 6 then xlatMiss (dropLeaf d sel t) sel sp va acc
    else xlatEnds d (selInst sel) sp va acc c

/-- The device space of a queue (13 R390, R412): its partition, `dasid` and root. -/
def queueSpace (d : Dev) (q : Nat) : Space :=
  let c := q / 1024
  let i := q % 1024
  .dev (regFld d (regOff c 1 i 2) 6 3) (regFld d (regOff c 0x17 i 2) 11 0)
    (regFld d (regOff c 0x17 i 1) 15 0 * 2 ^ 32 + regFld d (regOff c 0x17 i 0) 31 12 * 4096)

/-- The check of a gong operation's right (13 R393, 09 R285): ok, a cause, or a wait. -/
def gongRight (d : Dev) (sel : TlbSel) (sp : Space) (g : Nat) : Dev × XRes :=
  translate d sel sp (gongWindow + 64 * g) .gong

end Sys2Proof.Machine
end

