-- ==== Sys2Proof/Machine/Queue.lean ====
section
/-! DEFINITION. Command queues (02 R37 to R62, 03 R63 to R104): state, doorbells, holds, refusals, retirement, records
and their seals. -/

namespace Sys2Proof.Machine

open Parts

/-- A queue of which nothing has been recorded. -/
def noQueue (_ : Nat) : Queue := {}

/-- Queue q, by its 12-bit id. -/
def queueOf (d : Dev) (q : Nat) : Queue := Sparse.get noQueue d.qs q

/-- Stores queue q. -/
def setQueue (d : Dev) (q : Nat) (x : Queue) : Dev := { d with qs := Sparse.set noQueue d.qs q x }

/-- A dispatcher of which nothing has been recorded. -/
def noDisp (_ : Nat) : Dispatcher := {}

/-- CD c's dispatcher. -/
def dispOf (d : Dev) (c : Nat) : Dispatcher := Sparse.get noDisp d.disp c

/-- Stores CD c's dispatcher. -/
def setDisp (d : Dev) (c : Nat) (x : Dispatcher) : Dev := { d with disp := Sparse.set noDisp d.disp c x }

/-- The CD of a queue id (00, identifiers). -/
def queueCd (q : Nat) : Nat := q / 1024

/-- A register of queue q. -/
def qOff (q reg : Nat) : Nat := regOff (queueCd q) 1 (q % 1024) reg

/-- Q.CTRL `enable`. -/
def qEnable (d : Dev) (q : Nat) : Bool := regFld d (qOff q 2) 0 0 == 1
/-- Q.CTRL `class`: 0 P, 1 N, 2 B, 3 M. -/
def qClass (d : Dev) (q : Nat) : Nat := regFld d (qOff q 2) 2 1
/-- Q.CTRL `partition`. -/
def qPart (d : Dev) (q : Nat) : Nat := regFld d (qOff q 2) 6 3
/-- Q.CTRL `producer`. -/
def qProducer (d : Dev) (q : Nat) : Nat := regFld d (qOff q 2) 7 7
/-- Q.CTRL `size`. -/
def qSize (d : Dev) (q : Nat) : Nat := regFld d (qOff q 2) 12 8
/-- Q.CTRL `skip_state`. -/
def qSkip (d : Dev) (q : Nat) : Bool := regFld d (qOff q 2) 13 13 == 1
/-- Q.CTRL `chime_on_hold`. -/
def qChime (d : Dev) (q : Nat) : Bool := regFld d (qOff q 2) 14 14 == 1
/-- The ring base (03 R95). -/
def qBase (d : Dev) (q : Nat) : Nat := regFld d (qOff q 1) 15 0 * 2 ^ 32 + regFld d (qOff q 0) 31 12 * 4096

/-- The CHM.ENTRY register of a chime entry (09 R303); CHM.PEND and CHM.OCC follow it. -/
def chmOff (e : Nat) : Nat := regOff 4 0x0F (e / 64) (4 * (e % 64))

/-- The message of a chime entry: written only for a non-zero identity (09 R303). -/
def chimeMessage (d : Dev) (e : Nat) : Dev :=
  let r := chmOff e
  let ident := regFld d r 18 8
  if ident = 0 then d
  else { d with gg := { d.gg with chimeDue := d.gg.chimeDue ++ [⟨e, regFld d r 6 1, regFld d r 7 7, ident⟩] } }

/-- Raises a chime (09 R295): a message when `f_pend` goes from 0 to 1 while `enable` is 1; the flag is set and the
event counted in every case. -/
def raiseChime (d : Dev) (e : Nat) : Dev :=
  let p := chmOff e + 4
  let d1 := trace (setFlag d p 0) 4 0x0F (e / 64) 7 none none e 0
  if !flag d p 0 && regFld d (chmOff e) 0 0 == 1 then chimeMessage d1 e else d1

/-- ORs status bits into a queue's accumulator (02 R62). -/
def accumulate (d : Dev) (q st : Nat) : Dev :=
  let x := queueOf d q
  setQueue d q { x with accum := x.accum ||| st }

/-- The words of the record in hand, its seal left out: instructions stand at indexes 1 to this number. -/
def lastInstr (x : Queue) : Nat := x.words.length - 2

/-- The queue after its record in hand has run out: EMPTY when the last accepted doorbell is reached (03 R99). -/
def recordDone (x : Queue) : Queue :=
  { x with
    retired := x.gen
    words := []
    pos := 0
    state := if x.state = .run ∧ x.gen = x.count then .empty else x.state }

/-- An instruction of `n` words retires: the next one is the one after it, and a record whose last instruction has
retired is retired (03, Doorbells and fetch). -/
def retireInstr (d : Dev) (q n : Nat) : Dev :=
  let x := queueOf d q
  let x := { x with pos := x.pos + n, wait := .none, state := if x.state = .wait then .run else x.state }
  setQueue d q (if lastInstr x < x.pos then recordDone x else x)

/-- Retires the instruction in hand with status bits for the accumulator. -/
def retireWith (d : Dev) (q n st : Nat) : Dev := retireInstr (accumulate d q st) q n

/-- Does an action of Q.ACTION wait for the queue's next instruction start (03 R80)? -/
def actionWaits (d : Dev) (q : Nat) : Bool := cmdWaits d (qOff q 6)

/-- Do the clocks of a die run (15 R456)? -/
def dieRuns (d : Dev) (die : Nat) : Bool := !d.pw.stopped.contains die

/-- May a queue start an instruction: RUN, a record in hand, nothing waited for, and no action that applies before it? -/
def canStart (d : Dev) (q : Nat) : Bool :=
  let x := queueOf d q
  dieRuns d (queueCd q) && !actionWaits d q && x.state == .run && x.words != [] && x.wait == .none && decide (x.pos ≤ lastInstr x)

/-- Where a doorbell comes from (03 R71). -/
inductive DoorbellFrom where
  | window
  | convoy (id : Nat)
  | stream
  | mgmt
  deriving DecidableEq, Repr

/-- Is the source of a doorbell the queue's producer (03 R71)? -/
def isProducer (d : Dev) (q : Nat) (src : DoorbellFrom) : Bool :=
  match src with
  | .window => qProducer d q == 0
  | .convoy id => qProducer d q == 1 && regFld d (qOff q 8) 18 0 == id
  | _ => false

/-- Work arrives: an idle package runs (17 R527, R528). -/
def workArrives (d : Dev) : Dev := if pwrState d = 1 then setRegFld d (regOff 5 0x1F 0 1) 6 4 0 else d

/-- The state after a doorbell that makes work available (03, queue states). -/
def rung (st : QState) : QState := if st = .empty then .run else st

/-- A queue with no record in hand whose last accepted count falls back to what it has fetched is EMPTY (03, queue states). -/
def idled (st : QState) : QState := if st = .run then .empty else st

/-- A doorbell write (03 R70, R71, R78): a PAUSED queue returns to RUN where it was EMPTY. The producer is tested first: a
foreign doorbell to a DISABLED queue sets `f_db_foreign` (DESIGN CHOICE, log entry 64). -/
def doorbell (d : Dev) (q : Nat) (src : DoorbellFrom) (count : Nat) : Dev :=
  let x := queueOf d q
  if !isProducer d q src then setFlag d (qOff q 5) 21
  else if x.state = .disabled then d
  else
    let diff := (count + 0x10000 - x.fetched) % 0x10000
    if diff = 0 then
      setQueue d q (if x.words = [] then { x with count := count, reads := 0, state := idled x.state, before := idled x.before }
        else { x with count := count })
    else if diff < 0x8000 then
      setQueue (if rung x.state = .run then workArrives d else d) q
        { x with count := count, state := rung x.state, before := rung x.before }
    else setFlag d (qOff q 5) 20

/-- The number of lines of a queue's ring. -/
def ringLines (d : Dev) (q : Nat) : Nat := 2 ^ qSize d q / 64

/-- The line number (physical address / 64) of line i of a ring, wrapping at its end (03, Command records). -/
def ringLine (d : Dev) (q i : Nat) : Nat := qBase d q / 64 + i % ringLines d q

/-- The eight words of a line. -/
def lineWords (x : Line) : List Word64 := (upto 8).map fun i => BitVec.ofNat 64 (x.toNat >>> (64 * i))

/-- A record as read at a line of a ring: its words and whether a line was poisoned. -/
def readRecord (d : Dev) (q line : Nat) : List Word64 × Bool :=
  let first := lineAt d (ringLine d q line)
  let n := fld ((lineWords first.1).headD 0) 5 0 + 1
  let ls := (upto n).map fun i => lineAt d (ringLine d q (line + i))
  (ls.flatMap fun l => lineWords l.1, ls.any (·.2))

/-- Is a record sealed with a generation (03 R66 to R68)? -/
def sealed (ws : List Word64) (poison : Bool) (gen : Nat) : Bool :=
  let h := ws.headD 0
  let s := ws.getLastD 0
  fld h 31 16 == gen && fld s 15 0 == gen && fld h 5 0 == fld s 21 16 && fld s 63 48 == 0x5EA1 && !poison

/-- Takes in a sealed record (03 R68, R98). -/
def takeRecord (d : Dev) (q : Nat) (ws : List Word64) : Dev :=
  let x := queueOf d q
  let gen := (x.fetched + 1) % 0x10000
  let x := { x with
    fetched := gen, gen := gen, words := ws, pos := 1, lines := ws.length / 8, reads := 0
    line := (x.line + ws.length / 8) % ringLines d q }
  setQueue d q (if lastInstr x < 1 then recordDone x else x)

/-- The fields of a ring that its enabling checks (03 R63, R95, R96): size 12 to 22, base aligned, every line in the
far tier or in scratch slices of the queue's partition. -/
def ringOk (d : Dev) (q : Nat) : Bool :=
  let n := qSize d q
  decide (12 ≤ n ∧ n ≤ 22) && qBase d q % 2 ^ n == 0 &&
    (upto (2 ^ n / 4096)).all fun i =>
      match paKind d (qBase d q + i * 4096) with
      | .far _ _ => true
      | .scratch c s => sliceMode d c s == 1 && slicePart d c s == qPart d q
      | _ => false

/-- The Q.CTRL registers that differ from their reset value, stored or voted: all others hold class N of partition 0. -/
def qCtrls (d : Dev) : List Nat :=
  let vals := d.rg.val.map (·.1)
  (vals ++ (d.rg.votes.map (·.1)).filter fun o => !vals.contains o).filter fun o =>
    offUnit o == 1 && offReg o == 2 && decide (offDie o < 4)

/-- The number of class P queues of a CD (02 R54, 03 R103), by the majority values (03 R87). -/
def pQueuesCd (d : Dev) (c : Nat) : Nat := ((qCtrls d).filter fun o => offDie o == c && regFld d o 2 1 == 0).length

/-- The number of class P queues a partition holds (02 R51). -/
def pQueuesPart (d : Dev) (p : Nat) : Nat := ((qCtrls d).filter fun o => regFld d o 2 1 == 0 && regFld d o 6 3 == p).length

/-- The class work carries: the lower of the queue's class and the class named (02 R53). Class codes rise as
precedence falls. -/
def workClass (d : Dev) (q : Nat) (named : Bool) (cls : Nat) : Nat :=
  if named then max (qClass d q) cls else qClass d q

end Sys2Proof.Machine
end

