-- ==== Sys2Proof/Machine/TileOps.lean ====
section
/-! DEFINITION. Tiles as stores of groups, threads and paths (04): accessors, the merging, parking and release of
paths, block faults and status. -/

namespace Sys2Proof.Machine

open Parts

/-- A tile of which nothing has been recorded. -/
def noTile (_ : Nat) : Tile := {}

/-- The key of logical tile t of CD c. -/
def tileKey (c t : Nat) : Nat := c * 180 + t

/-- Logical tile t of CD c. -/
def tileOf (d : Dev) (c t : Nat) : Tile := Sparse.get noTile d.tiles (tileKey c t)

/-- Stores a tile. -/
def setTile (d : Dev) (c t : Nat) (x : Tile) : Dev := { d with tiles := Sparse.set noTile d.tiles (tileKey c t) x }

/-- A thread at the start of a block: all zero. -/
def noThread (_ : Nat) : Thread := {}

/-- A register that holds zero. -/
def zero32 (_ : Nat) : Word32 := 0

/-- A uniform register that holds zero. -/
def zero64 (_ : Nat) : Word64 := 0

/-- An element that holds zero. -/
def noElem (_ : Nat) : Elem := {}

/-- An empty element of an aligned accumulator. -/
def noXElem (_ : Nat) : XElem := {}

/-- The group in a slot. -/
def groupAt (x : Tile) (slot : Nat) : Option Group := Sparse.find? x.slots slot

/-- Stores the group of a slot. -/
def setGroup (x : Tile) (slot : Nat) (g : Group) : Tile := { x with slots := Sparse.put x.slots slot g }

/-- Thread `lane` of a group. -/
def threadAt (g : Group) (lane : Nat) : Thread := Sparse.get noThread g.thr lane

/-- Stores a thread of a group. -/
def setThread (g : Group) (lane : Nat) (t : Thread) : Group := { g with thr := Sparse.set noThread g.thr lane t }

/-- Register tn of a thread. -/
def treg (t : Thread) (n : Nat) : Word32 := Sparse.get zero32 t.t n

/-- The poison bit of register tn. -/
def tpoison (t : Thread) (n : Nat) : Bool := bit t.tp n

/-- A word with bit n set to a value. -/
def setBit {w : Nat} (x : BitVec w) (n : Nat) (b : Bool) : BitVec w := setFld x n n (b2n b)

/-- Writes register tn with a value and its poison. -/
def setTreg (t : Thread) (n : Nat) (v : Word32) (p : Bool) : Thread :=
  { t with t := Sparse.set zero32 t.t n v, tp := setBit t.tp n p, late := t.late.filter fun e => e.1 != n }

/-- Register tn awaits the access of an order (04 R122): only a later write of the register ends the wait before it returns. -/
def awaitReg (t : Thread) (ord n : Nat) : Thread := { t with late := Sparse.put t.late n ord }

/-- Writes register tn with what the access of an order returns, unless a later instruction has written or awaits it. -/
def returnReg (ord : Nat) (t : Thread) (n : Nat) (v : Word32) (p : Bool) : Thread :=
  if Sparse.find? t.late n = some ord then setTreg t n v p else t

/-- Writes predicate pn with a value and its poison. -/
def setPred (t : Thread) (n : Nat) (v p : Bool) : Thread := { t with p := setBit t.p n v, pp := setBit t.pp n p }

/-- Uniform register un of a group. -/
def ureg (g : Group) (n : Nat) : Word64 := Sparse.get zero64 g.u n

/-- The poison bit of uniform register un. -/
def upoison (g : Group) (n : Nat) : Bool := bit g.up n

/-- Writes uniform register un with a value and its poison. -/
def setUreg (g : Group) (n : Nat) (v : Word64) (p : Bool) : Group :=
  { g with u := Sparse.set zero64 g.u n v, up := setBit g.up n p }

/-- The lanes 0 to 31. -/
def lanes32 : List Nat := upto 32

/-- The lanes of a mask, rising. -/
def laneList (m : BitVec 32) : List Nat := lanes32.filter fun l => bit m l

/-- The mask of the lanes that satisfy a condition. -/
def laneMask (f : Nat → Bool) : BitVec 32 := lanes32.foldl (fun m l => if f l then m ||| BitVec.ofNat 32 (1 <<< l) else m) 0

/-- The leader of a path: its lowest lane (04 R126). -/
def leader (p : Path) : Nat := lowestBit p.lanes

/-- The path of a group that holds a lane. -/
def pathOf (g : Group) (lane : Nat) : Option Path := g.paths.find? fun p => bit p.lanes lane

/-- The paths of a group but the one that holds a lane. -/
def otherPaths (g : Group) (lane : Nat) : List Path := g.paths.filter fun p => !bit p.lanes lane

/-- Do two paths merge as they park: the same program counter and join stack, both parked (04 R144)? Ready paths merge as one
of them issues. -/
def mergeable (a b : Path) : Bool := a.pc == b.pc && a.join == b.join && a.st == .parked && b.st == .parked

/-- Adds a path to a list in which no two paths merge, merging it with the one it merges with. -/
def addPath : List Path → Path → List Path
  | [], p => [p]
  | q :: qs, p => if mergeable q p then { q with lanes := q.lanes ||| p.lanes } :: qs else q :: addPath qs p

/-- Merges every pair of paths that merge. -/
def mergePaths (ps : List Path) : List Path := ps.foldl addPath []

/-- Parks a ready path whose program counter is the top of its join stack (04 R144). -/
def parkPath (p : Path) : Path := if p.st == .ready && p.join.head? == some p.pc then { p with st := .parked } else p

/-- Pops the join of a released path, which becomes ready (04 R144). -/
def releasePath (p : Path) : Path := { p with join := p.join.tail, st := .ready }

/-- Is a parked path released: no thread that has neither exited nor parked at J holds J in its stack (04 R144)?
Exited threads are in no path. -/
def joinFree (ps : List Path) (p : Path) : Bool :=
  p.st == .parked && ps.all fun q => (q.st == .parked && q.pc == p.pc) || !q.join.contains p.pc

/-- One round of parking, merging and releasing. -/
def settleRound (ps : List Path) : List Path :=
  let ps := mergePaths (ps.map parkPath)
  ps.map fun p => if joinFree ps p then releasePath p else p

/-- Rounds of parking, merging and releasing until nothing changes, at most `n`. -/
def settle : Nat → List Path → List Path
  | 0, ps => ps
  | n + 1, ps => let qs := settleRound ps; if qs = ps then ps else settle n qs

/-- The paths of a group brought to rest (04 R144). Each round shortens a join stack or merges paths, so 300
rounds are more than 32 paths with 8 joins each can need. -/
def settleGroup (g : Group) : Group := { g with paths := mergePaths (settle 300 g.paths) }

/-- The block with a number. -/
def blockOf (x : Tile) (id : Nat) : Option Block := x.blocks.find? fun b => b.id == id

/-- Stores a block under its number. -/
def setBlock (x : Tile) (b : Block) : Tile := { x with blocks := x.blocks.map fun c => if c.id = b.id then b else c }

/-- ORs status bits into a block's status (04 R151). -/
def blockStatus (x : Tile) (id st : Nat) : Tile :=
  match blockOf x id with
  | some b => setBlock x { b with status := b.status ||| st }
  | none => x

/-- A TG register of a tile. -/
def tgOff (c t reg : Nat) : Nat := regOff c 7 t reg

/-- A block fault (04 R153, R154): recorded once for the block, with the thread, program counter and address; later
faults of a block already faulted set nothing. `va` is none where the fault records no address. -/
def blockFault (d : Dev) (c t blk slot lane pc st : Nat) (va : Option Nat) : Dev :=
  let x := tileOf d c t
  match blockOf x blk with
  | none => d
  | some b =>
    if b.faulted then d
    else
      let d := setTile d c t (setBlock x { b with faulted := true, status := b.status ||| st })
      let d := setReg d (tgOff c t 2) (BitVec.ofNat 32 (faultCode st + slot * 16 + lane * 128 + b.queue * 2 ^ 16))
      let d := setReg d (tgOff c t 3) (BitVec.ofNat 32 pc)
      let d := match va with
        | some a => setVaRegs d (tgOff c t 4) a
        | none => d
      setFlag d (tgOff c t 6) 0

/-- The number of group slots in use. -/
def slotsUsed (x : Tile) : Nat := x.slots.length

/-- The slots of a tile that hold no group, lowest first. -/
def freeSlots (x : Tile) : List Nat := (upto 8).filter fun s => (groupAt x s).isNone

/-- Does the block have a thread that has not exited? -/
def blockLive (x : Tile) (id : Nat) : Bool := x.slots.any fun e => e.2.blk == id && e.2.paths != []

/-- Changes the state of the path of a slot that holds a lane, then brings the group to rest. -/
def setPathState (d : Dev) (c t slot lane : Nat) (f : Path → Path) : Dev :=
  let x := tileOf d c t
  match groupAt x slot with
  | none => d
  | some g =>
    match pathOf g lane with
    | none => d
    | some p => setTile d c t (setGroup x slot (settleGroup { g with paths := f p :: otherPaths g lane }))

/-! Drovers and their moves (09 R267). -/

/-- The key of a tile's drover (09 R300). -/
def tileDrover (c t : Nat) : Nat := c * 1024 + t

/-- The key under which a move names a scratch slice that it reads or writes, apart from every tile's. -/
def sliceKey (c sl : Nat) : Nat := 1024 + c * 64 + sl

/-- A drover of which nothing has been recorded. -/
def noDrover (_ : Nat) : Drover := {}

/-- A drover, by CD × 1,024 + instance (09 R300). -/
def droverOf (d : Dev) (k : Nat) : Drover := Sparse.get noDrover d.drv k

/-- Stores a drover. -/
def setDrover (d : Dev) (k : Nat) (x : Drover) : Dev := { d with drv := Sparse.set noDrover d.drv k x }

/-- A move. -/
def moveOf (d : Dev) (m : MoveId) : Option Move := (droverOf d m.drover).moves.find? fun v => v.id == m.id

/-- Changes a move. -/
def updMove (d : Dev) (m : MoveId) (f : Move → Move) : Dev :=
  let x := droverOf d m.drover
  setDrover d m.drover { x with moves := x.moves.map fun v => if v.id = m.id then f v else v }

/-- ORs status bits into a move's status. -/
def moveStatus (d : Dev) (m : MoveId) (st : Nat) : Dev := updMove d m fun v => { v with status := v.status ||| st }

/-- What a move still to read its source saw at its issue of the bytes that a unit's completing instruction writes (09 R278). -/
def hideLine (d : Dev) (hs : List HiddenLine) (w : LineWrite) : List HiddenLine :=
  let seen := (hs.filter fun h => h.line == w.line).foldl (fun m h => m ||| h.mask) 0
  let new := w.mask &&& ~~~ seen
  if new = 0 then hs else hs ++ [⟨w.line, (lineAt d w.line).1, poisonAt d w.line, new⟩]

/-- The writes of a unit instruction are hidden from the moves that its tile issued after it and that have not moved yet: it was
in flight at their issue (09 R278). -/
def hideWrites (d : Dev) (c t ord : Nat) (ws : List LineWrite) : Dev :=
  let x := droverOf d (tileDrover c t)
  setDrover d (tileDrover c t) { x with moves := x.moves.map fun m =>
    if ord < m.ord ∧ m.phase ≠ .moved then { m with hidden := ws.foldl (hideLine d) m.hidden } else m }

/-- A byte as a move reads it. -/
def seenByte (d : Dev) (hs : List HiddenLine) (pa : Nat) : Byte :=
  match hs.find? fun h => h.line == pa / 64 && bit h.mask (pa % 64) with
  | some h => lineByte h.data (pa % 64)
  | none => byteAt d pa

/-- The poison of a line as a move reads it. -/
def seenPoison (d : Dev) (hs : List HiddenLine) (ln : Nat) : Bool :=
  match hs.find? fun h => h.line == ln with
  | some h => h.poison
  | none => poisonAt d ln

/-- Bytes as a move reads them. -/
def seenBytes (d : Dev) (hs : List HiddenLine) (pa n : Nat) : List Byte := (upto n).map fun i => seenByte d hs (pa + i)

end Sys2Proof.Machine
end

