-- ==== Sys2Proof/Machine/GongOps.lean ====
section
/-! DEFINITION. Gongs (09 R282 to R293): updates, evaluation of waiters and of the armed slot, waiter entries. -/

namespace Sys2Proof.Machine

open Parts

/-- A gong at boot (09 R282). -/
def noGong (_ : Nat) : Gong := {}

/-- Gong g. -/
def gongOf (d : Dev) (g : Nat) : Gong := Sparse.get noGong d.gg.val g

/-- Stores gong g. -/
def setGong (d : Dev) (g : Nat) (x : Gong) : Dev := { d with gg := { d.gg with val := Sparse.set noGong d.gg.val g x } }

/-- The CD of a gong id (00, identifiers). -/
def gongCd (g : Nat) : Nat := g / 0x8000

/-- A gong after an update (09 R287). -/
def gongAfter (x : Gong) (fn : GongFn) (v : Word64) : Gong :=
  match fn with
  | .add => { x with value := x.value + v }
  | .set => { x with value := v }
  | .max => { x with value := if x.value ≤ v then v else x.value }
  | .arm e => { x with arm := some (v, e) }
  | .disarm => { x with arm := none }

/-- Does a wait's condition hold (09 R287)? -/
def waitHolds (v : Word64) (w : Waiter) : Bool := if w.eq then v == w.operand else decide (w.operand ≤ v)

/-- Takes a wait out of the list of waits. -/
def dropWait (d : Dev) (w : Waiter) : Dev := { d with gg := { d.gg with wait := d.gg.wait.erase w } }

/-- A released wait (09 R289): a stream's wait retires, a thread path becomes ready. -/
def releaseWait (d : Dev) (w : Waiter) : Dev :=
  let d := dropWait d w
  match w.who with
  | .queue q => retireInstr d q 2
  | .path c t slot lanes => setPathState d c t slot (lowestBit (BitVec.ofNat 32 lanes)) fun p => { p with st := .ready }
  | _ => d

/-- Waits of CD c's gong unit that hold an entry of a kind (09 R290). -/
def entriesHeld (d : Dev) (c : Nat) (e : WaitEntry) : Nat :=
  (d.gg.wait.filter fun w => gongCd w.gong == c && w.entry == e).length

/-- Reserved entries held by a tile's paths (09 R290). -/
def tileEntries (d : Dev) (c t : Nat) : Nat :=
  (d.gg.wait.filter fun w => w.entry == .reserved && gongCd w.gong == c && (match w.who with
    | .path c' t' _ _ => c' == c && t' == t
    | _ => false)).length

/-- The entry a wait can take in its gong's unit (09 R290): its queue's or tile's reserved one on the same CD, else a
shared one, else none. -/
def entryFor (d : Dev) (w : Waiter) : WaitEntry :=
  let c := gongCd w.gong
  let other := if entriesHeld d c .shared < 3840 then WaitEntry.shared else .none
  match w.who with
  | .queue q => if queueCd q = c then .reserved else other
  | .path c' t _ _ => if c' = c ∧ tileEntries d c t < 64 then .reserved else other
  | _ => other

/-- May a wait be released now? One of a stream is not evaluated while its queue is PAUSED (18 R557). -/
def waitFree (d : Dev) (w : Waiter) : Bool :=
  match w.who with
  | .queue q => (queueOf d q).state == .wait
  | _ => true

/-- Is a wait to be released? -/
def waitDone (d : Dev) (w : Waiter) : Bool := waitHolds (gongOf d w.gong).value w && waitFree d w

/-- The P-cycle counter of the HD (15 R475). -/
def hdPcntOff : Nat := regOff 4 0x1A 0 4

/-- The partition of a waiter. -/
def waiterPart (d : Dev) (w : Waiter) : Option Nat :=
  match w.who with
  | .queue q => some (qPart d q)
  | .path c t slot _ =>
    let x := tileOf d c t
    (groupAt x slot).bind fun g => (blockOf x g.blk).map fun b => b.part
  | _ => none

/-- A wait released by an update that a CTP GONG message brought adds its length to the partition's count (17 R533). -/
def countPace (d : Dev) (w : Waiter) : Dev :=
  match waiterPart d w with
  | some p => addCtr d (regOff 5 0x22 0 (2 + 2 * p)) ((reg64 d hdPcntOff).toNat - w.since)
  | none => d

/-- A wait at its gong unit (09 R288, R290): released at once if it holds, else it takes an entry if there is one. -/
def arriveWait (d : Dev) (w : Waiter) : Dev :=
  if waitDone d w then releaseWait d w
  else
    let e := entryFor (dropWait d w) w
    { d with gg := { d.gg with wait := d.gg.wait.map fun v => if v = w then { w with arrived := true, entry := e } else v } }

/-- Waits that have arrived and found no entry try again. -/
def retryWaits (d : Dev) : Dev :=
  (d.gg.wait.filter fun w => w.arrived && w.entry == .none).foldl arriveWait d

/-- The chime of an armed slot is raised at once, or held for the update that triggered it, if one is given (09 R296). -/
def armedChime (d : Dev) (e : Nat) (by_ : Option GongUpd) : Dev :=
  match by_ with
  | none => raiseChime d e
  | some u => { d with gg := { d.gg with chimeHeld := d.gg.chimeHeld ++ [(e, u)] } }

/-- Evaluates every waiter and the armed slot of a gong on its present value (09 R288); `peer` tells that a CTP GONG
message brought the update, `by_` the update whose release a chime waits for. -/
def evalGong (d : Dev) (g : Nat) (peer : Bool) (by_ : Option GongUpd) : Dev :=
  let x := gongOf d g
  let d := (d.gg.wait.filter fun w => w.gong == g && w.entry != .none && waitDone d w).foldl
    (fun d w => releaseWait (if peer then countPace d w else d) w) d
  let d := retryWaits d
  match x.arm with
  | some (t, e) => if t ≤ x.value then armedChime (setGong d g { x with arm := none }) e by_ else d
  | none => d

/-- An update at the gong unit (09 R287, R288). -/
def performUpdate (d : Dev) (g : Nat) (fn : GongFn) (v : Word64) (peer : Bool) (by_ : Option GongUpd) : Dev :=
  let x := gongAfter (gongOf d g) fn v
  let code := match fn with
    | .add => some 0
    | .set => some 1
    | .max => some 2
    | _ => none
  let d := setGong d g x
  let d := match code with
    | some c => trace d (gongCd g) 0x0E 0 5 none none (g + c * 2 ^ 17) x.value.toNat
    | none => d
  evalGong d g peer by_

/-- An update sent to its gong unit. -/
def sendUpdate (d : Dev) (u : GongUpd) : Dev := { d with gg := { d.gg with upd := d.gg.upd ++ [u] } }

/-! Queues that stop waiting. -/

/-- The waits of a queue are abandoned; waits that found no entry may take those that become free (09 R290). -/
def dropWaits (d : Dev) (q : Nat) : Dev :=
  retryWaits { d with gg := { d.gg with wait := d.gg.wait.filter fun w => w.who != .queue q } }

/-- The status bit of a hold reason (03 R77, R101). -/
def holdStatus (reason : Nat) : Nat :=
  match reason with
  | 1 => stState
  | 2 => stTorn
  | 3 => stPoison
  | 4 => stIllegal
  | _ => stHost

/-- A queue goes to HELD (03 R77, R104): reason, status, flag, chime; a wait is abandoned (R80); a launch that a
reload interrupted keeps its progress (18 R557). `last` names the queue that most recently went to HELD, by the field's own
meaning, also where that queue has left HELD and another has not (the Note under 03 R104 says otherwise; DESIGN CHOICE, log
entry 64). -/
def holdQueue (d : Dev) (q reason : Nat) : Dev :=
  let x := queueOf d q
  let d := setQueue d q { x with state := .held, reason := reason, accum := x.accum ||| holdStatus reason, wait := if x.wait = .launch then .launch else .none }
  let d := dropWaits d q
  let d := if reason < 5 then setFlag d (qOff q 5) (15 + reason) else d
  let p := dispOf d (queueCd q)
  let d := setDisp d (queueCd q) { p with last := q % 1024, reason := reason }
  if qChime d q then raiseChime d q else d

/-- A refusal with status STATE of the instruction in hand, of `n` words (03 R74, R75). -/
def refuseState (d : Dev) (q n : Nat) : Dev :=
  if (qClass d q = 1 ∨ qClass d q = 2) ∧ qSkip d q then
    retireInstr (setFlag (accumulate d q stState) (qOff q 5) 16) q n
  else holdQueue d q 1

end Sys2Proof.Machine
end

