-- ==== Sys2Proof/Machine/Parts/Op.lean ====
section
/-! DEFINITION. What an instruction word says once decoded (04 R105 to R118 and the encodings of 05 to 09, 11). Codes
are the codes of the spec's tables; the fields of unit, drover, gong and control instructions stay in the word. -/

namespace Sys2Proof.Machine.Parts

/-- A second operand: register, immediate, or none. -/
inductive Src where
  | reg (n : Nat)
  | imm (v : Word32)
  | none
  deriving DecidableEq, Repr

/-- The fields of format TM (04 R114). -/
structure MemOp where
  rd : Nat
  ra : Nat
  rb : Nat
  ub : Nat
  glob : Bool
  sz : Nat
  sx : Bool
  scale : Nat
  sem : Nat
  scope : Nat
  aop : Nat
  imm : Nat
  deriving DecidableEq, Repr

/-- A decoded instruction word. -/
inductive Op where
  | alu (fn rd ra : Nat) (b : Src)
  | mul (fn rd ra rb rc : Nat)
  | fp (fn rd ra rb rc : Nat)
  | cvt (fn rd ra : Nat) (trunc : Bool)
  | cmp (fn pd ra : Nat) (b : Src)
  | plogic (fn pd pa pb : Nat)
  | mov (rd ra : Nat)
  | sel (rd ra rb pc : Nat)
  | movu (hi : Bool) (rd ua : Nat)
  | shfl (rd ra rb : Nat)
  | ballot (rd pb : Nat)
  | vote (all : Bool) (pd pb : Nat)
  | uni (fn ud ua ub : Nat)
  | umov (ud ua : Nat)
  | umovt (hi : Bool) (ud ra : Nat)
  | uli (ud : Nat)
  | nop
  | exit
  | yield
  | bctl (imm : Nat)
  | clk (ud : Nat)
  | ld (m : MemOp)
  | st (m : MemOp)
  | atom (m : MemOp)
  | branch (kind ra join : Nat) (target : Int)
  | bar
  | fence (scope : Nat)
  | mma
  | mxAcc (fn : Nat)
  | al (fn : Nat)
  | spSplit
  | spMma
  | spRd (fmt : Nat)
  | vx (op fn : Nat)
  | drv (fill : Bool)
  | gong (fn : Nat)
  | gwait (eq : Bool)
  | ctlNop
  | ctlComplete
  | cfgSet
  | cfgFence
  | launch
  deriving DecidableEq, Repr

end Sys2Proof.Machine.Parts
end

