-- ==== Sys2Proof/Machine/Encoding.lean ====
section
/-! DEFINITION. The Syxia instruction word (04 R105 to R119; 05 R168, R169, R171; 06 R197, R200; 07 R229, R230;
08 R242 to R247; 09 R268, R269, R286, R287; 11 R354): which words are instructions, and what they say. A word that
decodes to none has status ILLEGAL by itself. -/

namespace Sys2Proof.Machine

open Parts

/-- The major opcode. -/
def wOp (w : Word64) : Nat := fld w 63 57
/-- Is the instruction guarded? -/
def wGuarded (w : Word64) : Bool := bit w 56
/-- Is the guard negated? -/
def wNeg (w : Word64) : Bool := bit w 55
/-- The guard predicate. -/
def wPred (w : Word64) : Nat := fld w 54 52
/-- The number of immediate words. -/
def wExt (w : Word64) : Nat := fld w 51 50

/-- Are bits [hi:lo] zero? -/
def zf (w : Word64) (hi lo : Nat) : Bool := fld w hi lo == 0

/-- A decoding kept when the word passes a check. -/
def keepIf (c : Bool) (o : Op) : Option Op := if c then some o else none

/-- Integer instructions in TR (04 R128). -/
def decAluR (w : Word64) : Option Op :=
  let fn := fld w 25 20
  let low := zf w 31 26 && zf w 19 0
  if fn ≤ 0xB then keepIf low (.alu fn (fld w 49 44) (fld w 43 38) (.reg (fld w 37 32)))
  else if fn = 0xC ∨ fn = 0xD then keepIf (low && zf w 37 32) (.alu fn (fld w 49 44) (fld w 43 38) .none)
  else none

/-- Integer instructions in TI (04 R128): `thr.li` has no source. -/
def decAluI (w : Word64) : Option Op :=
  let fn := fld w 37 32
  let imm := Src.imm (BitVec.ofNat 32 (fld w 31 0))
  if fn ≤ 0xB then some (.alu fn (fld w 49 44) (fld w 43 38) imm)
  else if fn = 0xF then keepIf (zf w 43 38) (.alu fn (fld w 49 44) 0 imm)
  else none

/-- Multiply and divide (04 R129). -/
def decMul (w : Word64) : Option Op :=
  let fn := fld w 25 20
  keepIf (decide (fn ≤ 7) && (fn == 3 || zf w 31 26) && zf w 19 0)
    (.mul fn (fld w 49 44) (fld w 43 38) (fld w 37 32) (fld w 31 26))

/-- FP32 instructions and conversions (04 R130, R112 for `mod`). -/
def decFp (w : Word64) : Option Op :=
  let fn := fld w 25 20
  if fn ≤ 5 then
    keepIf ((fn == 3 || zf w 31 26) && zf w 19 0) (.fp fn (fld w 49 44) (fld w 43 38) (fld w 37 32) (fld w 31 26))
  else if 8 ≤ fn ∧ fn ≤ 0xB then
    keepIf (zf w 37 26 && zf w 19 17 && zf w 15 0 && (decide (0xA ≤ fn) || zf w 16 16))
      (.cvt fn (fld w 49 44) (fld w 43 38) (bit w 16))
  else none

/-- Compares in TR and TI (04 R132). -/
def decCmp (w : Word64) (immediate : Bool) : Option Op :=
  if immediate then
    keepIf (decide (fld w 37 32 ≤ 9) && zf w 49 47)
      (.cmp (fld w 37 32) (fld w 46 44) (fld w 43 38) (.imm (BitVec.ofNat 32 (fld w 31 0))))
  else
    keepIf (decide (fld w 25 20 ≤ 0xD) && zf w 49 47 && zf w 31 26 && zf w 19 0)
      (.cmp (fld w 25 20) (fld w 46 44) (fld w 43 38) (.reg (fld w 37 32)))

/-- Predicate logic (04 R132): `pnot` has one source, `pset` and `pclr` none. -/
def decPlogic (w : Word64) : Option Op :=
  let fn := fld w 25 20
  keepIf (decide (fn ≤ 6) && zf w 49 47 && zf w 43 41 && zf w 37 35 && zf w 31 26 && zf w 19 0 &&
      (decide (fn ≤ 3) || zf w 37 32) && (decide (fn ≤ 4) || zf w 43 38))
    (.plogic fn (fld w 46 44) (fld w 40 38) (fld w 34 32))

/-- Moves and cross-lane instructions (04 R133). -/
def decMove (w : Word64) : Option Op :=
  let rd := fld w 49 44
  let ra := fld w 43 38
  let rb := fld w 37 32
  if !zf w 19 0 then none else
  match fld w 25 20 with
  | 0 => keepIf (zf w 37 26) (.mov rd ra)
  | 1 => keepIf (zf w 31 29) (.sel rd ra rb (fld w 28 26))
  | 2 => keepIf (zf w 37 26 && zf w 43 43) (.movu false rd ra)
  | 3 => keepIf (zf w 37 26 && zf w 43 43) (.movu true rd ra)
  | 4 => keepIf (zf w 31 26) (.shfl rd ra rb)
  | 5 => keepIf (zf w 31 26 && zf w 43 38 && zf w 37 35) (.ballot rd rb)
  | 6 => keepIf (zf w 31 26 && zf w 43 38 && zf w 37 35 && zf w 49 47) (.vote false rd rb)
  | 7 => keepIf (zf w 31 26 && zf w 43 38 && zf w 37 35 && zf w 49 47) (.vote true rd rb)
  | _ => none

/-- Uniform instructions (04 R133). -/
def decUni (w : Word64) : Option Op :=
  let fn := fld w 25 20
  let ud := fld w 49 44
  let ra := fld w 43 38
  if !(zf w 49 49 && zf w 31 26 && zf w 19 0) then none
  else if fn ≤ 7 then keepIf (zf w 43 43 && zf w 37 37) (.uni fn ud ra (fld w 37 32))
  else if !zf w 37 32 then none
  else if fn = 8 then keepIf (zf w 43 43) (.umov ud ra)
  else if fn = 9 ∨ fn = 0xA then some (.umovt (fn == 0xA) ud ra)
  else if fn = 0xC then keepIf (zf w 43 38) (.uli ud)
  else none

/-- Thread control (04 R135, R116). -/
def decCtl (w : Word64) : Option Op :=
  if !zf w 43 38 then none else
  match fld w 37 32 with
  | 0 => keepIf (zf w 49 44 && zf w 31 0) .nop
  | 1 => keepIf (zf w 49 44 && zf w 31 0) .exit
  | 2 => keepIf (zf w 49 44 && zf w 31 0) .yield
  | 3 => keepIf (zf w 49 44 && zf w 31 1) (.bctl (fld w 31 0))
  | 4 => keepIf (zf w 49 49 && zf w 31 0) (.clk (fld w 49 44))
  | _ => none

/-- The fields of a memory instruction. -/
def memOp (w : Word64) : MemOp :=
  { rd := fld w 49 44, ra := fld w 43 38, rb := fld w 37 32, ub := fld w 31 27, glob := fld w 26 25 == 1,
    sz := fld w 24 23, sx := bit w 22, scale := fld w 21 20, sem := fld w 19 18, scope := fld w 17 16,
    aop := fld w 15 12, imm := fld w 11 0 }

/-- Checks common to the memory instructions (04 R114, R136, R109): space, uniform base, replaced offset, a scope only where
the access acquires or releases (11 R350), pair. -/
def memOk (w : Word64) (m : MemOp) : Bool :=
  decide (fld w 26 25 ≤ 1) && (m.glob || m.ub == 0) && (wExt w == 0 || m.imm == 0) && (m.sem != 0 || m.scope == 0) &&
    (m.sz != 3 || m.rd % 2 == 0)

/-- Loads, stores and atomics (04 R137, R140). -/
def decMem (w : Word64) (op : Nat) : Option Op :=
  let m := memOp w
  if !memOk w m then none
  else if op = 8 then
    keepIf (m.rb == 0 && m.aop == 0 && (m.sem == 0 || m.sem == 1) && (!m.sx || decide (m.sz ≤ 1))) (.ld m)
  else if op = 9 then
    keepIf (m.rb == 0 && m.aop == 0 && (m.sem == 0 || m.sem == 2) && !m.sx) (.st m)
  else
    keepIf (decide (2 ≤ m.sz) && decide (m.aop ≤ 0xA) && (m.aop != 0xA || m.sz == 2) && !m.sx &&
      (m.sz != 3 || m.rb % 2 == 0)) (.atom m)

/-- Branches (04 R115). -/
def decBranch (w : Word64) : Option Op :=
  let kind := fld w 49 48
  keepIf (kind != 3 && zf w 41 40 && (if kind = 2 then zf w 23 0 else zf w 47 42))
    (.branch kind (fld w 47 42) (fld w 39 24) (sextNat 24 (fld w 23 0)))

/-- `mx.mma` (05 R168, R169). -/
def decMma (w : Word64) : Option Op :=
  let mode := fld w 49 48
  let ty := fld w 47 46
  let k := fld w 16 0 + 1
  keepIf (mode != 3 && ty != 3 && (ty != 2 || mode == 2) && (mode == 2 || zf w 41 37) && (mode == 1 || zf w 26 21) &&
    zf w 20 17 && (mode != 1 || k % (if ty = 1 then 128 else 64) == 0) &&
    (!bit w 42 || (mode != 1 && !bit w 43 && k % 32 == 0))) .mma

/-- Accumulator management (05 R171). -/
def decMxAcc (w : Word64) : Option Op :=
  let fn := fld w 49 46
  keepIf (decide (fn ≤ 3) && zf w 43 37 && zf w 31 0 && ((fn == 1 || fn == 2) || zf w 36 32) &&
    (fn != 3 || zf w 45 44)) (.mxAcc fn)

/-- Aligner instructions (06 R197, R200). -/
def decAl (w : Word64) : Option Op :=
  let fn := fld w 49 46
  if fn = 0 then keepIf (zf w 42 37 && zf w 26 0) (.al 0)
  else if fn = 1 then keepIf (zf w 44 0) (.al 1)
  else if fn ≤ 3 then keepIf (fld w 42 41 != 3 && zf w 40 24 && zf w 15 0) (.al fn)
  else none

/-- `sp.split` (07 R229, R230). -/
def decSplit (w : Word64) : Option Op :=
  keepIf (fld w 49 48 != 3 && zf w 47 37 && zf w 26 17 && (fld w 16 0 + 1) % 32 == 0) .spSplit

/-- `sp.mma` (07 R229, R230). -/
def decSpMma (w : Word64) : Option Op :=
  keepIf (fld w 49 48 != 3 && zf w 47 46 && zf w 44 44 && zf w 42 37 && zf w 26 17 && (fld w 16 0 + 1) % 32 == 0) .spMma

/-- `sp.rd.*` (07 R229, R230). -/
def decSpRd (w : Word64) : Option Op :=
  let fn := fld w 49 46
  keepIf (decide (fn ≤ 2) && fld w 42 41 != 3 && zf w 40 24 && zf w 15 0 && (fn != 0 || fld w 43 43 == 0)) (.spRd fn)

/-- Drover instructions (09 R268, R269). -/
def decDrv (w : Word64) (fill : Bool) : Option Op :=
  keepIf (fld w 49 48 != 3 && zf w 38 0 && (bit w 41 || zf w 40 39) &&
    (if bit w 47 then wExt w == 0 else wExt w == 1 && zf w 46 42)) (.drv fill)

/-- Fields shared by gong updates and waits (09 R286). -/
def gongOk (w : Word64) : Bool :=
  zf w 0 0 && (if wExt w = 1 then bit w 1 || zf w 6 2 else wExt w == 0 && !bit w 1) && (!bit w 1 || zf w 23 7)

/-- Gong updates (09 R286, R287). -/
def decGong (w : Word64) : Option Op :=
  let fn := fld w 49 46
  keepIf (gongOk w && decide (fn ≤ 4) && (!bit w 43 || fld w 45 44 == 3) &&
    (if fn = 3 then !bit w 43 && zf w 42 37 && decide (fld w 36 24 < 4864) else bit w 43 || zf w 42 24)) (.gong fn)

/-- Gong waits (09 R286, R287). -/
def decGwait (w : Word64) : Option Op :=
  keepIf (gongOk w && decide (fld w 49 46 ≤ 1) && zf w 43 24) (.gwait (fld w 49 46 == 1))

/-- Fences (11 R354). -/
def decFence (w : Word64) : Option Op := keepIf (zf w 49 46 && zf w 43 0) (.fence (fld w 45 44))

/-- `ctl.nop` and `ctl.complete` (04 R117; 09 R297). -/
def decCtlClass (w : Word64) : Option Op :=
  if !(zf w 49 44 && zf w 41 38) then none else
  match fld w 37 32 with
  | 0 => keepIf (zf w 43 42 && zf w 31 0 && wExt w == 0) .ctlNop
  | 1 => keepIf (decide (2 ≤ fld w 43 42) && zf w 31 1 && wExt w == 1) .ctlComplete
  | _ => none

/-- `blk.launch` (04 R118, R119). -/
def decLaunch (w : Word64) : Option Op :=
  keepIf (zf w 49 48 && zf w 24 24 && (bit w 27 || zf w 26 25) && decide (fld w 43 36 ≤ 179) &&
    decide (fld w 35 28 ≤ 179) && (bit w 44 || zf w 43 28)) .launch

/-! The vector format (08 R242 to R247). -/

/-- What one vector instruction uses and allows: its types, whether it reads vb and vc, whether `rnd`, `sym` and `fill`
are its fields, and its `imm`. -/
structure VForm where
  tys : List Nat
  vb : Bool
  vc : Bool
  rnd : Bool
  imm : Nat → Bool
  f64 : Nat → List Bool

/-- An `imm` that the instruction does not define. -/
def noImm (i : Nat) : Bool := i == 0

/-- Which of vd, va, vb, vc are register pairs when `ty` is `f64`: all. -/
def pairAll (ty : Nat) : List Bool := let b := ty == 4; [b, b, b, b]

/-- Compares: the sources only. -/
def pairSrc (ty : Nat) : List Bool := let b := ty == 4; [false, b, b, b]

/-- Select and permutations: not vc (select) or not vb (permutations). -/
def pairSel (ty : Nat) : List Bool := let b := ty == 4; [b, b, b, false]

/-- Permutations: the destination and a. -/
def pairPerm (ty : Nat) : List Bool := let b := ty == 4; [b, b, false, false]

/-- The source and destination pairs that `vx.cvt` accepts (06 R206, 08 R255). -/
def cvtPair (src dst : Nat) : Bool :=
  match src with
  | 0 => dst == 5 || dst == 6 || dst == 2 || dst == 3
  | 2 => dst == 0 || dst == 5 || dst == 6 || dst == 3 || dst == 4
  | 3 => dst == 0 || dst == 5 || dst == 6 || dst == 4
  | 4 => dst == 0 || dst == 5 || dst == 6 || dst == 2
  | 5 => dst == 2 || dst == 3
  | 6 => dst == 2 || dst == 3
  | _ => false

/-- Does R206 fix the rounding of a conversion: integer to FP32, FP32 or BF16 to FP64? -/
def cvtFixed (src dst : Nat) : Bool := (dst == 2 && (src == 0 || src == 5 || src == 6)) || dst == 4

/-- The form of a vector instruction, by opcode 0x20 + op and `fn`; none where no table lists it. `src` is the `ty`
field, on which `vx.cvt` depends. -/
def vForm (op fn src : Nat) : Option VForm :=
  match op with
  | 0 => if fn ≤ 0xD then
      some ⟨if fn = 0xD then [0] else [0, 1], fn != 0xD, fn == 4, false, noImm, pairAll⟩ else none
  | 1 => if fn ≤ 7 then some ⟨[2, 3, 4], decide (fn ≤ 5), fn == 3, decide (fn ≤ 5), noImm, pairAll⟩ else none
  | 2 =>
    if fn ≤ 5 then some ⟨[0, 1, 2, 3, 4], true, false, false, noImm, pairSrc⟩
    else if fn = 6 then some ⟨[2, 3, 4], true, false, false, noImm, pairSrc⟩
    else if fn = 8 then some ⟨[0, 4], true, true, false, noImm, pairSel⟩ else none
  | 3 => if fn ≤ 3 then some ⟨[2], false, false, false, noImm, pairAll⟩ else none
  | 4 => if cvtPair src fn then
      some ⟨[src], false, false, !cvtFixed src fn, fun i => i == 0 || (src == 0 && (fn == 5 || fn == 6)),
        fun ty => [fn == 4, ty == 4, false, false]⟩ else none
  | 5 => if fn ≤ 2 then
      some ⟨[0, 2], true, true, true, fun i => i % 4 != 3 && i / 4 % 4 != 3 && decide (i < 16), fun _ => []⟩ else none
  | 6 =>
    if fn = 0 then some ⟨[0, 2, 4], false, false, src != 0, fun i => decide (i ≤ 12), pairPerm⟩
    else if fn ≤ 2 then some ⟨[0, 1, 2, 4], false, false, false, fun i => decide (i ≤ 12), pairPerm⟩ else none
  | 7 => if fn ≤ 7 then some ⟨if fn = 5 ∨ fn = 6 then [0] else [0, 4], decide (fn ≤ 3), false, false, noImm, pairPerm⟩
      else none
  | 8 => if fn ≤ 1 then some ⟨[0], false, false, false, noImm, pairAll⟩ else none
  | _ => none

/-- A source operand code (08 R243). -/
def vSrcOk (code : Nat) : Bool := code != 0xD && code != 0xE

/-- Is a register or accumulator code odd: not the even half of a pair? -/
def vOdd (code : Nat) : Bool := decide (code ≤ 0xB) && code % 2 == 1

/-- The number of 32-bit elements that n packed or plain values of a type occupy (08 R245). -/
def vExtent (ty n : Nat) : Nat := if ty = 5 then ceilDiv n 4 else if ty = 6 then ceilDiv n 8 else n

/-- The extents of vd, va, vb and vc in 32-bit elements (08 R245 and the instructions' tables). -/
def vExtents (op fn ty n imm : Nat) : List Nat :=
  match op with
  | 4 => [vExtent fn n, vExtent ty n, 0, 0]
  | 5 =>
    let ix := fun i => if i = 0 then n else if i = 1 then min n 64 else ceilDiv n 64
    [vExtent (if fn = 0 then 5 else if fn = 1 then 6 else 0) n, n,
      if imm % 4 = 1 then 64 else ix (imm % 4), if imm / 4 % 4 = 1 then 64 else ix (imm / 4 % 4)]
  | 6 => [n / 2 ^ imm, n, 0, 0]
  | 7 => [n, if fn = 5 then ceilDiv n 4 else if fn = 6 then ceilDiv n 8 else n, if fn = 0 then n else 1, 0]
  | _ => [n, n, n, n]

/-- The registers an operand occupies: one, or a pair. Codes above 0xB occupy none. -/
def vRegs (code : Nat) (pair : Bool) : List Nat :=
  if code ≤ 0xB then (if pair then [code, code + 1] else [code]) else []

/-- May a destination window and a source window lie together (08 R246)? `shuffle` marks permutations, transposes and
reductions. -/
def vOverlapOk (shuffle : Bool) (dregs sregs : List Nat) (doff dext soff sext : Nat) : Bool :=
  !(dregs.any fun r => sregs.contains r) || (doff == soff && !shuffle) ||
    decide (doff + dext ≤ soff) || decide (soff + sext ≤ doff)

/-- The operand codes vd, va, vb, vc of a word. -/
def vCodes (w : Word64) : List Nat := [fld w 30 27, fld w 26 23, fld w 22 19, fld w 18 15]

/-- The window and overlap checks (08 R245, R246), given the four offsets. -/
def vWindowsOk (w : Word64) (op : Nat) (f : VForm) (offs : List Nat) : Bool :=
  let ty := fld w 45 43
  let n := fld w 42 31 + 1
  let ext := vExtents op (fld w 49 46) ty n (fld w 4 0)
  let codes := vCodes w
  let pair := f.f64 ty
  let g := fun (l : List Nat) i => listGet 0 l i
  let p := fun i => listGet false pair i
  let used := [true, f.vb, f.vc]
  (upto 4).all (fun i => decide (g codes i > 0xB) || (decide (i ≥ 2) && !listGet false used (i - 1)) ||
      decide (g offs i + g ext i ≤ 4096)) &&
    (upto 3).all fun i => !listGet false used i ||
      vOverlapOk (op == 6 || op == 7) (vRegs (g codes 0) (p 0)) (vRegs (g codes (i + 1)) (p (i + 1)))
        (g offs 0) (g ext 0) (g offs (i + 1)) (g ext (i + 1))

/-- Does a vector instruction read u[`us`]? -/
def vUsesUs (w : Word64) : Bool :=
  let op := wOp w - 0x20
  match vForm op (fld w 49 46) (fld w 45 43) with
  | none => false
  | some f =>
    op == 8 || bit w 5 || bit w 6 || fld w 26 23 == 0xC || (f.vb && fld w 22 19 == 0xC) || (f.vc && fld w 18 15 == 0xC)

/-- Vector loads and stores (08 R260): the register only, no other field. -/
def decVxMem (w : Word64) (fn : Nat) : Option Op :=
  let reg := if fn = 0 then fld w 30 27 else fld w 26 23
  keepIf (decide (fn ≤ 1) && zf w 45 43 && decide (reg ≤ 0xB) && (if fn = 0 then zf w 26 23 else zf w 30 27) &&
    zf w 22 13 && zf w 7 0) (.vx 8 fn)

/-- Vector instructions (08 R242 to R247): the checks that the word alone decides. -/
def decVx (w : Word64) (op : Nat) : Option Op :=
  let fn := fld w 49 46
  let ty := fld w 45 43
  let n := fld w 42 31 + 1
  let rnd := fld w 14 13
  if op = 8 then decVxMem w fn else
  match vForm op fn ty with
  | none => none
  | some f =>
    let codes := vCodes w
    let vb := fld w 22 19
    let vc := fld w 18 15
    let pair := f.f64 ty
    let scalar := fld w 26 23 == 0xC || vb == 0xC || vc == 0xC
    let narrow := (op == 4 && (fn == 5 || fn == 6)) || (op == 5 && decide (fn ≤ 1))
    keepIf (f.tys.contains ty && decide (fld w 30 27 ≤ 0xB) && vSrcOk (fld w 26 23) &&
      (if f.vb then vSrcOk vb else vb == 0) && (if f.vc then vSrcOk vc else vc == 0) &&
      (upto 4).all (fun i => !(listGet false pair i && vOdd (listGet 0 codes i))) &&
      rnd != 3 && (f.rnd || rnd == 0) && (narrow || !bit w 7) && ((op == 7 && decide (fn ≤ 3)) || !bit w 6) &&
      !(scalar && (bit w 5 || bit w 6)) && !(bit w 5 && bit w 6) && f.imm (fld w 4 0) &&
      (vUsesUs w || zf w 12 8) && (op != 5 || vb != 0xF) &&
      (op != 6 || n % 2 ^ fld w 4 0 == 0) && (!(op == 7 && fn == 7) || n == 4096) &&
      (bit w 5 || vWindowsOk w op f [0, 0, 0, 0])) (.vx op fn)

/-- The immediate words an opcode takes when decoding does not itself choose (04 R107, R117). -/
def extOk (op : Nat) (w : Word64) : Bool :=
  match op with
  | 0x08 => decide (wExt w ≤ 1)
  | 0x09 => decide (wExt w ≤ 1)
  | 0x0A => decide (wExt w ≤ 1)
  | 0x0B => wExt w == (if fld w 25 20 = 0xC then 1 else 0)
  | 0x38 => wExt w == 1
  | 0x39 => wExt w == 1
  | 0x3B => wExt w == 1
  | 0x40 => decide (wExt w ≤ 1)
  | 0x41 => decide (wExt w ≤ 1)
  | 0x48 => decide (wExt w ≤ 1)
  | 0x49 => decide (wExt w ≤ 1)
  | 0x50 => decide (wExt w ≤ 1)
  | 0x51 => wExt w == 1
  | 0x53 => wExt w == 3
  | _ => wExt w == 0

/-- The decoding of a body by its major opcode, for threads and streams alike (04 R108). -/
def decBody (op : Nat) (w : Word64) : Option Op :=
  match op with
  | 0x00 => decAluR w
  | 0x01 => decAluI w
  | 0x02 => decMul w
  | 0x03 => decFp w
  | 0x04 => decCmp w false
  | 0x05 => decCmp w true
  | 0x06 => decPlogic w
  | 0x07 => decMove w
  | 0x08 => decMem w 8
  | 0x09 => decMem w 9
  | 0x0A => decMem w 10
  | 0x0B => decUni w
  | 0x0C => decBranch w
  | 0x0D => decCtl w
  | 0x30 => decMma w
  | 0x31 => decMxAcc w
  | 0x38 => decSplit w
  | 0x39 => decSpMma w
  | 0x3A => decAl w
  | 0x3B => decSpRd w
  | 0x40 => decDrv w false
  | 0x41 => decDrv w true
  | 0x48 => decGong w
  | 0x49 => decGwait w
  | 0x4A => keepIf (zf w 49 0) .bar
  | 0x4B => decFence w
  | 0x50 => decCtlClass w
  | 0x51 => keepIf (zf w 49 32) .cfgSet
  | 0x52 => keepIf (zf w 49 0) .cfgFence
  | 0x53 => decLaunch w
  | _ => if 0x20 ≤ op ∧ op ≤ 0x28 then decVx w (op - 0x20) else none

/-- May a thread issue an opcode (04 R108, R110)? -/
def threadOp (op : Nat) : Bool := decide (op < 0x50)

/-- May a stream issue an opcode (04 R108, R111)? -/
def streamOp (op : Nat) : Bool :=
  op == 0x40 || op == 0x41 || op == 0x48 || op == 0x49 || op == 0x4B || (decide (0x50 ≤ op) && decide (op ≤ 0x53))

/-- The decoding of a thread's instruction word; none is ILLEGAL (04 R106, R109, R110). -/
def decodeThread (w : Word64) : Option Op :=
  let op := wOp w
  if threadOp op && extOk op w && (wGuarded w || zf w 55 52) then decBody op w else none

/-- Does a stream allow the form of a decoded word (04 R111; 09 R269, R286)? -/
def streamForm (w : Word64) (o : Op) : Bool :=
  match o with
  | .drv _ => !bit w 47
  | .gong _ => wExt w == 1 && !bit w 1 && decide (2 ≤ fld w 45 44)
  | .gwait _ => wExt w == 1 && !bit w 1 && decide (2 ≤ fld w 45 44)
  | .fence s => decide (2 ≤ s)
  | _ => true

/-- The decoding of a stream's instruction word; none is ILLEGAL (04 R109, R111). -/
def decodeStream (w : Word64) : Option Op :=
  let op := wOp w
  if streamOp op && extOk op w && zf w 56 52 then
    match decBody op w with
    | some o => if streamForm w o then some o else none
    | none => none
  else none

/-- The checks of an instruction's immediate words (04 R117, R119): `imms` are the words that follow. -/
def immOk (o : Op) (imms : List Word64) : Bool :=
  let w0 := imms.headD 0
  match o with
  | .launch => fld w0 2 0 == 0 && zf w0 63 57 && zf (listGet 0 imms 2) 63 17
  | _ => true

end Sys2Proof.Machine
end

