-- ==== Sys2Proof/Config.lean ====
section
/-! DEFINITION. The free values: what the spec leaves open. Each is a constant with no body, so that no proof can see a
value of it; each is named in a row of the assumption log. -/

namespace Sys2Proof.Config

/-- The bits of the quiet NaN that an operation with a quiet NaN operand and no invalid operation gives (the spec
states none): format (exponent bits, fraction bits), operation, operands. Used only below the quiet bit and in the sign
(log entry 9). -/
opaque nanBits (eb fb op a b c : Nat) : Nat

/-- The result of a transcendental function, function code and operand, before the spec's error bound is imposed
(08 R254; log entry 10). -/
opaque transcendental (fn x : Nat) : Nat

/-- Which of several source bytes a shared destination byte keeps (09 R275; log entry 11): draw number, destination
address, number of candidates. -/
opaque sharedByte (draw dst n : Nat) : Nat

/-- The value that a load which is refused with status STATE leaves in its destination (10 R308; log entry 12): draw
number. -/
opaque refusedLoad (draw : Nat) : Nat

/-- What a sector holds after a map-out that read nothing from its channel (10 R334; log entry 18): draw number, line. -/
opaque lostLine (draw line : Nat) : Nat

/-- What a spilled tracking record holds, byte by byte (14 R445: its layout is not given; log entry 22). -/
opaque spillByte (draw i : Nat) : Nat

/-- The last word of a probe record (14 R438; log entry 22). -/
opaque probePad (draw : Nat) : Nat

/-- By how many A-cycles a cadence miss is late, as a trace record shows it (15 R466, 20 R609; log entry 26). -/
opaque lateness (draw : Nat) : Nat

/-- A byte of the boot ROM, by offset (19 R567: what it holds is not given; log entry 27). -/
opaque romByte (off : Nat) : BitVec 8

/-- A byte of the ledger flash as delivered, by offset (19 R569; log entry 27). -/
opaque flashByte (off : Nat) : BitVec 8

/-- A byte of the slot records or of the repair map after so many writes of them (19 R572: generation and tag beside the
records, whose places are not given; log entry 27). -/
opaque recordByte (writes off : Nat) : BitVec 8

/-- The measurement of an image: the first 64 B of SHAKE256 (19 R570; FIPS 202 is not part of the spec; log entry 28). -/
opaque measure (image : List (BitVec 8)) : Nat

/-- The identity public key and the package serial, byte by byte (19 R577, R579; log entry 28). -/
opaque identity (i : Nat) : BitVec 8

/-- The signature of a report by the identity key, byte by byte (19 R581; log entry 28). -/
opaque signature (body : List (BitVec 8)) (i : Nat) : BitVec 8

/-- The node that a package without the slot of a peal names as itself (19 R592 gives it no number; log entry 31). -/
opaque pealNode (draw : Nat) : Nat

/-- By how many root periods a forwarding grant of a strike comes after its ideal time (19 R594; log entry 31). -/
opaque grantDelay (draw : Nat) : Nat

/-- What CNT.D2D_H and D2D_N show: beats on the links are not kept (20 R616; log entry 53): the draw, the register. -/
opaque linkBeats (draw off : Nat) : BitVec 32

/-- How many credits of a host-port level are in use (16 R505; log entry 53): the draw, the register. -/
opaque levelUse (draw off : Nat) : BitVec 11

end Sys2Proof.Config
end

