-- ==== Sys2Proof/Machine/Float.lean ====
section
/-! DEFINITION. Floating-point arithmetic (04 R130, R131; 06 R203 to R206; 08 R252 to R257): exact dyadic values,
rounding to a format under one of the three modes, conversion to integers, comparison, minimum and maximum. -/

namespace Sys2Proof.Machine

/-- A dyadic number m × 2^e. -/
structure Dy where
  m : Int
  e : Int
  deriving DecidableEq, Repr

/-- m × 2^k for a non-negative or negative k, k ≥ 0 assumed where an exact shift is meant. -/
def shlInt (m : Int) (k : Int) : Int := m * ((2 ^ k.toNat : Nat) : Int)

/-- The numerator of a dyadic number over 2^e. -/
def dyAt (x : Dy) (e : Int) : Int := shlInt x.m (x.e - e)

/-- The exact sum. -/
def dyAdd (a b : Dy) : Dy := let e := min a.e b.e; ⟨dyAt a e + dyAt b e, e⟩

/-- The exact product. -/
def dyMul (a b : Dy) : Dy := ⟨a.m * b.m, a.e + b.e⟩

/-- Is a less than or equal to b? -/
def dyLe (a b : Dy) : Bool := let e := min a.e b.e; decide (dyAt a e ≤ dyAt b e)

/-- Is a less than b? -/
def dyLt (a b : Dy) : Bool := !dyLe b a

/-- The sum of a list of dyadic numbers. -/
def dySum (l : List Dy) : Dy := l.foldl dyAdd ⟨0, 0⟩

/-- Rounding modes (06 R203). -/
inductive Rnd where
  | even
  | trunc
  | odd
  deriving DecidableEq, Repr

/-- The mode of a 2-bit `rnd` field (06 R203); 0b11 is refused before it is used. -/
def rndOf (n : Nat) : Rnd := match n with | 0 => .even | 1 => .trunc | _ => .odd

/-- A magnitude divided by 2^k, rounded under a mode (06 R203). -/
def roundShift (mode : Rnd) (m k : Nat) : Nat :=
  let q := m / 2 ^ k
  let r := m % 2 ^ k
  match mode with
  | .trunc => q
  | .odd => if r = 0 then q else q ||| 1
  | .even => if 2 * r < 2 ^ k then q else if 2 ^ k < 2 * r then q + 1 else q + q % 2

/-- A dyadic number rounded to an integer under a mode, on its magnitude (06 R203, R204). -/
def roundInt (mode : Rnd) (x : Dy) : Int :=
  if 0 ≤ x.e then shlInt x.m x.e
  else
    let q : Int := roundShift mode x.m.natAbs (-x.e).toNat
    if x.m < 0 then -q else q

/-- A binary floating-point format: exponent bits and fraction bits. -/
structure FpFmt where
  eb : Nat
  fb : Nat
  deriving DecidableEq, Repr

/-- FP32, IEEE 754 binary32. -/
def f32 : FpFmt := ⟨8, 23⟩
/-- FP64, IEEE 754 binary64. -/
def f64 : FpFmt := ⟨11, 52⟩
/-- BF16, the upper half of binary32 (06 R206). -/
def bf16 : FpFmt := ⟨8, 7⟩

/-- A format's exponent bias. -/
def fpBias (f : FpFmt) : Nat := 2 ^ (f.eb - 1) - 1

/-- A format's largest exponent field. -/
def fpTop (f : FpFmt) : Nat := 2 ^ f.eb - 1

/-- A decoded floating-point value. -/
inductive Fp where
  | nan (signalling : Bool)
  | inf (neg : Bool)
  | fin (neg : Bool) (m : Nat) (e : Int)
  deriving DecidableEq, Repr

/-- Decodes the bits of a format. -/
def fpUnpack (f : FpFmt) (x : Nat) : Fp :=
  let s := x.testBit (f.eb + f.fb)
  let ex := (x / 2 ^ f.fb) % 2 ^ f.eb
  let fr := x % 2 ^ f.fb
  if ex = fpTop f then (if fr = 0 then .inf s else .nan (!fr.testBit (f.fb - 1)))
  else if ex = 0 then .fin s fr (1 - (fpBias f : Int) - f.fb)
  else .fin s (fr + 2 ^ f.fb) ((ex : Int) - fpBias f - f.fb)

/-- The default quiet NaN of a format (04 R131, 07 R227). -/
def fpDefaultNan (f : FpFmt) : Nat := fpTop f * 2 ^ f.fb + 2 ^ (f.fb - 1)

/-- The bits of a signed infinity. -/
def fpInf (f : FpFmt) (neg : Bool) : Nat := b2n neg * 2 ^ (f.eb + f.fb) + fpTop f * 2 ^ f.fb

/-- The bits of the largest finite value of a sign. -/
def fpMax (f : FpFmt) (neg : Bool) : Nat := b2n neg * 2 ^ (f.eb + f.fb) + fpTop f * 2 ^ f.fb - 1

/-- A quiet NaN with free sign and payload (log entry 9). -/
def fpFreeNan (f : FpFmt) (op a b c : Nat) : Nat :=
  let r := Config.nanBits f.eb f.fb op a b c
  b2n (r.testBit (f.eb + f.fb)) * 2 ^ (f.eb + f.fb) + fpDefaultNan f + r % 2 ^ (f.fb - 1)

/-- A rounded result: its bits and whether it overflowed (06 R206). -/
structure Rounded where
  bits : Nat
  ovf : Bool
  deriving DecidableEq, Repr

/-- Rounds a sign and a magnitude m × 2^e once to a format (06 R203, R206): subnormals kept; beyond the largest finite
magnitude, an infinity under half-even and the largest finite value otherwise. -/
def fpRound (f : FpFmt) (mode : Rnd) (neg : Bool) (m : Nat) (e : Int) : Rounded :=
  let sgn := b2n neg * 2 ^ (f.eb + f.fb)
  if m = 0 then ⟨sgn, false⟩
  else
    let top : Int := (Nat.log2 m : Int) + e
    let emin : Int := 1 - (fpBias f : Int)
    let q : Int := max top emin - f.fb
    let mant := if e < q then roundShift mode m (q - e).toNat else m * 2 ^ (e - q).toNat
    let mant' := if 2 ^ (f.fb + 1) ≤ mant then mant / 2 else mant
    let q' : Int := if 2 ^ (f.fb + 1) ≤ mant then q + 1 else q
    if mant' < 2 ^ f.fb then ⟨sgn + mant', false⟩
    else
      let ex : Int := q' + f.fb + fpBias f
      if (fpTop f : Int) ≤ ex then ⟨if mode = .even then fpInf f neg else fpMax f neg, true⟩
      else ⟨sgn + ex.toNat * 2 ^ f.fb + (mant' - 2 ^ f.fb), false⟩

/-- Rounds a dyadic number; an exact zero takes the sign given. -/
def fpRoundDy (f : FpFmt) (mode : Rnd) (x : Dy) (zeroNeg : Bool) : Rounded :=
  if x.m = 0 then ⟨b2n zeroNeg * 2 ^ (f.eb + f.fb), false⟩
  else fpRound f mode (decide (x.m < 0)) x.m.natAbs x.e

/-- A result of an operation: bits and whether the operation was invalid. -/
structure FpRes where
  bits : Nat
  inv : Bool := false
  deriving DecidableEq, Repr

/-- The dyadic value of a finite decoded value. -/
def fpDy (neg : Bool) (m : Nat) (e : Int) : Dy := ⟨if neg then -(m : Int) else m, e⟩

/-- Is a decoded value a NaN? -/
def Fp.isNan : Fp → Bool
  | .nan _ => true
  | _ => false

/-- Is a decoded value a signalling NaN? -/
def Fp.isSnan : Fp → Bool
  | .nan s => s
  | _ => false

/-- The sign of a decoded value; false for a NaN. -/
def Fp.neg : Fp → Bool
  | .nan _ => false
  | .inf s => s
  | .fin s _ _ => s

/-- A value with its sign turned. -/
def Fp.negate : Fp → Fp
  | .nan s => .nan s
  | .inf s => .inf (!s)
  | .fin s m e => .fin (!s) m e

/-- The product as an exact decoded value; none for 0 × ∞. NaNs are handled before. -/
def fpMulVal : Fp → Fp → Option Fp
  | .inf s, .inf t => some (.inf (s != t))
  | .inf s, .fin t m _ => if m = 0 then none else some (.inf (s != t))
  | .fin s m _, .inf t => if m = 0 then none else some (.inf (s != t))
  | .fin s m e, .fin t n g => some (.fin (s != t) (m * n) (e + g))
  | a, _ => some a

/-- The sum of two values, rounded once; opposite infinities are invalid. NaNs are handled before. -/
def fpAddVal (f : FpFmt) (mode : Rnd) : Fp → Fp → FpRes
  | .inf s, .inf t => if s = t then ⟨fpInf f s, false⟩ else ⟨fpDefaultNan f, true⟩
  | .inf s, _ => ⟨fpInf f s, false⟩
  | _, .inf t => ⟨fpInf f t, false⟩
  | .fin s m e, .fin t n g =>
    ⟨(fpRoundDy f mode (dyAdd (fpDy s m e) (fpDy t n g)) (s && t && m == 0 && n == 0)).bits, false⟩
  | _, _ => ⟨fpDefaultNan f, false⟩

/-- The result where an operand is a NaN (04 R131): a signalling one is invalid, a quiet one gives a quiet NaN whose
sign and payload are free. -/
def fpNanRes (f : FpFmt) (op : Nat) (sig : Bool) (a b c : Nat) : FpRes :=
  if sig then ⟨fpDefaultNan f, true⟩ else ⟨fpFreeNan f op a b c, false⟩

/-- a + b (04 R130, 08 R252). -/
def fpAdd (f : FpFmt) (mode : Rnd) (a b : Nat) : FpRes :=
  let x := fpUnpack f a
  let y := fpUnpack f b
  if x.isNan || y.isNan then fpNanRes f 0 (x.isSnan || y.isSnan) a b 0 else fpAddVal f mode x y

/-- a − b. -/
def fpSub (f : FpFmt) (mode : Rnd) (a b : Nat) : FpRes :=
  let x := fpUnpack f a
  let y := fpUnpack f b
  if x.isNan || y.isNan then fpNanRes f 1 (x.isSnan || y.isSnan) a b 0 else fpAddVal f mode x y.negate

/-- A decoded value rounded to a format. -/
def fpPackVal (f : FpFmt) (mode : Rnd) : Fp → Nat
  | .nan _ => fpDefaultNan f
  | .inf s => fpInf f s
  | .fin s m e => (fpRound f mode s m e).bits

/-- a × b. -/
def fpMul (f : FpFmt) (mode : Rnd) (a b : Nat) : FpRes :=
  let x := fpUnpack f a
  let y := fpUnpack f b
  if x.isNan || y.isNan then fpNanRes f 2 (x.isSnan || y.isSnan) a b 0
  else match fpMulVal x y with
    | none => ⟨fpDefaultNan f, true⟩
    | some v => ⟨fpPackVal f mode v, false⟩

/-- a × b + c with one rounding; 0 × ∞ is invalid whatever the addend (04 R131, 08 R252). -/
def fpFma (f : FpFmt) (mode : Rnd) (a b c : Nat) : FpRes :=
  let x := fpUnpack f a
  let y := fpUnpack f b
  let z := fpUnpack f c
  let zeroInf := !x.isNan && !y.isNan && (fpMulVal x y).isNone
  if x.isSnan || y.isSnan || z.isSnan || zeroInf then ⟨fpDefaultNan f, true⟩
  else if x.isNan || y.isNan || z.isNan then fpNanRes f 3 false a b c
  else match fpMulVal x y with
    | none => ⟨fpDefaultNan f, true⟩
    | some v => fpAddVal f mode v z

/-- The order of two values that are not NaN: is a below b, with −0 below +0 where `zeros` is true? -/
def fpLtVal (zeros : Bool) : Fp → Fp → Bool
  | .inf s, .inf t => s && !t
  | .inf s, _ => s
  | _, .inf t => !t
  | .fin s m e, .fin t n g =>
    dyLt (fpDy s m e) (fpDy t n g) || (zeros && m == 0 && n == 0 && s && !t)
  | _, _ => false

/-- Minimum or maximum (04 R131, 08 R252): one NaN yields the other operand, two are invalid, a signalling NaN is
invalid, −0 is less than +0. -/
def fpMinMax (f : FpFmt) (max : Bool) (a b : Nat) : FpRes :=
  let x := fpUnpack f a
  let y := fpUnpack f b
  if x.isNan && y.isNan then ⟨fpDefaultNan f, true⟩
  else if x.isNan then ⟨b, x.isSnan⟩
  else if y.isNan then ⟨a, y.isSnan⟩
  else if max then ⟨if fpLtVal true x y then b else a, false⟩
  else ⟨if fpLtVal true y x then b else a, false⟩

/-- Comparison codes of floating-point values (04 R132, 08 R253). -/
inductive FpCmp where
  | eq
  | ne
  | lt
  | le
  | gt
  | ge
  | un
  deriving DecidableEq, Repr

/-- A floating-point compare and whether it is invalid (a signalling NaN). Zeros of either sign are equal. -/
def fpCompare (f : FpFmt) (k : FpCmp) (a b : Nat) : Bool × Bool :=
  let x := fpUnpack f a
  let y := fpUnpack f b
  let un := x.isNan || y.isNan
  let lt := !un && fpLtVal false x y
  let gt := !un && fpLtVal false y x
  let r := match k with
    | .eq => !un && !lt && !gt
    | .ne => un || lt || gt
    | .lt => lt
    | .le => !un && !gt
    | .gt => gt
    | .ge => !un && !lt
    | .un => un
  (r, x.isSnan || y.isSnan)

/-- A conversion to an integer: the value, and whether SAT or INVALID is set (06 R204). -/
structure IntRes where
  v : Int
  sat : Bool := false
  inv : Bool := false
  deriving DecidableEq, Repr

/-- An integer held to a range (06 R204). -/
def clampInt (lo hi v : Int) : IntRes :=
  if v < lo then ⟨lo, true, false⟩ else if hi < v then ⟨hi, true, false⟩ else ⟨v, false, false⟩

/-- A dyadic number converted to an integer in a range (06 R204). -/
def dyToInt (mode : Rnd) (lo hi : Int) (x : Dy) : IntRes := clampInt lo hi (roundInt mode x)

/-- A floating-point value converted to an integer in a range (06 R204): a NaN gives 0 and INVALID, an infinity the
extreme of its sign. -/
def fpToInt (f : FpFmt) (mode : Rnd) (lo hi : Int) (a : Nat) : IntRes :=
  match fpUnpack f a with
  | .nan _ => ⟨0, false, true⟩
  | .inf s => ⟨if s then lo else hi, true, false⟩
  | .fin s m e => dyToInt mode lo hi (fpDy s m e)

/-- An integer converted to a format; 0 gives +0.0 (06 R206). -/
def intToFp (f : FpFmt) (mode : Rnd) (v : Int) : Nat := (fpRoundDy f mode ⟨v, 0⟩ false).bits

/-- A conversion between floating-point formats: bits, INVALID, OVF (06 R206). -/
structure CvtRes where
  bits : Nat
  inv : Bool := false
  ovf : Bool := false
  deriving DecidableEq, Repr

/-- A conversion between formats (06 R206): a narrowing one gives the default quiet NaN for any NaN, and a signalling one is
invalid; in a widening one a NaN stays a NaN, quieted, with free sign and payload (log entry 9), and sets nothing. -/
def fpToFp (f g : FpFmt) (mode : Rnd) (a : Nat) : CvtRes :=
  match fpUnpack f a with
  | .nan s =>
    if f.fb < g.fb then ⟨fpFreeNan g 8 a 0 0, false, false⟩
    else ⟨fpDefaultNan g, s, false⟩
  | .inf s => ⟨fpInf g s, false, false⟩
  | .fin s m e => let r := fpRound g mode s m e; ⟨r.bits, false, r.ovf⟩

/-- The weight of the last place of a finite result. -/
def fpUlp (f : FpFmt) (bits : Nat) : Dy :=
  match fpUnpack f bits with
  | .fin _ m e => ⟨1, if m = 0 then e else max ((Nat.log2 m : Int) + e) (1 - (fpBias f : Int)) - f.fb⟩
  | _ => ⟨1, 0⟩

/-- Is 2^x at most y, for a dyadic x and a positive dyadic y? Both sides are raised to the power 2^k that clears the
fraction of x. -/
def pow2Le (x y : Dy) : Bool :=
  let k := (-x.e).toNat
  let n := shlInt x.m x.e
  let p : Nat := 2 ^ k
  let n := if 0 ≤ x.e then n else x.m
  -- 2^n ≤ (y.m × 2^y.e)^p
  let l : Int := n - y.e * (p : Int)
  if l < 0 then decide (1 ≤ (y.m.toNat ^ p) * 2 ^ (-l).toNat) else decide (2 ^ l.toNat ≤ y.m.toNat ^ p)

/-- Is y at most 2^x? -/
def le2Pow (y x : Dy) : Bool :=
  let k := (-x.e).toNat
  let p : Nat := 2 ^ k
  let n := if 0 ≤ x.e then shlInt x.m x.e else x.m
  let l : Int := n - y.e * (p : Int)
  if l < 0 then decide ((y.m.toNat ^ p) * 2 ^ (-l).toNat ≤ 1) else decide (y.m.toNat ^ p ≤ 2 ^ l.toNat)

/-- a − b of dyadic numbers. -/
def dySub (a b : Dy) : Dy := dyAdd a ⟨-b.m, b.e⟩

/-- The error bound of a transcendental instruction (08 R254): function code 0 exp2, 1 log2, 2 rcp, 3 rsqrt, for a
finite operand x whose value is ordinary, and a candidate result. -/
def transOk (fn x y : Nat) : Bool :=
  match fpUnpack f32 x, fpUnpack f32 y with
  | .fin sx mx ex, .fin sy my ey =>
    let vx := fpDy sx mx ex
    let vy := fpDy sy my ey
    let u := fpUlp f32 y
    match fn with
    | 0 =>
      let u2 : Dy := ⟨2, u.e⟩
      let lo := dySub vy u2
      !sy && (decide (lo.m ≤ 0) || le2Pow lo vx) && pow2Le vx (dyAdd vy u2)
    | 1 =>
      let one : Dy := ⟨1, -1⟩
      let b : Dy := if dyLe one vx && dyLe vx ⟨2, 0⟩ then ⟨1, -22⟩ else ⟨2, u.e⟩
      pow2Le (dySub vy b) vx && le2Pow vx (dyAdd vy b)
    | 2 =>
      let ax : Dy := ⟨mx, ex⟩
      let ay : Dy := ⟨my, ey⟩
      sx == sy && dyLe (dyMul (dySub ay u) ax) ⟨1, 0⟩ && dyLe ⟨1, 0⟩ (dyMul (dyAdd ay u) ax)
    | _ =>
      let lo := dySub vy u
      let hi := dyAdd vy u
      !sy && (decide (lo.m ≤ 0) || dyLe (dyMul (dyMul lo lo) vx) ⟨1, 0⟩) && dyLe ⟨1, 0⟩ (dyMul (dyMul hi hi) vx)
  | .fin sx mx ex, .inf sy =>
    -- an overflow (08 R254): exp2 beyond the largest finite value, rcp of a subnormal beyond its reciprocal
    let mid : Dy := ⟨0x1FFFFFF, 103⟩
    match fn with
    | 0 => !sy && !pow2Le (fpDy sx mx ex) mid
    | 2 => sx == sy && dyLe (dyMul mid ⟨mx, ex⟩) ⟨1, 0⟩
    | _ => false
  | _, _ => false

/-- The free result of a transcendental instruction on an ordinary operand, held to the error bound: the free value
where it meets the bound, else the first pattern that does (log entry 10). -/
def transFree (fn x : Nat) : Nat :=
  let y := Config.transcendental fn x % 2 ^ 32
  if transOk fn x y then y else ((upto (2 ^ 32)).find? (transOk fn x)).getD y

/-- A transcendental instruction (08 R254): exp2 of 128 and above overflows. -/
def transRes (fn x : Nat) : FpRes :=
  match fpUnpack f32 x with
  | .nan s => ⟨fpDefaultNan f32, s⟩
  | .inf s =>
    match fn with
    | 0 => ⟨if s then 0 else fpInf f32 false, false⟩
    | 1 => if s then ⟨fpDefaultNan f32, true⟩ else ⟨fpInf f32 false, false⟩
    | 2 => ⟨b2n s * 2 ^ 31, false⟩
    | _ => if s then ⟨fpDefaultNan f32, true⟩ else ⟨0, false⟩
  | .fin s m e =>
    match fn with
    | 0 => ⟨if dyLe ⟨128, 0⟩ (fpDy s m e) then fpInf f32 false else transFree 0 x, false⟩
    | 1 => if m = 0 then ⟨fpInf f32 true, false⟩ else if s then ⟨fpDefaultNan f32, true⟩ else ⟨transFree 1 x, false⟩
    | 2 => if m = 0 then ⟨fpInf f32 s, false⟩ else ⟨transFree 2 x, false⟩
    | _ => if m = 0 then ⟨fpInf f32 s, false⟩ else if s then ⟨fpDefaultNan f32, true⟩ else ⟨transFree 3 x, false⟩

end Sys2Proof.Machine
end

