-- ==== Sys2Proof/Machine/Operands.lean ====
section
/-! DEFINITION. Operand forms of thread instructions (04 R112 to R115, R136): second operands, register pairs, guards,
addresses, the parts of an access, the words that follow an instruction. -/

namespace Sys2Proof.Machine

open Parts

/-- An instruction that a path is issuing: where, the tile, group and path as the issue leaves them, the block, the
word index, the word, its immediate words and its decoding. -/
structure Ctx where
  c : Nat
  t : Nat
  slot : Nat
  x : Tile
  g : Group
  p : Path
  b : Block
  pc : Nat
  w : Word64
  imms : List Word64
  op : Op

/-- The device virtual address of a word of a block's program (04 R121). -/
def wordVa (b : Block) (pc : Nat) : Nat := (b.prog + 8 * pc) % vaMod

/-- What the instruction cache gives for a word: nothing, the status of its line's failed fetch, or the word. -/
inductive Fetched where
  | missing
  | bad (st va : Nat)
  | word (w : Word64)
  deriving DecidableEq, Repr

/-- Word i of a line. -/
def lineWord (x : Line) (i : Nat) : Word64 := BitVec.ofNat 64 (x.toNat >>> (64 * i))

/-- A word of a block's program in its tile's instruction cache (04 R121, R633). -/
def fetched (x : Tile) (b : Block) (pc : Nat) : Fetched :=
  let va := wordVa b pc
  match x.icache.find? fun l => l.space == b.space && l.va == va / 64 * 64 with
  | none => .missing
  | some l => if l.cause != 0 then .bad l.cause va else .word (lineWord l.data (va % 64 / 8))

/-- The immediate words of an instruction: some words, or why there are none (04 R107, R633). -/
def fetchImms (x : Tile) (b : Block) (pc : Nat) : Nat → List Word64 × Fetched
  | 0 => ([], .word 0)
  | n + 1 =>
    match fetchImms x b pc n with
    | (ws, .word _) =>
      match fetched x b (pc + n + 1) with
      | .word w => (ws ++ [w], .word 0)
      | r => (ws, r)
    | r => r

/-- The word indexes wrap with the device virtual address (04 R121). -/
def pcMod : Nat := 2 ^ 54

/-- The guard of an instruction in a thread (04 R106). -/
def guardOk (w : Word64) (t : Thread) : Bool := !wGuarded w || bit t.p (wPred w) != wNeg w

/-- Is the guard's predicate poisoned (04 R152)? -/
def guardPoison (w : Word64) (t : Thread) : Bool := wGuarded w && bit t.pp (wPred w)

/-- A second operand and its poison. -/
def srcVal (t : Thread) : Src → Word32 × Bool
  | .reg n => (treg t n, tpoison t n)
  | .imm v => (v, false)
  | .none => (0, false)

/-- The 64-bit value of a register pair. -/
def pairVal (t : Thread) (n : Nat) : Word64 := (treg t (n + 1) ++ treg t n).setWidth 64

/-- Is either register of a pair poisoned? -/
def pairPoison (t : Thread) (n : Nat) : Bool := tpoison t n || tpoison t (n + 1)

/-- A value of 4 or 8 bytes from a register or a pair, by size code. -/
def dataVal (t : Thread) (sz n : Nat) : Word64 := if sz = 3 then pairVal t n else (treg t n).setWidth 64

/-- The poison of that value. -/
def dataPoison (t : Thread) (sz n : Nat) : Bool := if sz = 3 then pairPoison t n else tpoison t n

/-- Writes values with their poison to registers from tn on, by `put`. -/
def putRegs (put : Thread → Nat → Word32 → Bool → Thread) (t : Thread) (n : Nat) (vs : List (Word32 × Bool)) : Thread :=
  (enumFrom n vs).foldl (fun t e => put t e.1 e.2.1 e.2.2) t

/-- A value of a size code as registers, each with a poison bit: one register, or a pair. -/
def dataRegs (sz : Nat) (v : Word64) (p : Bool) : List (Word32 × Bool) :=
  if sz = 3 then [(v.setWidth 32, p), ((v >>> 32).setWidth 32, p)] else [(v.setWidth 32, p)]

/-- The bytes of a size code (04 R114). -/
def szBytes (sz : Nat) : Nat := 2 ^ sz

/-- The signed offset of a memory instruction: the immediate word with `ext` 1, else `imm` (04 R114). -/
def memOffset (m : MemOp) (imms : List Word64) : Int :=
  match imms with
  | w :: _ => sextNat 64 w.toNat
  | [] => sextNat 12 m.imm

/-- The byte offset of a local access (04 R136): the offset register taken as unsigned and shifted, plus the signed
offset. -/
def localAddr (m : MemOp) (imms : List Word64) (t : Thread) : Int :=
  ((treg t m.ra).toNat * 2 ^ m.scale : Nat) + memOffset m imms

/-- Does a local access of n bytes lie in the tile's memory (04 R136)? -/
def localOk (a : Int) (n : Nat) : Bool := decide (0 ≤ a) && decide (a + n ≤ tileBytes)

/-- The 57-bit device virtual address of a global access (04 R136). -/
def globalAddr (m : MemOp) (imms : List Word64) (g : Group) (t : Thread) : Nat :=
  wrapInt 57 ((ureg g m.ub).toNat + sextNat 32 (treg t m.ra).toNat * ((2 ^ m.scale : Nat) : Int) + memOffset m imms)

/-- Is an address register of the access poisoned (04 R152)? -/
def addrPoison (m : MemOp) (g : Group) (t : Thread) : Bool := tpoison t m.ra || (m.glob && upoison g m.ub)

/-- The accesses that a load or store is performed as (04 R137): one, or two where it is not naturally aligned, cut at the
multiple of its size that lies in it (log entry 65). Neither crosses a line. -/
def splitVa (va n : Nat) : List (Nat × Nat) :=
  let room := n - va % n
  if va % n = 0 then [(va, n)] else [(va, room), ((va + room) % vaMod, n - room)]

/-- The thread registers that a second operand reads. -/
def srcRegs : Src → List Nat
  | .reg n => [n]
  | .imm _ => []
  | .none => []

/-- The registers of a size code. -/
def szRegs (sz n : Nat) : List Nat := if sz = 3 then [n, n + 1] else [n]

/-- The thread registers that an instruction reads in the threads of its path (04 R122). -/
def opRegs : Op → List Nat
  | .alu fn _ ra b => if fn = 0xF then [] else ra :: srcRegs b
  | .mul fn _ ra rb rc => [ra, rb] ++ (if fn = 3 then [rc] else [])
  | .fp fn _ ra rb rc => [ra, rb] ++ (if fn = 3 then [rc] else [])
  | .cvt _ _ ra _ => [ra]
  | .cmp _ _ ra b => ra :: srcRegs b
  | .mov _ ra => [ra]
  | .sel _ ra rb _ => [ra, rb]
  | .shfl _ _ rb => [rb]
  | .branch kind ra _ _ => if kind = 2 then [ra] else []
  | .ld m => [m.ra]
  | .st m => m.ra :: szRegs m.sz m.rd
  | .atom m => m.ra :: (szRegs m.sz m.rb ++ if m.aop = 9 then szRegs m.sz m.rd else [])
  | _ => []

/-- Has a thread of some lanes a write to one of some registers outstanding? -/
def regsBusy (g : Group) (lanes : BitVec 32) (rs : List Nat) : Bool :=
  (laneList lanes).any fun l => (threadAt g l).late.any fun e => rs.contains e.1

/-- Does an instruction access memory or a gong, so that an earlier acquire must have returned first (11 R350)? -/
def accesses : Op → Bool
  | .ld _ => true
  | .st _ => true
  | .atom _ => true
  | .gong _ => true
  | .gwait _ => true
  | _ => false

/-- Is an acquiring access of some lanes outstanding (11 R350)? -/
def acqPending (x : Tile) (slot : Nat) (lanes : BitVec 32) : Bool :=
  x.out.any fun o => o.slot == slot && o.lanes &&& lanes != 0 && o.acq

/-- Is any access of some lanes outstanding? -/
def outPending (x : Tile) (slot : Nat) (lanes : BitVec 32) : Bool :=
  x.out.any fun o => o.slot == slot && o.lanes &&& lanes != 0

end Sys2Proof.Machine
end

