-- ==== Sys2Proof/Machine/Issue.lean ====
section
/-! DEFINITION. Issue of an instruction by a path (04 R106, R109, R122 to R127, R151 to R154) and the tile exception
summary (06 R208 to R213). -/

namespace Sys2Proof.Machine

open Parts

/-- May a block's paths issue: not faulted, and the tile clocked (04 R124, R153; 17 R512, R529)? -/
def mayIssue (d : Dev) (c : Nat) (x : Tile) (b : Block) : Bool := dieRuns d c && !b.faulted && !x.gated && !x.retention

/-- The paths of a group after one path has issued: it leaves the sets that yielding paths wait for (04 R125). -/
def yieldIssued (lanes : BitVec 32) (q : Path) : Path :=
  match q.st with
  | .yielded u =>
    let u := u &&& ~~~ lanes
    { q with st := if u = 0 then .ready else .yielded u }
  | _ => q

/-- The tile once a path has issued an instruction of n words: the path's program counter is past it. -/
def issuedTile (x : Tile) (slot : Nat) (g : Group) (p : Path) (n : Nat) : Tile :=
  let q := { p with pc := (p.pc + n) % pcMod }
  let others := (g.paths.filter (· != p)).map (yieldIssued p.lanes)
  { setGroup x slot { g with paths := q :: others } with ord := x.ord + 1 }

/-- Brings the group of a slot to rest (04 R144, R145). -/
def settleSlot (d : Dev) (c t slot : Nat) : Dev :=
  let x := tileOf d c t
  match groupAt x slot with
  | none => d
  | some g => setTile d c t (setGroup x slot (settleGroup g))

/-- Are the registers that an instruction reads on a path free of outstanding writes (04 R122, R134), and the accesses it must
follow returned (11 R350; log entry 51)? -/
def opReady (x : Tile) (g : Group) (slot : Nat) (p : Path) (op : Op) : Bool :=
  !regsBusy g p.lanes (opRegs op) && (!accesses op || !acqPending x slot p.lanes) &&
    (match op with
      | .shfl _ ra _ => !regsBusy g (BitVec.allOnes 32) [ra]
      | .umovt _ _ ra => !regsBusy g (laneMask (· == leader p)) [ra]
      | _ => true)

/-- Is a path one that may issue the word at its program counter: not held, and the word an instruction whose registers are free,
or none (04 R122)? -/
def mayStart (x : Tile) (g : Group) (slot : Nat) (w : Word64) (p : Path) : Bool :=
  p.st == .ready && (match decodeThread w with
    | some op => opReady x g slot p op
    | none => true)

/-- A path merged with every path of its group that may issue with it: the same program counter and join stack (04 R145). -/
def joinedPath (g : Group) (ok : Path → Bool) (p : Path) : Path :=
  { p with lanes := (g.paths.filter fun q => q.pc == p.pc && q.join == p.join && ok q).foldl (fun m q => m ||| q.lanes) p.lanes }

/-- A group with a path in place of those that have merged into it. -/
def joinedGroup (g : Group) (p : Path) : Group := { g with paths := p :: g.paths.filter fun q => q.lanes &&& p.lanes == 0 }

/-- The group and a path of it as the path issues a word, merged with the paths that may issue with it; none where it may not
(04 R122, R145). -/
def issuingPath (x : Tile) (g : Group) (slot : Nat) (w : Word64) (p : Path) : Option (Group × Path) :=
  if mayStart x g slot w p then
    let q := joinedPath g (mayStart x g slot w) p
    some (joinedGroup g q, q)
  else none

/-- A path issues the instruction at its program counter, where it is one that `sel` takes and is ready; `f` gives its
effect, or none where a unit or a translation does not accept it yet. -/
def issueThread (r : PathRef) (sel : Op → Bool) (d : Dev) (f : Dev → Ctx → Option Dev) : Dev :=
  let x := tileOf d r.cd r.tile
  match groupAt x r.slot with
  | none => d
  | some g =>
    match pathOf g r.lane, blockOf x g.blk with
    | some p, some b =>
      if !mayIssue d r.cd x b then d else
      match fetched x b p.pc with
      | .word w =>
        match decodeThread w, issuingPath x g r.slot w p with
        | some op, some (g, p) =>
          if !sel op then d else
          match fetchImms x b p.pc (wExt w) with
          | (_, .missing) => d
          | (_, .bad st va) => blockFault d r.cd r.tile b.id r.slot (leader p) p.pc st (some va)
          | (imms, .word _) =>
            if !immOk op imms then d else
            let y := issuedTile x r.slot g p (1 + wExt w)
            match groupAt y r.slot with
            | none => d
            | some h =>
              match pathOf h (leader p) with
              | none => d
              | some q =>
                match f (setTile d r.cd r.tile y) ⟨r.cd, r.tile, r.slot, y, h, q, b, p.pc, w, imms, op⟩ with
                | none => d
                | some e => settleSlot e r.cd r.tile r.slot
        | _, _ => d
      | _ => d
    | _, _ => d

/-- A path meets a word that is no instruction, or whose line was not fetched: the block faults (04 R109, R110, R633). -/
def issueBad (r : PathRef) (d : Dev) : Dev :=
  let x := tileOf d r.cd r.tile
  match groupAt x r.slot with
  | none => d
  | some g =>
    match pathOf g r.lane, blockOf x g.blk with
    | some p, some b =>
      let fault := fun (p : Path) st va => blockFault d r.cd r.tile b.id r.slot (leader p) p.pc st va
      if !mayIssue d r.cd x b then d else
      match fetched x b p.pc with
      | .missing => d
      | .bad st va => if p.st == .ready then fault (joinedPath g (·.st == .ready) p) st (some va) else d
      | .word w =>
        match decodeThread w, issuingPath x g r.slot w p with
        | none, some (_, p) => fault p stIllegal none
        | some op, some (_, p) =>
          match fetchImms x b p.pc (wExt w) with
          | (imms, .word _) => if immOk op imms then d else fault p stIllegal none
          | _ => d
        | _, none => d
    | _, _ => d

/-- A fault of the issuing instruction in a lane. -/
def faultAt (d : Dev) (k : Ctx) (lane st : Nat) (va : Option Nat) : Dev :=
  blockFault d k.c k.t k.b.id k.slot lane k.pc st va

/-- Changes the group of the issuing path. -/
def updGroup (d : Dev) (k : Ctx) (f : Group → Group) : Dev :=
  let x := tileOf d k.c k.t
  match groupAt x k.slot with
  | none => d
  | some g => setTile d k.c k.t (setGroup x k.slot (f g))

/-- Changes the issuing path. -/
def updPath (d : Dev) (k : Ctx) (f : Path → Path) : Dev :=
  updGroup d k fun g => { g with paths := g.paths.map fun q => if q.lanes = k.p.lanes then f q else q }

/-- The lanes of the path whose guard holds, or the lane whose guard is poisoned (04 R106, R152). -/
def guarded (k : Ctx) : Nat ⊕ List Nat :=
  let ls := laneList k.p.lanes
  match ls.find? fun l => guardPoison k.w (threadAt k.g l) with
  | some l => .inl l
  | none => .inr (ls.filter fun l => guardOk k.w (threadAt k.g l))

/-- The lanes of the path below one whose guard holds. -/
def goodLanes (k : Ctx) (l : Nat) : List Nat :=
  (laneList k.p.lanes).filter fun i => decide (i < l) && guardOk k.w (threadAt k.g i)

/-- The lowest lane in which an instruction faults before it acts, with status and address (04 R152, R154): its guard is poisoned,
or it executes and `bad` gives a fault. -/
def lowFault (k : Ctx) (bad : Nat → Option (Nat × Option Nat)) : Option (Nat × Nat × Option Nat) :=
  (laneList k.p.lanes).findSome? fun l =>
    let t := threadAt k.g l
    if guardPoison k.w t then some (l, stPoison, none)
    else if guardOk k.w t then (bad l).map fun e => (l, e.1, e.2)
    else none

/-- Issue of an instruction that acts in each thread whose guard holds. -/
def issueLanes (r : PathRef) (sel : Op → Bool) (d : Dev) (f : Dev → Ctx → List Nat → Option Dev) : Dev :=
  issueThread r sel d fun d k =>
    match guarded k with
    | .inl l => some (faultAt d k l stPoison none)
    | .inr ls => f d k ls

/-- Issue of an instruction whose guard the leader alone decides (04 R126, R127). -/
def issueLeader (r : PathRef) (sel : Op → Bool) (d : Dev) (f : Dev → Ctx → Thread → Option Dev) : Dev :=
  issueThread r sel d fun d k =>
    let t := threadAt k.g (leader k.p)
    if guardPoison k.w t then some (faultAt d k (leader k.p) stPoison none)
    else if guardOk k.w t then f d k t
    else some d

/-! The tile exception summary. -/

/-- A register of a tile's exception summary. -/
def xsOff (c t reg : Nat) : Nat := regOff c 0x0A t reg

/-- Sets the summary flags of a status (06 R208, R211). -/
def xsFlags (d : Dev) (c t st : Nat) : Dev :=
  let f := xsOff c t 0
  let d := flagIf (stHas st stInvalid) d f 0
  let d := flagIf (stHas st stSat) d f 1
  let d := flagIf (stHas st stOvf) d f 2
  flagIf (stHas st stIdx) d f 3

/-- Records an INVALID event while `f_invalid` is 0 (06 R210, R212). -/
def recordInv (d : Dev) (c t element unit queue pc : Nat) : Dev :=
  if flag d (xsOff c t 0) 0 then d
  else
    let d := setReg d (xsOff c t 1) (BitVec.ofNat 32 (element + unit * 2 ^ 12 + queue * 2 ^ 16))
    setReg d (xsOff c t 2) (BitVec.ofNat 32 pc)

/-- Counts saturated values (06 R205, R213). -/
def countSat (d : Dev) (c t n : Nat) : Dev := if n = 0 then d else addCtr d (xsOff c t 3) n

/-- ORs status bits into the status of a tile's block (04 R151). -/
def raiseStatus (d : Dev) (c t blk st : Nat) : Dev :=
  if st = 0 then d else setTile d c t (blockStatus (tileOf d c t) blk st)

/-- What one thread of an instruction raises: block status, summary flags once per thread, saturations, and the record
of an INVALID (06 R205, R208, R210). -/
def threadStatus (d : Dev) (c t slot blk lane pc st : Nat) : Dev :=
  if st = 0 then d else
  let x := tileOf d c t
  let index := match groupAt x slot with
    | some g => 32 * g.index + lane
    | none => lane
  let queue := match blockOf x blk with
    | some b => b.queue
    | none => 0
  let d := raiseStatus d c t blk st
  let d := if stHas st stInvalid then recordInv d c t index 1 queue pc else d
  countSat (xsFlags d c t st) c t (b2n (stHas st stSat))

/-- The statuses of the threads of an instruction, lowest lane first, and the trap of an INVALID (06 R209). -/
def laneStatus (d : Dev) (k : Ctx) (sts : List (Nat × Nat)) : Dev :=
  let d := sts.foldl (fun d e => threadStatus d k.c k.t k.slot k.b.id e.1 k.pc e.2) d
  match sts.find? fun e => stHas e.2 stInvalid with
  | some e => if k.b.trap then faultAt d k e.1 stInvalid none else d
  | none => d

/-- Changes each of some threads, each from its own state before. -/
def setLanes (g : Group) (ls : List Nat) (f : Nat → Thread → Thread) : Group :=
  ls.foldl (fun h l => setThread h l (f l (threadAt g l))) g

/-- An instruction that changes each thread whose guard holds and raises no status. -/
def perLane (r : PathRef) (sel : Op → Bool) (d : Dev) (f : Ctx → Nat → Thread → Thread) : Dev :=
  issueLanes r sel d fun d k ls => some (updGroup d k fun g => setLanes g ls (f k))

/-- An instruction that changes each thread whose guard holds and may raise a status in it. A poisoned guard faults unless a lower
lane traps (04 R154; 06 R209). -/
def perLaneStatus (r : PathRef) (sel : Op → Bool) (d : Dev) (f : Ctx → Thread → Thread × Nat) : Dev :=
  issueThread r sel d fun d k =>
    let sts := fun ls => (ls.map fun l => (l, (f k (threadAt k.g l)).2) : List (Nat × Nat))
    match guarded k with
    | .inl l => some (faultAt (laneStatus d k (sts (goodLanes k l))) k l stPoison none)
    | .inr ls => some (laneStatus (updGroup d k fun g => setLanes g ls fun _ t => (f k t).1) k (sts ls))

end Sys2Proof.Machine
end

