-- ==== Sys2Proof/Machine/Ops.lean ====
section
/-! DEFINITION. How a command acts: on the package, and on nothing of the queue of commands. -/

namespace Sys2Proof.Machine

/-- The outcome of a command whose effect on the package is f. -/
def act (s : State) (f : Dev → Dev) : Out := .next { s with dev := f s.dev }

end Sys2Proof.Machine
end

