-- ==== Sys2Proof/Machine/ThreadCtl.lean ====
section
/-! DEFINITION. Thread control, the block barrier, thread fences and releases (04 R125, R135, R144 to R148; 11 R350, R355). -/

namespace Sys2Proof.Machine

open Parts

/-- The tile after the barrier of a block has been looked at: when every thread of the block that has not exited waits
there, all are released (04 R147, R148). -/
def barrierTile (x : Tile) (blk : Nat) : Tile :=
  let ps := (x.slots.filter fun e => e.2.blk == blk).flatMap fun e => e.2.paths
  if ps != [] && ps.all (fun p => p.st == .barrier) then
    { x with slots := x.slots.map fun e =>
        if e.2.blk = blk then
          (e.1, settleGroup { e.2 with paths := e.2.paths.map fun p => { p with st := .ready } })
        else e }
  else x

/-- Looks at the barrier of a block. -/
def barrierCheck (d : Dev) (c t blk : Nat) : Dev := setTile d c t (barrierTile (tileOf d c t) blk)

/-- The A-cycle counter of a CD (15 R475). -/
def acntOff (c : Nat) : Nat := regOff c 0x1A 0 2

/-- `thr.nop` (04 R135). -/
def execThrNop (p : PathRef) (s : State) : Out := act s fun d =>
  issueLanes p (fun o => match o with | .nop => true | _ => false) d fun d _ _ => some d

/-- The group once some threads of the issuing path have ended: they leave their path and all join accounting, and
their registers keep their values (04 R134, R145). -/
def exitGroup (k : Ctx) (ls : List Nat) (g : Group) : Group :=
  let m := laneMask ls.contains
  let g := setLanes g ls fun _ t => { t with exited := true }
  { g with paths := g.paths.filterMap fun q =>
      if q.lanes = k.p.lanes then (if q.lanes &&& ~~~ m = 0 then none else some { q with lanes := q.lanes &&& ~~~ m })
      else some q }

/-- `thr.exit` (04 R135, R145, R147). -/
def execThrExit (p : PathRef) (s : State) : Out := act s fun d =>
  issueLanes p (fun o => match o with | .exit => true | _ => false) d fun d k ls =>
    let d := updGroup d k (exitGroup k ls)
    some (barrierCheck (settleSlot d k.c k.t k.slot) k.c k.t k.b.id)

/-- 64 A-cycles after a `thr.yield` the held path is released (04 R125). -/
def execYieldTimeout (p : PathRef) (s : State) : Out := act s fun d =>
  setPathState d p.cd p.tile p.slot p.lane fun q =>
    match q.st with
    | .yielded _ => { q with st := .ready }
    | _ => q

/-- `thr.bctl` (04 R135). -/
def execThrBctl (p : PathRef) (s : State) : Out := act s fun d =>
  issueLanes p (fun o => match o with | .bctl _ => true | _ => false) d fun d k ls =>
    match k.op, ls with
    | .bctl imm, _ :: _ =>
      let x := tileOf d k.c k.t
      some (match blockOf x k.b.id with
        | some b => setTile d k.c k.t (setBlock x { b with trap := imm % 2 == 1 })
        | none => d)
    | _, _ => some d

/-- `thr.clk` (04 R135, 15 R475). -/
def execThrClk (p : PathRef) (s : State) : Out := act s fun d =>
  issueLeader p (fun o => match o with | .clk _ => true | _ => false) d fun d k _ =>
    match k.op with
    | .clk ud => some (updGroup d k fun g => setUreg g ud (reg64 d (acntOff k.c)) false)
    | _ => some d

/-- Is an update one that some lanes of a slot issued before an order? -/
def updBefore (c t slot ord : Nat) (lanes : BitVec 32) (u : GongUpd) : Bool :=
  decide (u.ord < ord) && (match u.who with
    | .path c' t' s' l => c' == c && t' == t && s' == slot && BitVec.ofNat 32 l &&& lanes != 0
    | _ => false)

/-- Are loads and atomics that some lanes issued before an order still outstanding? -/
def outBefore (x : Tile) (slot ord : Nat) (lanes : BitVec 32) : Bool :=
  x.out.any fun o => o.slot == slot && decide (o.ord < ord) && o.lanes &&& lanes != 0

/-- Are stores that some lanes issued before an order still in the store buffer? -/
def storesBefore (x : Tile) (slot ord : Nat) (lanes : BitVec 32) : Bool :=
  x.stores.any fun e => e.by_.any fun b => b.slot == slot && decide (b.ord < ord) && b.lanes &&& lanes != 0

/-- Do the conditions of a path's fence hold (11 R355)? -/
def fenceDone (d : Dev) (c t slot scope ord : Nat) (lanes : BitVec 32) : Bool :=
  let x := tileOf d c t
  !outBefore x slot ord lanes &&
    (decide (scope < 2) || (!storesBefore x slot ord lanes && !d.gg.upd.any (updBefore c t slot ord lanes))) &&
    (decide (scope < 3) || !d.gg.cv.any fun u => updBefore c t slot ord lanes u.upd)

/-- Has everything been performed that a release of some lanes at a scope covers (11 R350): what a fence waits for, and their
gong updates at every scope? -/
def relDone (d : Dev) (c t slot scope ord : Nat) (lanes : BitVec 32) : Bool :=
  fenceDone d c t slot scope ord lanes && !d.gg.upd.any (updBefore c t slot ord lanes)

/-- Has a queue posted an update before another that is still under way? -/
def streamBefore (q : Nat) (u v : GongUpd) : Bool := v.who == .queue q && decide (v.ord < u.ord)

/-- Has what an update releases at its scope been performed (04 R126; 11 R350, R352, R355, R356)? A thread's update waits for the
thread's own accesses and earlier updates, a stream's for its queue's earlier updates. -/
def updReadyAt (d : Dev) (u : GongUpd) (scope : Nat) : Bool :=
  match u.who with
  | .path c t slot lanes => relDone d c t slot scope u.ord (BitVec.ofNat 32 lanes)
  | .queue q => !d.gg.upd.any (streamBefore q u) && (decide (scope < 3) || !d.gg.cv.any fun v => streamBefore q u v.upd)
  | _ => true

/-- Has what an update releases been performed? -/
def updReady (d : Dev) (u : GongUpd) : Bool := updReadyAt d u u.scope

/-- The chimes whose triggering update has completed its release at system scope are raised (09 R296). -/
def settleChimes (d : Dev) : Dev :=
  let ready := d.gg.chimeHeld.filter fun e => updReadyAt d e.2 3
  let d := { d with gg := { d.gg with chimeHeld := d.gg.chimeHeld.filter fun e => !updReadyAt d e.2 3 } }
  ready.foldl (fun d e => raiseChime d e.1) d

/-- `bar.sync` (04 R147, R148): the threads whose guard holds arrive and wait; the others go on. The path is held until what the
arriving threads release at block scope has been performed (log entry 15). -/
def execBarSync (p : PathRef) (s : State) : Out := act s fun d =>
  issueLanes p (fun o => match o with | .bar => true | _ => false) d fun d k ls =>
    let m := laneMask ls.contains
    if !relDone d k.c k.t k.slot 1 k.x.ord m then none else
    let split := fun (q : Path) =>
      if q.lanes ≠ k.p.lanes then [q]
      else
        (if q.lanes &&& m = 0 then [] else [{ q with lanes := q.lanes &&& m, st := .barrier }]) ++
        (if q.lanes &&& ~~~ m = 0 then [] else [{ q with lanes := q.lanes &&& ~~~ m }])
    some (barrierCheck (updGroup d k fun g => { g with paths := g.paths.flatMap split }) k.c k.t k.b.id)

/-- Issue of a fence by a path: the path is held (11 R355). -/
def fenceThread (scope : Nat) (p : PathRef) (d : Dev) : Dev :=
  issueLanes p (fun o => match o with | .fence f => f == scope | _ => false) d fun d k ls =>
    some (if ls = [] then d else updPath d k fun q => { q with st := .fence scope k.x.ord })

/-- A fence's conditions hold and its path may issue again (11 R355). -/
def execFenceRelease (p : PathRef) (s : State) : Out := act s fun d =>
  setPathState d p.cd p.tile p.slot p.lane fun q =>
    match q.st with
    | .fence scope ord => if fenceDone d p.cd p.tile p.slot scope ord q.lanes then { q with st := .ready } else q
    | _ => q

end Sys2Proof.Machine
end

