-- ==== Sys2Proof/Machine/Branch.lean ====
section
/-! DEFINITION. Branches, divergence and reconvergence (04 R142 to R146). -/

namespace Sys2Proof.Machine

open Parts

/-- The word a branch sends a thread to (04 R142). -/
def branchDest (k : Ctx) (taken : Bool) (t : Thread) : Nat :=
  match k.op with
  | .branch kind ra _ target =>
    if !taken then k.p.pc
    else if kind = 2 then (treg t ra).toNat
    else wrapInt 54 ((k.pc : Int) + target)
  | _ => k.p.pc

/-- The join stack after a branch that splits its path, and whether the push was lost (04 R143). -/
def pushJoin (stack : List Nat) (j : Nat) : List Nat × Bool :=
  if stack.head? = some j then (stack, false)
  else if 8 ≤ stack.length then (stack, true)
  else (j :: stack, false)

/-- The paths a branch makes of one path, by distinct destination in order of lowest lane, and whether a push was lost
(04 R142, R143). -/
def branchPaths (k : Ctx) (dest : Nat → Nat) : List Path × Bool :=
  let ls := laneList k.p.lanes
  let dests := (ls.map dest).eraseDups
  match dests with
  | [] => ([], false)
  | [e] => ([{ k.p with pc := e }], false)
  | _ =>
    let join := match k.op with
      | .branch _ _ j _ => j
      | _ => 0
    let (stack, lost) := if join = 0 then (k.p.join, false) else pushJoin k.p.join ((k.pc + join) % pcMod)
    (dests.map fun e => { k.p with lanes := laneMask fun l => bit k.p.lanes l && dest l == e, pc := e, join := stack }, lost)

/-- Issue of the branch of a kind (04 R142, R143, R152). -/
def branchStep (kind : Nat) (p : PathRef) (d : Dev) : Dev :=
  issueThread p (fun o => match o with | .branch q _ _ _ => q == kind | _ => false) d fun d k =>
    let bad := fun l => match k.op with
      | .branch 2 ra _ _ => if tpoison (threadAt k.g l) ra then some (stPoison, none) else none
      | _ => none
    match lowFault k bad with
    | some (l, st, va) => some (faultAt d k l st va)
    | none =>
      let ls := (laneList k.p.lanes).filter fun l => guardOk k.w (threadAt k.g l)
      let (ps, lost) := branchPaths k fun l => branchDest k (ls.contains l) (threadAt k.g l)
      let d := updGroup d k fun g =>
        let g := if kind = 1 then setLanes g ls fun _ t => setTreg t 63 (BitVec.ofNat 32 (k.pc + 1)) false else g
        { g with paths := ps ++ g.paths.filter fun q => q.lanes != k.p.lanes }
      some (flagIf lost d (tgOff k.c k.t 6) 3)

/-- `thr.br` (04 R142). -/
def execThrBr (p : PathRef) (s : State) : Out := act s fun d => branchStep 0 p d

/-- `thr.call` (04 R142). -/
def execThrCall (p : PathRef) (s : State) : Out := act s fun d => branchStep 1 p d

/-- `thr.br.ind` (04 R142). -/
def execThrBrInd (p : PathRef) (s : State) : Out := act s fun d => branchStep 2 p d

/-- A path parked for 4,096 A-cycles is released unmerged, and the tile sets `f_join_timeout` (04 R144). -/
def execJoinTimeout (p : PathRef) (s : State) : Out := act s fun d =>
  let x := tileOf d p.cd p.tile
  match groupAt x p.slot with
  | none => d
  | some g =>
    match pathOf g p.lane with
    | none => d
    | some q =>
      if q.st != .parked then d
      else setFlag (setPathState d p.cd p.tile p.slot p.lane releasePath) (tgOff p.cd p.tile 6) 2

end Sys2Proof.Machine
end

