-- ==== Sys2Proof/Machine/ThreadMem.lean ====
section
/-! DEFINITION. Thread loads, stores and atomics, the store buffer (04 R136 to R141, R152; 10 R310, R311; 11 R346 to
R350). -/

namespace Sys2Proof.Machine

open Parts

/-- Bytes with a poison bit each. -/
abbrev PBytes := List (Byte × Bool)

/-- The little-endian value of some bytes. -/
def pVal (bs : PBytes) : Nat := leNat (bs.map (·.1))

/-- A loaded value as registers: zero- or sign-extended to one, or a pair, each with the poison of the bytes it received (04 R114,
R152). -/
def loadedRegs (sz : Nat) (sx : Bool) (bs : PBytes) : List (Word32 × Bool) :=
  let v := pVal bs
  let p := (bs.take 4).any (·.2)
  if sz = 3 then [(BitVec.ofNat 32 v, p), (BitVec.ofNat 32 (v / 2 ^ 32), (bs.drop 4).any (·.2))]
  else [(if sx then BitVec.ofInt 32 (sextNat (8 * szBytes sz) v) else BitVec.ofNat 32 v, p)]

/-- Adds bytes that lie in one line to a list of line writes; later bytes win (04 R139). -/
def addWrite (pa : Nat) (bs : List Byte) (p : Bool) : List LineWrite → List LineWrite
  | [] =>
    let o := pa % 64
    [⟨pa / 64, BitVec.ofNat 512 (leNat bs <<< (8 * o)), BitVec.ofNat 64 ((2 ^ bs.length - 1) <<< o), p⟩]
  | w :: ws =>
    if w.line = pa / 64 then
      let o := pa % 64
      let m := BitVec.ofNat 64 ((2 ^ bs.length - 1) <<< o)
      { w with
        data := mergeMask w.data (BitVec.ofNat 512 (leNat bs <<< (8 * o))) (bitMask m)
        mask := w.mask ||| m, poison := w.poison || p } :: ws
    else w :: addWrite pa bs p ws

/-- The line writes of a lane's bytes spread over its chunks. -/
def addChunks : List Chunk → List Byte → Bool → List LineWrite → List LineWrite
  | [], _, _, ws => ws
  | c :: cs, bs, p, ws =>
    addChunks cs (bs.drop c.n) p (if c.st = 0 then addWrite c.pa (bs.take c.n) p ws else ws)

/-- What the translation and checks of an access give: the chunks of each lane, a fault, or a wait. -/
inductive AccRes where
  | ok (parts : List (Nat × List Chunk))
  | fault (lane st va : Nat)
  | wait
  deriving DecidableEq, Repr

/-- The status that refuses a thread's access to a byte (04 R136, R141; 02 R50; 10 R307, R308). -/
def threadCheck (d : Dev) (part pa : Nat) (atomic : Bool) : Nat :=
  match paKind d pa with
  | .scratch _ _ => if atomic then stNoatomic else paCheck d part pa
  | .tile _ _ => if atomic then stNoatomic else paCheck d part pa
  | _ => paCheck d part pa

/-- Does a status of an access fault its block? ABSENT and STATE leave it without effect (02 R35, R61; 10 R308). -/
def faultsBlock (st : Nat) : Bool := st != 0 && st != stAbsent && st != stState

/-- Translates and checks the chunks of one lane. -/
def xlatLane (k : Ctx) (acc : Access) (atomic : Bool) (lane : Nat) :
    List (Nat × Nat) → Dev → List Chunk → Dev × (AccRes ⊕ List Chunk)
  | [], d, cs => (d, .inr cs)
  | (va, n) :: rest, d, cs =>
    match translate d (.tile k.c k.t) k.b.space va acc with
    | (_, .wait) => (d, .inl .wait)
    | (d, .cause _ st) => (d, .inl (.fault lane st va))
    | (d, .ok pa) =>
      let st := threadCheck d k.b.part pa atomic
      if faultsBlock st then (d, .inl (.fault lane st va))
      else xlatLane k acc atomic lane rest d (cs ++ [{ va := va, pa := pa, n := n, st := st }])

/-- Translates and checks every lane of an access, lowest lane first; the first failure ends it. -/
def xlatLanes (k : Ctx) (acc : Access) (atomic : Bool) :
    List (Nat × List (Nat × Nat)) → Dev → List (Nat × List Chunk) → Dev × AccRes
  | [], d, ps => (d, .ok ps)
  | (lane, vas) :: rest, d, ps =>
    match xlatLane k acc atomic lane vas d [] with
    | (d, .inl r) => (d, r)
    | (d, .inr cs) => xlatLanes k acc atomic rest d (ps ++ [(lane, cs)])

/-- The status bits of chunks that are refused without a fault. -/
def chunkStatus (ps : List (Nat × List Chunk)) : Nat :=
  ps.foldl (fun st e => e.2.foldl (fun st c => st ||| c.st) st) 0

/-- The virtual address of a lane's access: a byte offset in local space. -/
def laneVa (k : Ctx) (m : MemOp) (l : Nat) : Nat :=
  if m.glob then globalAddr m k.imms k.g (threadAt k.g l) else wrapInt 57 (localAddr m k.imms (threadAt k.g l))

/-- The fault of a memory instruction in an executing lane before translation (04 R136, R141, R152, R157): a poisoned address
register, with the address where the instruction is a load; in local space an atomic, or bytes outside tile memory. -/
def laneFault (k : Ctx) (m : MemOp) (l : Nat) : Option (Nat × Option Nat) :=
  if addrPoison m k.g (threadAt k.g l) then
    some (stPoison, match k.op with
      | .ld _ => some (laneVa k m l)
      | _ => none)
  else if m.glob then none
  else match k.op with
    | .atom _ => some (stNoatomic, some (laneVa k m l))
    | _ => if localOk (localAddr m k.imms (threadAt k.g l)) (szBytes m.sz) then none else some (stXlat, some (laneVa k m l))

/-- Translates and checks an access of a kind in some lanes. -/
abbrev LanesXlat := Dev → Ctx → MemOp → List Nat → Dev × AccRes

/-- Issue of a memory instruction (04 R136, R152, R154): the lowest lane that fails a check faults, where lanes below a fault that
is known before translation are translated too; else `loc` or `glob` acts on the executing lanes. -/
def memIssue (sel : Op → Option MemOp) (p : PathRef) (d : Dev) (xl : LanesXlat)
    (loc : Dev → Ctx → MemOp → List Nat → Option Dev)
    (glob : Dev → Ctx → MemOp → List Nat → List (Nat × List Chunk) → Option Dev) : Dev :=
  issueThread p (fun o => (sel o).isSome) d fun d k =>
    match sel k.op with
    | none => none
    | some m =>
      let low := lowFault k (laneFault k m)
      let ls := match low with
        | some (l, _, _) => goodLanes k l
        | none => (laneList k.p.lanes).filter fun l => guardOk k.w (threadAt k.g l)
      let fault := fun d => match low with
        | some (l, st, va) => some (faultAt d k l st va)
        | none => none
      if !m.glob then (if low.isSome then fault d else loc d k m ls)
      else match xl d k m ls with
        | (_, .wait) => none
        | (d, .fault l st va) => some (faultAt d k l st (some va))
        | (d, .ok ps) => if low.isSome then fault d else glob d k m ls ps

/-- The physical address of a lane's local access. -/
def localPa (k : Ctx) (m : MemOp) (l : Nat) : Nat := tilePa k.c k.t (localAddr m k.imms (threadAt k.g l)).toNat

/-- n bytes of storage with their poison. -/
def pBytesAt (d : Dev) (pa n : Nat) : PBytes :=
  (upto n).map fun i => (byteAt d (pa + i), poisonAt d ((pa + i) / 64))

/-- The lines of an access that are still to be performed. -/
def accLines (a : LaneAcc) : List Nat := (a.chunks.filter fun c => c.st == 0 && c.got.isNone).map fun c => c.pa / 64

/-- Does an earlier access of a thread touch one of some lines and wait still (11 R348)? -/
def earlierSameLine (x : Tile) (slot ord lane : Nat) (lines : List Nat) : Bool :=
  x.out.any fun o => o.slot == slot && decide (o.ord < ord) &&
    o.parts.any fun a => a.lane == lane && a.done.isNone && (accLines a).any lines.contains

/-- Must an access of some lanes to physical addresses wait: an earlier access of a lane to one of the lane's lines has not been
performed (11 R348; log entry 15)? -/
def sameLineWaits (k : Ctx) (pas : List (Nat × List Nat)) : Bool :=
  pas.any fun e => earlierSameLine k.x k.slot k.x.ord e.1 (e.2.map (· / 64))

/-- Must a store that releases wait for what it covers (11 R350; log entry 15)? -/
def releaseWaits (d : Dev) (k : Ctx) (m : MemOp) (ls : List Nat) : Bool :=
  m.sem == 2 && !relDone d k.c k.t k.slot m.scope k.x.ord (laneMask ls.contains)

/-- The parts of a lane's local access: physical addresses with their lengths. -/
def localParts (k : Ctx) (m : MemOp) (l : Nat) : List (Nat × Nat) := splitVa (localPa k m l) (szBytes m.sz)

/-- Must a local access wait: a buffered store of the tile to one of its lines, or an earlier access to one, has not been
performed (11 R348, R351)? -/
def localWaits (k : Ctx) (m : MemOp) (ls : List Nat) : Bool :=
  let pas := ls.map fun l => (l, (localParts k m l).map (·.1))
  sameLineWaits k pas || k.x.stores.any fun e => pas.any fun q => q.2.any fun pa => pa / 64 == e.line

/-- A local load: performed at issue (04 R136, R138). -/
def loadLocal (ecc : List (Nat × EccFound)) (d : Dev) (k : Ctx) (m : MemOp) (ls : List Nat) : Option Dev :=
  if localWaits k m ls then none else
  let d := eccLines d ecc (ls.flatMap fun l => (localParts k m l).map fun e => e.1 / 64)
  some (updGroup d k fun g => setLanes g ls fun l t =>
    putRegs setTreg t m.rd (loadedRegs m.sz m.sx (pBytesAt d (localPa k m l) (szBytes m.sz))))

/-- The byte ranges of a global access, by lane; atomics are aligned down (04 R136, R137, R140). -/
def globalRanges (k : Ctx) (m : MemOp) (atomic : Bool) (ls : List Nat) : List (Nat × List (Nat × Nat)) :=
  ls.map fun l =>
    let a := globalAddr m k.imms k.g (threadAt k.g l)
    let n := szBytes m.sz
    (l, splitVa (if atomic then a / n * n else a) n)

/-- Translates and checks a global access of some lanes. -/
def xlatAccess (acc : Access) (atomic : Bool) : LanesXlat := fun d k m ls =>
  xlatLanes k acc atomic (globalRanges k m atomic ls) d []

/-- A global load or atomic is under way: its registers await it, and its statuses reach the block. -/
def sendAccess (d : Dev) (k : Ctx) (o : Outstanding) (ls : List Nat) (ps : List (Nat × List Chunk)) : Dev :=
  let d := updGroup d k fun g => setLanes g ls fun _ t => (szRegs o.sz o.rd).foldl (fun t n => awaitReg t o.ord n) t
  let x := tileOf d k.c k.t
  raiseStatus (setTile d k.c k.t { x with out := x.out ++ [o] }) k.c k.t k.b.id (chunkStatus ps)

/-- A global load is sent: its result is outstanding (04 R139). -/
def loadGlobal (d : Dev) (k : Ctx) (m : MemOp) (ls : List Nat) (ps : List (Nat × List Chunk)) : Option Dev :=
  let o : Outstanding :=
    { ord := k.x.ord, blk := k.b.id, slot := k.slot, lanes := laneMask ls.contains, rd := m.rd, sz := m.sz, sx := m.sx,
      aop := none, acq := m.sem == 1, rel := false, scope := m.scope, pc := k.pc, trap := k.b.trap,
      parts := ps.map fun e => ⟨e.1, e.2, 0, 0, false, none⟩ }
  some (if ps = [] then d else sendAccess d k o ls ps)

/-- Is an instruction a load? -/
def selLd : Op → Option MemOp
  | .ld m => some m
  | _ => none

/-- Is an instruction a store? -/
def selSt : Op → Option MemOp
  | .st m => some m
  | _ => none

/-- Is an instruction an atomic? -/
def selAtom : Op → Option MemOp
  | .atom m => some m
  | _ => none

/-- `thr.ld` (04 R136 to R139); `ecc` says what errors a local read finds, by line. -/
def execThrLd (p : PathRef) (ecc : List (Nat × EccFound)) (s : State) : Out := act s fun d =>
  memIssue selLd p d (xlatAccess .read false) (loadLocal ecc) loadGlobal

/-- The bytes a thread stores. -/
def storeBytes (t : Thread) (m : MemOp) : List Byte := leBytes (szBytes m.sz) (dataVal t m.sz m.rd).toNat

/-- Performs line writes. -/
def writeLines (d : Dev) (ws : List LineWrite) : Dev := ws.foldl (fun d w => writeLine d w.line w.data w.mask w.poison) d

/-- A local store: performed at issue (04 R136, R139), once what it must follow has been. -/
def storeLocal (d : Dev) (k : Ctx) (m : MemOp) (ls : List Nat) : Option Dev :=
  if localWaits k m ls || releaseWaits d k m ls then none else
  some (writeLines d (ls.foldl (fun ws l =>
    let t := threadAt k.g l
    addChunks ((localParts k m l).map fun e => { va := e.1, pa := e.1, n := e.2, st := 0 }) (storeBytes t m)
      (dataPoison t m.sz m.rd) ws) []))

/-- A line write merged into the store buffer (11 R346). -/
def bufferLine (b : StoreBy) (es : List StoreEntry) (w : LineWrite) : List StoreEntry :=
  if es.any fun e => e.line == w.line then
    es.map fun e => if e.line = w.line then
      { e with data := mergeMask e.data w.data (bitMask w.mask), mask := e.mask ||| w.mask,
               poison := e.poison || w.poison, by_ := e.by_ ++ [b] } else e
  else es ++ [⟨w.line, w.data, w.mask, w.poison, [b]⟩]

/-- May the lines of a store enter the buffer: an entry free for each line that has none (11 R346)? -/
def bufferOk (es : List StoreEntry) (ws : List LineWrite) : Bool :=
  let new := ws.filter fun w => !es.any fun e => e.line == w.line
  decide (es.length + new.length ≤ 32)

/-- The line writes of a global store. -/
def globalWrites (k : Ctx) (m : MemOp) (ps : List (Nat × List Chunk)) : List LineWrite :=
  ps.foldl (fun ws e =>
    let t := threadAt k.g e.1
    addChunks e.2 (storeBytes t m) (dataPoison t m.sz m.rd) ws) []

/-- Does a global store find room in the buffer, and has what it must follow been performed (11 R346, R348, R350)? -/
def storeEnters (d : Dev) (k : Ctx) (m : MemOp) (ls : List Nat) (ps : List (Nat × List Chunk)) : Bool :=
  bufferOk k.x.stores (globalWrites k m ps) && !releaseWaits d k m ls &&
    !sameLineWaits k (ps.map fun e => (e.1, (e.2.filter fun c => c.st == 0).map (·.pa)))

/-- A global store enters the store buffer (04 R139, 11 R346). -/
def storeGlobal (d : Dev) (k : Ctx) (m : MemOp) (ls : List Nat) (ps : List (Nat × List Chunk)) : Option Dev :=
  let x := tileOf d k.c k.t
  let b : StoreBy := ⟨x.ord, k.b.id, k.slot, laneMask ls.contains⟩
  if !storeEnters d k m ls ps then none
  else some (raiseStatus (setTile d k.c k.t { x with stores := (globalWrites k m ps).foldl (bufferLine b) x.stores })
    k.c k.t k.b.id (chunkStatus ps))

/-- `thr.st` (04 R136 to R139, R152). -/
def execThrSt (p : PathRef) (s : State) : Out := act s fun d =>
  memIssue selSt p d (xlatAccess .write false) storeLocal storeGlobal

/-- A global atomic is sent to the homes of its lines (04 R140, R141, R152). -/
def atomGlobal (d : Dev) (k : Ctx) (m : MemOp) (ls : List Nat) (ps : List (Nat × List Chunk)) : Option Dev :=
  let part := fun (e : Nat × List Chunk) =>
    let t := threadAt k.g e.1
    let absent := e.2.any fun c => c.st != 0
    { lane := e.1, chunks := e.2, data := dataVal t m.sz m.rb, cmp := dataVal t m.sz m.rd,
      poison := dataPoison t m.sz m.rb || (m.aop == 9 && dataPoison t m.sz m.rd),
      done := if absent then some (0, false, false) else none : LaneAcc }
  let o : Outstanding :=
    { ord := k.x.ord, blk := k.b.id, slot := k.slot, lanes := laneMask ls.contains, rd := m.rd, sz := m.sz, sx := false,
      aop := some m.aop, acq := m.sem % 2 == 1, rel := decide (2 ≤ m.sem), scope := m.scope, pc := k.pc, trap := k.b.trap,
      parts := ps.map part }
  some (if ps = [] then d else sendAccess d k o ls ps)

/-- `thr.atom` (04 R140, R141): in local space it has faulted, so only a path with no executing lane gets there. -/
def execThrAtom (p : PathRef) (s : State) : Out := act s fun d =>
  memIssue selAtom p d (xlatAccess .write true) (fun d _ _ _ => some d) atomGlobal

/-- One byte as a global load of a tile sees it: the store buffer's over the one at the point of performance (11 R346). -/
def tileByte (d : Dev) (x : Tile) (pa : Nat) : Byte × Bool :=
  match x.stores.find? fun e => e.line == pa / 64 && bit e.mask (pa % 64) with
  | some e => (lineByte e.data (pa % 64), e.poison)
  | none => (byteAt d pa, poisonAt d (pa / 64))

/-- The bytes of a chunk: those it has got where it has been performed, zero where the unit is absent (02 R35, R61), poisoned
where its CD is out of reach (18 R544), free where the load is refused with STATE. -/
def chunkBytes (d : Dev) (x : Tile) (c : Chunk) : PBytes :=
  if c.st = 0 then c.got.getD ((upto c.n).map fun i => tileByte d x (c.pa + i))
  else if c.st = stAbsent then List.replicate c.n (0, false)
  else if c.st = stPoison then List.replicate c.n (0, true)
  else (leBytes c.n (Config.refusedLoad d.fresh)).map fun b => (b, false)

/-- May an outstanding access, or one part of it, be performed: an atomic at every home, a load with nothing earlier of its
threads to its lines left to perform (11 R348)? -/
def mayReturn (x : Tile) (o : Outstanding) : Bool :=
  match o.aop with
  | some _ => o.parts.all fun a => a.done.isSome
  | none => o.parts.all fun a => !earlierSameLine x o.slot o.ord a.lane (accLines a)

/-- The old value an atomic returns in a lane as registers. -/
def atomRegs (o : Outstanding) (a : LaneAcc) : List (Word32 × Bool) :=
  match a.done with
  | some (v, p, _) => dataRegs o.sz v p
  | none => []

/-- Writes the result of one lane of an outstanding access. -/
def putResult (d : Dev) (x : Tile) (o : Outstanding) (g : Group) (a : LaneAcc) : Group :=
  let vs := match o.aop with
    | none => loadedRegs o.sz o.sx (a.chunks.flatMap (chunkBytes d x))
    | some _ => atomRegs o a
  setThread g a.lane (putRegs (returnReg o.ord) (threadAt g a.lane) o.rd vs)

/-- An outstanding access with every chunk changed. -/
def mapChunks (o : Outstanding) (f : Chunk → Chunk) : Outstanding :=
  { o with parts := o.parts.map fun a => { a with chunks := a.chunks.map f } }

/-- An outstanding load with the chunks marked whose CD is out of reach (18 R544). -/
def severed (d : Dev) (cd : Nat) (o : Outstanding) : Outstanding :=
  if o.aop.isSome then o else
  mapChunks o fun c => if c.st = 0 ∧ c.got = none ∧ deadTo d cd (c.pa / 64) then { c with st := stPoison } else c

/-- One part of an outstanding load is performed: the accesses at a physical address read their bytes, which they hold until the
load returns (04 R137, R139). -/
def performPart (d : Dev) (cd tile : Nat) (o : Outstanding) (pa : Nat) (ecc : List (Nat × EccFound)) : Dev :=
  let x := tileOf d cd tile
  let one := { o with parts := o.parts.map fun a => { a with chunks := a.chunks.filter fun c => c.pa == pa } }
  if o.aop.isSome || !mayReturn x one || deadTo d cd (pa / 64) then d else
  let lines := one.parts.flatMap accLines
  let d := readLines d ecc lines
  let read := fun (c : Chunk) => if c.pa = pa ∧ c.st = 0 ∧ c.got = none then { c with got := some (chunkBytes d x c) } else c
  setTile d cd tile { x with out := x.out.map fun q => if q.ord = o.ord then mapChunks q read else q }

/-- The result of a global load or atomic returns (04 R139, R140, R152; 06 R209); `part` names a physical address of a load of
which only the accesses there are performed now. `ord` names the access; `ecc` says what errors the read of its lines finds. -/
def execGlobalAccessResponse (cd tile ord : Nat) (part : Option Nat) (ecc : List (Nat × EccFound)) (s : State) : Out :=
    act s fun d =>
  let x := tileOf d cd tile
  match x.out.find? fun o => o.ord == ord with
  | none => d
  | some o =>
    match part with
    | some pa => performPart d cd tile o pa ecc
    | none =>
      if !mayReturn x o then d else
      let o := severed d cd o
      let lines := if o.aop.isNone then o.parts.flatMap accLines else []
      let d := readLines d ecc lines
      let x := tileOf d cd tile
      let x := { x with out := x.out.filter fun q => q.ord != ord }
      match groupAt x o.slot with
      | none => setTile d cd tile x
      | some g =>
        let refused := o.parts.any fun a => a.chunks.any fun c => c.st == stState
        let d1 := setTile d cd tile (setGroup x o.slot (o.parts.foldl (putResult d x o) g))
        let d1 := { d1 with fresh := d1.fresh + b2n refused }
        let invs := o.parts.filter fun a => match a.done with
          | some (_, _, i) => i
          | none => false
        let d1 := invs.foldl (fun d a => threadStatus d cd tile o.slot o.blk a.lane o.pc stInvalid) d1
        match invs with
        | a :: _ => if o.trap then blockFault d1 cd tile o.blk o.slot a.lane o.pc stInvalid none else d1
        | [] => d1

/-- A store-buffer entry is performed at its point of performance (11 R345, R346). `line` names it; `ecc` says what
error the read of the line finds. One to a CD out of reach is lost with status POISON (18 R544). -/
def execStoreBufferDrain (cd tile line : Nat) (ecc : EccFound) (s : State) : Out := act s fun d =>
  let x := tileOf d cd tile
  match x.stores.find? fun e => e.line == line with
  | none => d
  | some e =>
    let d := setTile d cd tile { x with stores := x.stores.filter fun q => q.line != line }
    if deadTo d cd line then e.by_.foldl (fun d b => raiseStatus d cd tile b.blk stPoison) d
    else settleChimes (writeLine (eccRead d line ecc) e.line e.data e.mask e.poison)

end Sys2Proof.Machine
end

