-- ==== Sys2Proof/Machine/Blocks.lean ====
section
/-! DEFINITION. Blocks: placement, start, end, watchdog, instruction fetch (02 R41 to R49; 04 R120, R121, R149 to R154,
R633). -/

namespace Sys2Proof.Machine

open Parts

/-- The `split` bit that FN.MODE of a CD has buffered, if any (02 R56). -/
def splitBuffered (d : Dev) (c : Nat) : Option Bool :=
  let b := regBuf d (fnOff c)
  if bit b.mask 4 then some (bit b.value 4) else none

/-- Does a tile drain: a field buffered or held that applies at its block boundary, `split` among them until the tile has had
its boundary, or a swap decided (02 R49, 18 R552)? -/
def tileDrains (d : Dev) (c t : Nat) : Bool :=
  (tileOf d c t).draining || (regBuf d (tgOff c t 0)).mask != 0 || (regBuf d (tgOff c t 7)).mask != 0 ||
    d.rg.mgmt.any (fun w => offInstance w.off == offInstance (tgOff c t 0) || (w.off == fnOff c && bit w.mask 4)) ||
    ((splitBuffered d c).isSome && !(regBuf d (fnOff c)).tiles.contains t)

/-- Does a tile qualify for a block of n groups of a queue (02 R42, R49; 18 R553)? -/
def tileQualifies (d : Dev) (q t n : Nat) : Bool :=
  let c := queueCd q
  let x := tileOf d c t
  tilePart d c t == qPart d q && !x.retired && !tileDrains d c t && !x.retention && decide (n ≤ (freeSlots x).length)

/-- The tile that ANY placement takes: most free slots, lowest id among equals (02 R42). -/
def anyTile (d : Dev) (q n : Nat) : Option Nat :=
  (upto 180).foldl (fun best t =>
    if !tileQualifies d q t n then best
    else match best with
      | none => some t
      | some b => if (freeSlots (tileOf d (queueCd q) b)).length < (freeSlots (tileOf d (queueCd q) t)).length then some t
          else best) none

/-- The tile a FIXED block goes to (02 R41). -/
def fixedTile (l : Launch) (i : Nat) : Nat := (l.first + i * l.stride) % 180

/-- Has block i of a launch been placed? -/
def isPlaced (l : Launch) (i : Nat) : Bool := decide (i < l.next) || l.ahead.contains i

/-- Moves `next` past the blocks placed ahead. -/
def advanceNext : Nat → Nat → List Nat → Nat × List Nat
  | 0, n, l => (n, l)
  | k + 1, n, l => if l.contains n then advanceNext k (n + 1) (l.erase n) else (n, l)

/-- A launch with block i placed. -/
def markPlaced (l : Launch) (i : Nat) : Launch :=
  let (n, a) := advanceNext (l.ahead.length + 1) l.next (i :: l.ahead)
  { l with next := n, ahead := a }

/-- Places block i of a launch on a tile: the block takes its group slots and has not started. -/
def placeBlock (d : Dev) (q t i : Nat) (l : Launch) : Dev :=
  let c := queueCd q
  let x := tileOf d c t
  let b : Block :=
    { id := x.nextBlk, queue := q, launch := l.id, index := i, count := l.blocks, groups := l.groups, arg := l.arg,
      gong := l.gong, prog := l.prog, cls := l.cls, space := queueSpace d q, part := qPart d q, trap := false,
      status := 0, started := false, faulted := false }
  let slots := (freeSlots x).take l.groups
  let x := (enumFrom 0 slots).foldl (fun x e => setGroup x e.2 ⟨x.nextBlk, e.1, [], 0, [], []⟩) x
  trace (setTile d c t { x with blocks := x.blocks ++ [b], nextBlk := x.nextBlk + 1 }) c 2 0 2 (some b.part) (some b.cls)
    (q + i * 2 ^ 20 + t * 2 ^ 44) l.gong

/-- Block i of the launch of queue q is placed, if a tile qualifies; the launch retires with its last block (02 R38,
R42, R43). -/
def execBlockPlacement (q i : Nat) (s : State) : Out := act s fun d =>
  let x := queueOf d q
  match x.launch with
  | none => d
  | some l =>
    if x.state != .run || isPlaced l i || decide (l.blocks ≤ i) then d else
    let t := if l.fixed then
        (if tileQualifies d q (fixedTile l i) l.groups then some (fixedTile l i) else none)
      else anyTile d q l.groups
    match t with
    | none => d
    | some t =>
      let d := placeBlock d q t i l
      let l := markPlaced l i
      if l.blocks ≤ l.next then retireInstr (setQueue d q { queueOf d q with launch := none }) q 4
      else setQueue d q { queueOf d q with launch := some l }

/-- The threads of a group at the start of a block (04 R120). -/
def startThreads (index : Nat) : List (Nat × Thread) :=
  lanes32.filterMap fun l =>
    let t : Thread := setTreg (setTreg {} 0 (BitVec.ofNat 32 (32 * index + l)) false) 1 (BitVec.ofNat 32 l) false
    if t = {} then none else some (l, t)

/-- A group at the start of a block (04 R120). -/
def startGroup (c t : Nat) (b : Block) (index : Nat) : Group :=
  let g : Group := ⟨b.id, index, [], 0, startThreads index, [⟨BitVec.allOnes 32, 0, [], .ready⟩]⟩
  let g := setUreg g 0 b.arg false
  let g := setUreg g 1 (BitVec.ofNat 64 (b.index + b.count * 2 ^ 32)) false
  let g := setUreg g 2
    (BitVec.ofNat 64 (t + c * 2 ^ 8 + b.part * 2 ^ 10 + b.groups * 2 ^ 14 + index * 2 ^ 18)) false
  setUreg g 3 (BitVec.ofNat 64 b.queue) false

/-- A placed block starts on its tile with its initial registers; a block of another launch than the tile's previous one
empties the instruction cache (04 R120, R121). -/
def execBlockStart (cd tile blk : Nat) (s : State) : Out := act s fun d =>
  let x := tileOf d cd tile
  match blockOf x blk with
  | none => d
  | some b =>
    if b.started then d else
    let x := setBlock x { b with started := true }
    setTile d cd tile { x with
      icache := if x.lastLaunch = some b.launch then x.icache else []
      lastLaunch := some b.launch
      slots := x.slots.map fun e => if e.2.blk = blk then (e.1, startGroup cd tile b e.2.index) else e }

/-- Has a unit of a tile an instruction of a block? -/
def unitHolds (u : UnitQ) (blk : Nat) : Bool := (u.queue ++ u.run).any fun i => i.blk == blk

/-- Is a wait or an update that of a path in some slots of a tile? -/
def whoIn (c t : Nat) (slots : List Nat) : Who → Bool
  | .path c' t' s _ => c' == c && t' == t && slots.contains s
  | _ => false

/-- May a block end: started, faulted or with every thread exited, and nothing it issued still under way, a wait on its way to its
gong unit among it (04 R153)? -/
def mayEnd (d : Dev) (c t : Nat) (b : Block) : Bool :=
  let x := tileOf d c t
  let slots := (x.slots.filter fun e => e.2.blk == b.id).map (·.1)
  b.started && (b.faulted || !blockLive x b.id) && !x.stores.any (fun e => e.by_.any fun y => y.blk == b.id) &&
    !x.out.any (fun o => o.blk == b.id) && !d.gg.upd.any (fun u => whoIn c t slots u.who) &&
    !d.gg.cv.any (fun u => whoIn c t slots u.upd.who) && !d.gg.wait.any (fun w => whoIn c t slots w.who && !w.arrived) &&
    !(unitHolds x.mx b.id || unitHolds x.al b.id || unitHolds x.sp b.id || unitHolds x.vx b.id)

/-- Fault answers that accesses of a tile had still to take are gone; an access that still waits asks again (13 R408). -/
def dropAnswers (d : Dev) (c t : Nat) : Dev :=
  let x := xinst d c
  setXinst d c { x with answers := x.answers.filter fun a => a.sel != .tile c t }

/-- A finished or faulted block ends: its status goes to its queue's accumulator, then 1 is added to the launch's end
gong with release at device scope (02 R44; 04 R151, R153; 09 R293). The waits of a faulted block end with it. -/
def execBlockEnd (cd tile blk : Nat) (s : State) : Out := act s fun d =>
  let x := tileOf d cd tile
  match blockOf x blk with
  | none => d
  | some b =>
    if !mayEnd d cd tile b then d else
    let slots := (x.slots.filter fun e => e.2.blk == blk).map (·.1)
    let d := setTile d cd tile { x with
      blocks := x.blocks.filter fun e => e.id != blk
      slots := x.slots.filter fun e => e.2.blk != blk }
    let d := { d with gg := { d.gg with wait := d.gg.wait.filter fun w => !whoIn cd tile slots w.who } }
    let d := dropAnswers (prunePast (retryWaits d)) cd tile
    let d := trace d cd 7 tile 3 (some b.part) (some b.cls) (b.queue + b.index * 2 ^ 20) b.status
    sendUpdate (accumulate d b.queue b.status) ⟨b.gong, .add, 1, 2, .blockEnd, 0⟩

/-- The thread that BARRIER_STRANDED records: the lowest waiting lane of the lowest slot with a waiting thread, else the
lowest live lane of the lowest slot (04 R154); with its word index. -/
def strandedAt (x : Tile) (blk : Nat) : Nat × Nat × Nat :=
  let at_ := fun (f : Path → Bool) => (x.slots.filter fun e => e.2.blk == blk).findSome? fun e =>
    match e.2.paths.filter f with
    | [] => none
    | ps =>
      let l := lowestBit (ps.foldl (fun m p => m ||| p.lanes) (0 : BitVec 32))
      (ps.find? fun p => bit p.lanes l).map fun p => (e.1, l, if p.st = .barrier then p.pc - 1 else p.pc)
  match at_ fun p => p.st == .barrier with
  | some r => r
  | none => (at_ fun _ => true).getD (0, 0, 0)

/-- The block watchdog expires: the block faults with BARRIER_STRANDED (04 R149, R150, R154). It does not count while the tile is not
clocked. -/
def execBlockWatchdogExpiry (cd tile blk : Nat) (s : State) : Out := act s fun d =>
  let x := tileOf d cd tile
  match blockOf x blk with
  | none => d
  | some b =>
    if !b.started || !mayIssue d cd x b || !blockLive x blk then d else
    let (slot, lane, pc) := strandedAt x blk
    setFlag (blockFault d cd tile blk slot lane pc stStranded none) (tgOff cd tile 6) 1

/-- The status of a fetched line (04 R633): 0 where it was fetched. -/
def fetchStatus (d : Dev) (part pa : Nat) : Nat :=
  let st := paCheck d part pa
  if st ≠ 0 then st else if poisonAt d (pa / 64) then stPoison else 0

/-- Did a line hold a content before it was written while a launch of CD c ran (04 R121)? -/
def heldBefore (d : Dev) (c launch ln : Nat) (data : Line) : Bool :=
  d.mem.past.any fun p => p.line == ln && p.data == data && p.launches.contains (c, launch)

/-- The line that holds word k after a path's program counter is fetched, translated with permission x (04 R121, R633).
`seen` is the earlier content that it shows, where the line was written while the launch ran; none: its present content. A full
cache drops the line fetched longest ago (DESIGN CHOICE, log entry 17). -/
def execInstructionFetch (p : PathRef) (k : Nat) (seen : Option Line) (s : State) : Out := act s fun d =>
  let x := tileOf d p.cd p.tile
  match groupAt x p.slot with
  | none => d
  | some g =>
    match pathOf g p.lane, blockOf x g.blk with
    | some q, some b =>
      let va := wordVa b (q.pc + k) / 64 * 64
      if b.faulted || decide (3 < k) || x.icache.any (fun l => l.space == b.space && l.va == va) then d else
      let put := fun (d : Dev) (data : Line) (st : Nat) =>
        let x := tileOf d p.cd p.tile
        setTile d p.cd p.tile { x with icache := (⟨b.space, va, data, st⟩ :: x.icache).take 512 }
      match translate d (.tile p.cd p.tile) b.space va .fetch with
      | (_, .wait) => d
      | (d, .cause _ _) => put d 0 stXlat
      | (d, .ok pa) =>
        let d := fillLines d [pa / 64]
        let shown := match seen with
          | some data => if heldBefore d p.cd b.launch (pa / 64) data then data else (lineAt d (pa / 64)).1
          | none => (lineAt d (pa / 64)).1
        put d shown (fetchStatus d b.part pa)
    | _, _ => d

end Sys2Proof.Machine
end

