-- ==== Sys2Proof/Machine/Units.lean ====
section
/-! DEFINITION. What the units of a tile share (04 R126, R152; 05 R170 to R178; 06 R198 to R202, R208 to R210; 07 R231;
08 R248): issue into a queue, dependences, start, completion, operand bytes. -/

namespace Sys2Proof.Machine

open Parts

/-- The units that queue instructions. -/
inductive UnitSel where
  | mx
  | al
  | sp
  | vx
  deriving DecidableEq, Repr

/-- A unit of a tile. -/
def unitOf (x : Tile) : UnitSel → UnitQ
  | .mx => x.mx
  | .al => x.al
  | .sp => x.sp
  | .vx => x.vx

/-- Stores a unit of a tile. -/
def setUnit (x : Tile) (u : UnitSel) (q : UnitQ) : Tile :=
  match u with
  | .mx => { x with mx := q }
  | .al => { x with al := q }
  | .sp => { x with sp := q }
  | .vx => { x with vx := q }

/-- The instructions a unit's queue holds (05 R172, 06 R201, 07 R220, 08 R248). -/
def unitCap : UnitSel → Nat
  | .mx => 8
  | .al => 4
  | .sp => 4
  | .vx => 8

/-- The mask bit of an accumulator, a vector register and an aligned accumulator. -/
def accBit (a : Nat) : Nat := 2 ^ a
/-- The mask bit of vector register v. -/
def vecBit (v : Nat) : Nat := 2 ^ (4 + v)
/-- The mask bit of aligned accumulator x. -/
def xBit (x : Nat) : Nat := 2 ^ (12 + x)

/-- A unit instruction as issued: what it reads and writes. -/
structure UnitNew where
  uops : List Nat := []
  reads : Nat := 0
  writes : Nat := 0
  rmem : List (Nat × Nat) := []
  wmem : List (Nat × Nat) := []

/-- The outcome of an issue's checks: a fault with an address, or the instruction. -/
inductive UnitCheck where
  | fault (st : Nat) (va : Option Nat)
  | ok (u : UnitNew)

/-- The first failing check of a list: condition, status, address. -/
def firstFail : List (Bool × Nat × Option Nat) → Option (Nat × Option Nat)
  | [] => none
  | (c, st, va) :: rest => if c then some (st, va) else firstFail rest

/-- Checks in order, then the instruction. -/
def checked (l : List (Bool × Nat × Option Nat)) (u : UnitNew) : UnitCheck :=
  match firstFail l with
  | some (st, va) => .fault st va
  | none => .ok u

/-- ILLEGAL where an offset is not a multiple of 64 (05 R170). -/
def chkAlign (off : Nat) : Bool × Nat × Option Nat := (off % 64 != 0, stIllegal, none)

/-- XLAT where an extent reaches 2 MiB (05 R170). -/
def chkExtent (off n : Nat) : Bool × Nat × Option Nat := (decide (tileBytes < off + n), stXlat, some (off % vaMod))

/-- ILLEGAL under a condition. -/
def chkIllegal (c : Bool) : Bool × Nat × Option Nat := (c, stIllegal, none)

/-- The lines of some extents of a tile's memory. -/
def extLines (c t : Nat) (es : List (Nat × Nat)) : List Nat :=
  es.flatMap fun e => (upto ((e.1 + e.2 + 63) / 64 - e.1 / 64)).map fun i => (tilePa c t e.1) / 64 + i

/-- The reads of tile memory of an instruction that starts find what errors there are (10 R310). -/
def unitReads (d : Dev) (c t : Nat) (i : UnitInstr) (ecc : List (Nat × EccFound)) : Dev := eccLines d ecc (extLines c t i.rmem)

/-- A unit instruction put at the end of a unit's queue. -/
def pushUnit (d : Dev) (k : Ctx) (u : UnitSel) (n : UnitNew) : Dev :=
  let x := tileOf d k.c k.t
  let q := unitOf x u
  let i : UnitInstr :=
    { ord := x.ord, blk := k.b.id, slot := k.slot, lane := leader k.p, pc := k.pc, word := k.w, uops := n.uops,
      reads := n.reads, writes := n.writes, rmem := n.rmem, wmem := n.wmem, bind := x.bind, trap := k.b.trap,
      res := {} }
  setTile d k.c k.t (setUnit x u { q with queue := q.queue ++ [i] })

/-- Has a unit's queue room for one more instruction (05 R172)? -/
def unitRoom (x : Tile) (u : UnitSel) : Bool := decide ((unitOf x u).queue.length < unitCap u)

/-- Issue of a unit instruction (04 R126, R152; 05 R172): guard and uniform operands on the leader; a full queue holds the path;
poisoned uniforms fault, then the checks on values, then it takes a place in the unit's queue. -/
def issueUnit (sel : Op → Bool) (u : UnitSel) (us : Ctx → List Nat) (chk : Ctx → List Nat → UnitCheck)
    (p : PathRef) (d : Dev) : Dev :=
  issueLeader p sel d fun d k _ =>
    if !unitRoom k.x u then none else
    let regs := us k
    let lane := leader k.p
    if regs.any (upoison k.g) then some (faultAt d k lane stPoison none) else
    match chk k (regs.map fun r => (ureg k.g r).toNat) with
    | .fault st va => some (faultAt d k lane st va)
    | .ok n => some (pushUnit d k u n)

/-- Do two byte extents overlap? -/
def extOverlap (a b : Nat × Nat) : Bool := decide (a.1 < b.1 + b.2) && decide (b.1 < a.1 + a.2)

/-- Does any extent of one list overlap one of another? -/
def anyOverlap (l m : List (Nat × Nat)) : Bool := l.any fun a => m.any (extOverlap a)

/-- Every unit instruction of a tile that has not started. -/
def unitWaiting (x : Tile) : List UnitInstr := x.mx.queue ++ x.al.queue ++ x.sp.queue ++ x.vx.queue

/-- Every unit instruction of a tile that runs. -/
def unitRunning (x : Tile) : List UnitInstr := x.mx.run ++ x.al.run ++ x.sp.run ++ x.vx.run

/-- Must instruction i wait for the earlier, unstarted instruction j (05 R173, 07 R231, 08 R248)? -/
def waitsUnstarted (i j : UnitInstr) : Bool :=
  decide (j.ord < i.ord) && ((i.reads ||| i.writes) &&& j.writes != 0 || i.writes &&& j.reads != 0 ||
    anyOverlap i.rmem j.wmem || anyOverlap i.wmem j.rmem)

/-- Must instruction i wait for the earlier, running instruction j: one that writes what i reads or writes, or stores
where i reads? A running instruction has read its operands; an `sp.split` waits for it all the same where it reads what
the `sp.split` writes (07 R231). -/
def waitsRunning (i j : UnitInstr) : Bool :=
  decide (j.ord < i.ord) && ((i.reads ||| i.writes) &&& j.writes != 0 || anyOverlap i.rmem j.wmem ||
    (wOp i.word == 0x38 && anyOverlap i.wmem j.rmem))

/-- Does instruction i wait for an earlier one over a register (05 R173)? -/
def regWaits (x : Tile) (i : UnitInstr) : Bool :=
  let bare := fun (j : UnitInstr) => { j with rmem := [], wmem := [] }
  (unitWaiting x).any (fun j => waitsUnstarted (bare i) (bare j)) || (unitRunning x).any fun j => waitsRunning (bare i) (bare j)

/-- Is a unit instruction free of dependences? -/
def depsMet (x : Tile) (i : UnitInstr) : Bool :=
  !(unitWaiting x).any (waitsUnstarted i) && !(unitRunning x).any (waitsRunning i)

/-- The head of a unit's queue moved to its running instructions, with what it will write. -/
def startHead (x : Tile) (u : UnitSel) (i : UnitInstr) : Tile :=
  let q := unitOf x u
  setUnit x u { queue := q.queue.tail, run := q.run ++ [i], last := i.ord }

/-- The running instruction of a unit with an order. -/
def runningAt (x : Tile) (u : UnitSel) (ord : Nat) : Option UnitInstr := (unitOf x u).run.find? fun i => i.ord == ord

/-- A unit without the running instruction of an order. -/
def dropRunning (x : Tile) (u : UnitSel) (ord : Nat) : Tile :=
  let q := unitOf x u
  setUnit x u { q with run := q.run.filter fun i => i.ord != ord }

/-- Puts a list of entries into a map. -/
def putAll {α : Type} [DecidableEq α] (dflt : Nat → α) (m : List (Nat × α)) (es : List (Nat × α)) : List (Nat × α) :=
  es.foldl (fun m e => Sparse.set dflt m e.1 e.2) m

/-- Writes the results of the instruction of an order; moves that the tile issued while it was in flight do not see them (09
R278). -/
def writeRes (d : Dev) (c t ord : Nat) (r : UnitRes) : Dev :=
  let d := hideWrites d c t ord r.mem
  let x := tileOf d c t
  let d := setTile d c t { x with
    acc := putAll noElem x.acc r.acc, vec := putAll noElem x.vec r.vec, xel := putAll noXElem x.xel r.xel }
  writeLines d r.mem

/-- Sets the flags of a mask, from bit 0 to bit 7, in a flags register. -/
def setFlagMask (d : Dev) (off m : Nat) : Dev := (upto 8).foldl (fun d b => flagIf (m.testBit b) d off b) d

/-- What a completing instruction raises: block status, the summary, saturations, the record of an INVALID and its
trap; results are written first (05 R179, R180; 06 R205, R208 to R210; 08 R261). `unit` is the code of XS.INV_AT. -/
def raiseRes (d : Dev) (c t unit : Nat) (i : UnitInstr) (r : UnitRes) : Dev :=
  let queue := match blockOf (tileOf d c t) i.blk with
    | some b => b.queue
    | none => 0
  let d := raiseStatus d c t i.blk r.status
  let d := match r.inv with
    | some e => recordInv d c t e unit queue i.pc
    | none => d
  let d := countSat (xsFlags d c t r.status) c t r.sat
  if i.trap && stHas r.status stInvalid then blockFault d c t i.blk i.slot i.lane i.pc stInvalid none else d

/-- A byte of a tile's memory. -/
def tmByte (d : Dev) (c t off : Nat) : Byte := rawByte d (tilePa c t off)

/-- The poison of the line of a tile's memory that holds an offset. -/
def tmPoison (d : Dev) (c t off : Nat) : Bool := rawPoison d (tilePa c t off / 64)

/-- A signed nibble of a byte: bits [3:0], or [7:4] where `hi`. -/
def nibble (b : Byte) (hi : Bool) : Int := sextNat 4 (b.toNat / (if hi then 16 else 1))

/-- An element of an accumulator. -/
def accAt (x : Tile) (a e : Nat) : Elem := Sparse.get noElem x.acc (a * 4096 + e)

/-- An element of a vector register. -/
def vecAt (x : Tile) (v e : Nat) : Elem := Sparse.get noElem x.vec (v * 4096 + e)

/-- An element of an aligned accumulator. -/
def xelAt (x : Tile) (i e : Nat) : XElem := Sparse.get noXElem x.xel (i * 4096 + e)

/-- The union of the statuses of some results. -/
def orAll (l : List Nat) : Nat := l.foldl (· ||| ·) 0

end Sys2Proof.Machine
end

