-- ==== Sys2Proof/Machine/Aligned.lean ====
section
/-! DEFINITION. Aligned accumulators (06 R189 to R196; 07 R223 to R228): the addition of a term, the value of an element. -/

namespace Sys2Proof.Machine

open Parts

/-- An element with what adding terms to it raised: a discarded bit, saturation, an invalid term. -/
structure XAcc where
  x : XElem
  trunc : Bool := false
  ovf : Bool := false
  inv : Bool := false
  deriving DecidableEq, Repr

/-- The arithmetic right shift of R192, and whether it discarded a non-zero bit. -/
def shiftDown (s : Int) (n : Nat) : Int × Bool := (s / 2 ^ n, s % 2 ^ n != 0)

/-- The largest significand, 2^159 − 1. -/
def sMax : Int := 2 ^ 159 - 1

/-- Adds a term of segment sum p at exponent e (06 R192, R194). A zero term does nothing. -/
def addTerm (a : XAcc) (p e : Int) : XAcc :=
  if p = 0 then a else
  let x := a.x
  let (s, e0, t1) :=
    if x.empty then ((0 : Int), e, false)
    else if x.e < e then (let r := shiftDown x.s (e - x.e).toNat; (r.1, e, r.2))
    else (x.s, x.e, false)
  let sh := e - e0 + 112
  let (q, t2) := if 0 ≤ sh then (p * 2 ^ sh.toNat, false) else shiftDown p (-sh).toNat
  let v := s + q
  let (v, o) := if sMax < v then (sMax, true) else if v < -sMax - 1 then (-sMax - 1, true) else (v, false)
  { a with x := { x with empty := false, s := v, e := e0 }, trunc := a.trunc || t1 || t2, ovf := a.ovf || o }

/-- An invalid term: the element's `nan` bit (06 R195). -/
def invalidTerm (a : XAcc) : XAcc := { a with x := { a.x with nan := true }, inv := true }

/-- The value of an element times 2^sh, as a dyadic number (06 R191). -/
def xelDy (x : XElem) (sh : Int) : Dy := if x.empty then ⟨0, 0⟩ else ⟨x.s, x.e - 112 + sh⟩

/-- The empty element (06 R191, 07 R224). -/
def emptyXel : XElem := {}

/-- AL.FLAGS of a list of element results, poison apart: f_trunc, f_ovf, f_scale (06 R214). -/
def alFlagMask (l : List XAcc) : Nat :=
  b2n (l.any (·.trunc)) + 2 * b2n (l.any (·.ovf)) + 4 * b2n (l.any (·.inv))

/-- The status of a list of element results: OVF and INVALID. -/
def alStatus (l : List XAcc) : Nat := (if l.any (·.ovf) then stOvf else 0) ||| (if l.any (·.inv) then stInvalid else 0)

end Sys2Proof.Machine
end

