-- ==== Sys2Proof/Machine/Matrix.lean ====
section
/-! DEFINITION. The matrix engine (05; 06 R189, R190, R198, R199): issue and checks of `mx.*`, and what each computes. -/

namespace Sys2Proof.Machine

open Parts

/-- The mode of `mx.mma`: 0 OS, 1 WS, 2 ST. -/
def mmaMode (w : Word64) : Nat := fld w 49 48
/-- The type of `mx.mma`: 0 i8, 1 i4, 2 w4a8. -/
def mmaType (w : Word64) : Nat := fld w 47 46
/-- The accumulator. -/
def mmaAcc (w : Word64) : Nat := fld w 45 44
/-- `accum`. -/
def mmaAccum (w : Word64) : Bool := bit w 43
/-- `seg`. -/
def mmaSeg (w : Word64) : Bool := bit w 42
/-- The batch b of ST. -/
def mmaBatch (w : Word64) : Nat := 2 ^ fld w 41 40
/-- The vector register of ST. -/
def mmaVs (w : Word64) : Nat := fld w 39 37
/-- The rows M of WS. -/
def mmaM (w : Word64) : Nat := fld w 26 21 + 1
/-- The depth K. -/
def mmaK (w : Word64) : Nat := fld w 16 0 + 1
/-- N = 4,096/b outputs per batch element of ST. -/
def mmaN (w : Word64) : Nat := 4096 / mmaBatch w
/-- Kt of WS. -/
def mmaKt (w : Word64) : Nat := if mmaType w = 1 then 128 else 64

/-- Rows and columns of the result: element r × columns + c (05 R163). -/
def mmaRows (w : Word64) : Nat := match mmaMode w with | 0 => 64 | 1 => mmaM w | _ => mmaBatch w
/-- The columns of the result. -/
def mmaCols (w : Word64) : Nat := if mmaMode w = 2 then mmaN w else 64

/-- The extent of the operand at u[`ua`] (05 R163). -/
def mmaExtA (w : Word64) : Nat :=
  let k := mmaK w
  let half := ceilDiv k 2
  match mmaMode w with
  | 0 => 64 * (if mmaType w = 1 then half else k)
  | 1 => 4096 * (k / mmaKt w)
  | _ => match mmaType w with
    | 0 => k * mmaN w
    | 1 => half * mmaN w
    | _ => k * mmaN w / 2

/-- The extent of the operand at u[`ub`] in OS and WS. -/
def mmaExtB (w : Word64) : Nat :=
  if mmaMode w = 1 then 64 * mmaM w * (mmaK w / mmaKt w) else mmaExtA w

/-- The activation bytes of ST (05 R167). -/
def mmaActBytes (w : Word64) : Nat :=
  (if mmaType w = 1 then ceilDiv (mmaK w) 2 else mmaK w) * mmaBatch w

/-- The extents of the scale arrays (06 R190). -/
def scaleExt (w : Word64) : Nat × Nat :=
  if mmaMode w = 0 then (2 * mmaK w, 2 * mmaK w) else (mmaN w * mmaK w / 32, mmaBatch w * mmaK w / 32)

/-- The compute count C (05 R164). -/
def mmaC (w : Word64) : Nat :=
  let k := mmaK w
  match mmaMode w with
  | 1 => k / mmaKt w * (max (mmaM w) 3 + 1)
  | _ => if mmaType w = 1 then ceilDiv k 2 else k

/-- The checks of `mx.mma` on uniform values and on the scale arrays of the binding, in their order (05 R170, 06 R199). -/
def mmaCheck (k : Ctx) (vals : List Nat) : UnitCheck :=
  let w := k.w
  let b := k.x.bind
  let ua := listGet 0 vals 0
  let ub := listGet 0 vals 1
  let st := mmaMode w == 2
  let sa := mmaSeg w && b.sa
  let sb := mmaSeg w && b.sb
  let (ea, eb) := scaleExt w
  checked
    [chkAlign ua, chkIllegal (!st && ub % 64 != 0), chkIllegal (sa && b.offA % 64 != 0), chkIllegal (sb && b.offB % 64 != 0),
     chkIllegal (st && decide (0x3FFF < ub)), chkIllegal (st && decide (16384 < ub + mmaActBytes w)),
     chkExtent ua (mmaExtA w), (!st && (chkExtent ub (mmaExtB w)).1, (chkExtent ub 0).2),
     (sa && (chkExtent b.offA ea).1, (chkExtent b.offA 0).2), (sb && (chkExtent b.offB eb).1, (chkExtent b.offB 0).2)]
    { uops := [ua, ub]
      reads := (if mmaAccum w then accBit (mmaAcc w) else 0) + (if st then vecBit (mmaVs w) else 0)
      writes := accBit (mmaAcc w) + (if mmaSeg w then xBit (b2n b.x) else 0)
      rmem := [(ua, mmaExtA w)] ++ (if st then [] else [(ub, mmaExtB w)]) ++ (if sa then [(b.offA, ea)] else []) ++
        (if sb then [(b.offB, eb)] else []) }

/-- `mx.mma` is checked and queued (05 R162 to R172). -/
def execMxMma (p : PathRef) (s : State) : Out := act s fun d =>
  issueUnit (fun o => match o with | .mma => true | _ => false) .mx (fun k => [fld k.w 36 32, fld k.w 31 27]) mmaCheck p d

/-- The accumulator-management instruction with a code. -/
def isMxAcc (fn : Nat) (o : Op) : Bool := match o with | .mxAcc f => f == fn | _ => false

/-- `mx.zero` (05 R171). -/
def execMxZero (p : PathRef) (s : State) : Out := act s fun d =>
  issueUnit (isMxAcc 0) .mx (fun _ => []) (fun k _ => .ok { writes := accBit (mmaAcc k.w) }) p d

/-- `mx.st.acc` (05 R170, R171). -/
def execMxStAcc (p : PathRef) (s : State) : Out := act s fun d =>
  issueUnit (isMxAcc 1) .mx (fun k => [fld k.w 36 32]) (fun k vals =>
    let u := vals.headD 0
    checked [chkAlign u, chkExtent u 16384] { uops := [u], reads := accBit (mmaAcc k.w), wmem := [(u, 16384)] }) p d

/-- `mx.ld.acc` (05 R170, R171). -/
def execMxLdAcc (p : PathRef) (s : State) : Out := act s fun d =>
  issueUnit (isMxAcc 2) .mx (fun k => [fld k.w 36 32]) (fun k vals =>
    let u := vals.headD 0
    checked [chkAlign u, chkExtent u 16384] { uops := [u], writes := accBit (mmaAcc k.w), rmem := [(u, 16384)] }) p d

/-- `mx.sync` takes its place in the engine's queue, where there is room, and holds its path (05 R172, R178). -/
def execMxSync (p : PathRef) (s : State) : Out := act s fun d =>
  issueLeader p (isMxAcc 3) d fun d k _ =>
    if !unitRoom k.x .mx then none
    else some (updPath (pushUnit d k .mx {}) k fun q => { q with st := .mxSync k.x.ord })

/-- Is a word `mx.sync`? -/
def isSync (w : Word64) : Bool := wOp w == 0x31 && fld w 49 46 == 3

/-- Have the unit instructions that a block issued before an order all completed (05 R178, 07 R231)? An earlier `mx.sync` has
nothing to complete. -/
def syncDone (x : Tile) (blk ord : Nat) : Bool :=
  (unitWaiting x ++ unitRunning x).all fun i => isSync i.word || !(i.blk == blk && decide (i.ord < ord))

/-- The unit instructions an `mx.sync` waits for have completed and its path may issue (05 R178). -/
def execMxSyncRelease (p : PathRef) (s : State) : Out := act s fun d =>
  let x := tileOf d p.cd p.tile
  setPathState d p.cd p.tile p.slot p.lane fun q =>
    match q.st, groupAt x p.slot with
    | .mxSync ord, some g => if syncDone x g.blk ord then { q with st := .ready } else q
    | _, _ => q

/-! What the instructions compute. -/

/-- A signed byte of tile memory with its line's poison. -/
def tmInt (d : Dev) (c t off : Nat) : Int × Bool := ((tmByte d c t off).toInt, tmPoison d c t off)

/-- A signed nibble of tile memory with its line's poison. -/
def tmNib (d : Dev) (c t off : Nat) (hi : Bool) : Int × Bool := (nibble (tmByte d c t off) hi, tmPoison d c t off)

/-- A byte of a vector register, with its element's poison (05 R163, 08 R240). -/
def vecByte (x : Tile) (v i : Nat) : Byte × Bool :=
  let e := vecAt x v (i / 4)
  (BitVec.ofNat 8 (e.v.toNat >>> (8 * (i % 4))), e.p)

/-- The operand of row r at depth k: A, X or the activations (05 R163). -/
def mmaRowVal (d : Dev) (c t : Nat) (w : Word64) (ua ub r k : Nat) : Int × Bool :=
  match mmaMode w with
  | 0 => if mmaType w = 1 then tmNib d c t (ua + 64 * (k / 2) + r) (k % 2 == 1) else tmInt d c t (ua + 64 * k + r)
  | 1 =>
    let kt := mmaKt w
    let base := ub + 64 * (k / kt * mmaM w + r)
    if mmaType w = 1 then tmNib d c t (base + k % kt / 2) (k % 2 == 1) else tmInt d c t (base + k % kt)
  | _ =>
    let (b, p) := vecByte (tileOf d c t) (mmaVs w)
      (ub + (if mmaType w = 1 then k / 2 else k) * mmaBatch w + r)
    if mmaType w = 1 then (nibble b (k % 2 == 1), p) else (b.toInt, p)

/-- The operand of column n at depth k: B or the weights (05 R163). -/
def mmaColVal (d : Dev) (c t : Nat) (w : Word64) (ua ub n k : Nat) : Int × Bool :=
  match mmaMode w with
  | 0 => if mmaType w = 1 then tmNib d c t (ub + 64 * (k / 2) + n) (k % 2 == 1) else tmInt d c t (ub + 64 * k + n)
  | 1 =>
    let kt := mmaKt w
    let base := ua + 4096 * (k / kt)
    let i := n * kt + k % kt
    if mmaType w = 1 then tmNib d c t (base + i / 2) (i % 2 == 1) else tmInt d c t (base + i)
  | _ => match mmaType w with
    | 0 => tmInt d c t (ua + k * mmaN w + n)
    | 1 => tmNib d c t (ua + k / 2 * mmaN w + n) (k % 2 == 1)
    | _ => tmNib d c t (ua + k * mmaN w / 2 + n / 2) (n % 2 == 1)

/-- The exact sum of products over a range of depths, with poison (05 R162, R180). -/
def mmaSum (row col : Nat → Int × Bool) (lo n : Nat) : Int × Bool :=
  (upto n).foldl (fun (s : Int × Bool) i =>
    let a := row (lo + i)
    let b := col (lo + i)
    (s.1 + a.1 * b.1, s.2 || a.2 || b.2)) (0, false)

/-- The contents an accumulating instruction adds to: what the latest running instruction that writes the element will
write, where it chains onto that, or the accumulator's (05 R174). -/
def priorAcc (x : Tile) (a e : Nat) : Elem :=
  match x.mx.run.reverse.findSome? fun j => j.res.acc.find? fun r => r.1 == a * 4096 + e with
  | some r => r.2
  | none => accAt x a e

/-- May `mx.mma` chain onto the instruction that the engine started immediately before it, which still runs (05 R174)? -/
def chains (x : Tile) (i : UnitInstr) : Bool :=
  wOp i.word == 0x30 && mmaAccum i.word && (match runningAt x .mx x.mx.last with
    | none => false
    | some j =>
      let a := accBit (mmaAcc i.word)
      wOp j.word == 0x30 && mmaAcc j.word == mmaAcc i.word && !(unitWaiting x).any (waitsUnstarted i) &&
        (unitRunning x).all fun k =>
          !waitsRunning i (if k.ord = j.ord then { k with writes := k.writes &&& (2 ^ 14 - 1 - a) } else k))

/-- A signed 32-bit value held to its range, and whether it left it (05 R179). -/
def sat32 (v : Int) : Word32 × Bool :=
  let r := clampInt (-(2 ^ 31)) (2 ^ 31 - 1) v
  (BitVec.ofInt 32 r.v, r.sat)

/-- The engine's result of `mx.mma`: accumulator elements, OVF, poison; with `seg` the sums of the last segment
(05 R162, R179, R180, R182). -/
def mmaEngine (d : Dev) (c t : Nat) (i : UnitInstr) : UnitRes :=
  let w := i.word
  let x := tileOf d c t
  let ua := listGet 0 i.uops 0
  let ub := listGet 0 i.uops 1
  let cols := mmaCols w
  let a := mmaAcc w
  let (lo, n) := if mmaSeg w then (mmaK w - 32, 32) else (0, mmaK w)
  let es := (upto (mmaRows w * cols)).map fun e =>
    let s := mmaSum (mmaRowVal d c t w ua ub (e / cols)) (mmaColVal d c t w ua ub (e % cols)) lo n
    let old := priorAcc x a e
    let v := sat32 (s.1 + if mmaAccum w then old.v.toInt else 0)
    ((a * 4096 + e, (⟨v.1, s.2 || (mmaAccum w && old.p)⟩ : Elem)), v.2, s.2)
  let ovf := es.any (·.2.1)
  let poison := es.any (·.2.2)
  { acc := es.map (·.1)
    status := (if ovf then stOvf else 0) ||| (if poison then stPoison else 0)
    flags := b2n ovf + 2 * b2n poison }

/-- A scale code of the binding: 0 where its side is disabled, none where it is invalid (06 R188, R189). -/
def scaleAt (d : Dev) (c t : Nat) (en : Bool) (off : Nat) : Option Int :=
  if !en then some 0
  else
    let b := tmByte d c t off
    if b = 0x80 then none else some b.toInt

/-- The aligner's result of an `mx.mma` with `seg` (06 R189 to R196). -/
def mmaAligned (d : Dev) (c t : Nat) (i : UnitInstr) : UnitRes :=
  let w := i.word
  let x := tileOf d c t
  let b := i.bind
  let ua := listGet 0 i.uops 0
  let ub := listGet 0 i.uops 1
  let cols := mmaCols w
  let st := mmaMode w == 2
  let es := (upto 4096).map fun e =>
    let r := e / cols
    let n := e % cols
    let step := fun (acc : XAcc × Bool) sg =>
      let s := mmaSum (mmaRowVal d c t w ua ub r) (mmaColVal d c t w ua ub n) (32 * sg) 32
      let oa := if st then b.offA + sg * mmaN w + n else b.offA + 64 * sg + r
      let ob := if st then b.offB + sg * mmaBatch w + r else b.offB + 64 * sg + n
      let p := s.2 || (b.sa && tmPoison d c t oa) || (b.sb && tmPoison d c t ob)
      let a := match scaleAt d c t b.sa oa, scaleAt d c t b.sb ob with
        | some sa, some sb => addTerm acc.1 s.1 (sa + sb)
        | _, _ => invalidTerm acc.1
      (a, acc.2 || p)
    let old := xelAt x (b2n b.x) e
    let z := (upto (mmaK w / 32)).foldl step (⟨old, false, false, false⟩, false)
    (e, { z.1 with x := { z.1.x with p := old.p || z.2 } }, z.2 && !old.p)
  let zs := es.map (·.2.1)
  let poison := es.any (·.2.2)
  { xel := es.map fun z => (b2n b.x * 4096 + z.1, z.2.1.x)
    status := alStatus zs ||| (if poison then stPoison else 0)
    alFlags := alFlagMask zs + 8 * b2n poison
    inv := (es.find? fun z => z.2.1.inv).map (·.1) }

/-- The bytes of a 64 B line of an accumulator in memory (05 R171). -/
def accLine (x : Tile) (a ln : Nat) : Line × Bool :=
  let es := (upto 16).map fun j => accAt x a (16 * ln + j)
  (BitVec.ofNat 512 (leNat (es.flatMap fun e => leBytes 4 e.v.toNat)), es.any (·.p))

/-- `mx.st.acc` (05 R171). -/
def stAccRes (d : Dev) (c t : Nat) (i : UnitInstr) : UnitRes :=
  let x := tileOf d c t
  let off := listGet 0 i.uops 0
  { mem := (upto 256).map fun ln =>
      let l := accLine x (mmaAcc i.word) ln
      ⟨tilePa c t (off + 64 * ln) / 64, l.1, fullMask, l.2⟩ }

/-- `mx.ld.acc` (05 R171, R180). -/
def ldAccRes (d : Dev) (c t : Nat) (i : UnitInstr) : UnitRes :=
  let off := listGet 0 i.uops 0
  let a := mmaAcc i.word
  let poison := (upto 256).any fun ln => tmPoison d c t (off + 64 * ln)
  { acc := (upto 4096).map fun e =>
      (a * 4096 + e, ⟨BitVec.ofNat 32 (leNat ((upto 4).map fun j => tmByte d c t (off + 4 * e + j))),
        tmPoison d c t (off + 4 * e)⟩)
    status := if poison then stPoison else 0
    flags := 2 * b2n poison }

/-- `mx.zero` (05 R171). -/
def zeroAccRes (i : UnitInstr) : UnitRes := { acc := (upto 4096).map fun e => (mmaAcc i.word * 4096 + e, {}) }

end Sys2Proof.Machine
end

