-- ==== Sys2Proof/Machine/Split.lean ====
section
/-! DEFINITION. Split arithmetic (07): issue of `sp.*`, slicing, slice-pair passes, the host-assisted call. -/

namespace Sys2Proof.Machine

open Parts

/-- The format of `sp.split` and `sp.mma`: 0 FP64, 1 FP32, 2 BF16. -/
def spFmt (w : Word64) : Nat := fld w 49 48
/-- The slice count s (07, slices). -/
def spSlices (f : Nat) : Nat := match f with | 0 => 8 | 1 => 4 | _ => 2
/-- The bytes of an element. -/
def spBytes (f : Nat) : Nat := match f with | 0 => 8 | 1 => 4 | _ => 2
/-- The floating-point format. -/
def spFp (f : Nat) : FpFmt := match f with | 0 => f64 | 1 => f32 | _ => bf16
/-- The extent of a split panel (07 R219). -/
def spExtent (f k : Nat) : Nat := k * (64 * spSlices f + 36)

/-- Checks of `sp.split` on uniform values (07 R230). -/
def splitCheck (k : Ctx) (vals : List Nat) : UnitCheck :=
  let w := k.w
  let f := spFmt w
  let n := mmaK w
  let ua := listGet 0 vals 0
  let ub := listGet 0 vals 1
  let src := 64 * spBytes f * n
  checked
    [chkAlign ua, chkAlign ub, chkIllegal (extOverlap (ua, src) (ub, spExtent f n)), chkExtent ua src,
     chkExtent ub (spExtent f n)]
    { uops := [ua, ub], rmem := [(ua, src)], wmem := [(ub, spExtent f n)] }

/-- Checks of `sp.mma` on uniform values (07 R230). -/
def spMmaCheck (k : Ctx) (vals : List Nat) : UnitCheck :=
  let w := k.w
  let n := spExtent (spFmt w) (mmaK w)
  let ua := listGet 0 vals 0
  let ub := listGet 0 vals 1
  checked [chkAlign ua, chkAlign ub, chkExtent ua n, chkExtent ub n]
    { uops := [ua, ub], reads := if bit w 43 then xBit (fld w 45 45) else 0, writes := xBit (fld w 45 45),
      rmem := [(ua, n), (ub, n)] }

/-- What `sp.rd.*` reads and writes (07 R227). -/
def spRdNew (k : Ctx) (_ : List Nat) : UnitCheck :=
  let a := fld k.w 44 43
  .ok { reads := xBit (fld k.w 45 45), writes := accBit a + (if fld k.w 49 46 = 0 then accBit (a + 1) else 0) }

/-- The call that a split instruction is in host-assisted mode (07 R234): t63 of the path's threads receives the index
of the next word, and the path goes to the instruction's own index plus its immediate offset. -/
def assistCall (d : Dev) (k : Ctx) : Dev :=
  let dest := wrapInt 54 ((k.pc : Int) + sextNat 32 (fld (k.imms.headD 0) 31 0))
  let d := updGroup d k fun g => setLanes g (laneList k.p.lanes) fun _ t => setTreg t 63 (BitVec.ofNat 32 (k.pc + 2)) false
  setFlag (updPath d k fun q => { q with pc := dest }) (regOff k.c 0x0B k.t 1) 4

/-- Issue of a split instruction (07 R230, R234, R235): ABSENT on a CDb, the checks, then the call in host-assisted mode,
else a place in the unit's queue. -/
def issueSplit (sel : Op → Bool) (u : UnitSel) (us : Ctx → List Nat) (chk : Ctx → List Nat → UnitCheck)
    (p : PathRef) (d : Dev) : Dev :=
  if !cdFull d p.cd then
    issueLeader p sel d fun d k _ => some (raiseStatus d k.c k.t k.b.id stAbsent)
  else if (tileOf d p.cd p.tile).split then
    issueLeader p sel d fun d k _ =>
      let lane := leader k.p
      if (us k).any (upoison k.g) then some (faultAt d k lane stPoison none) else
      match chk k ((us k).map fun r => (ureg k.g r).toNat) with
      | .fault st va => some (faultAt d k lane st va)
      | .ok _ => some (assistCall d k)
  else issueUnit sel u us chk p d

/-- The uniform registers of `sp.split` and `sp.mma`. -/
def spUs (k : Ctx) : List Nat := [fld k.w 36 32, fld k.w 31 27]

/-- `sp.split` (07 R219, R220, R230). -/
def execSpSplit (p : PathRef) (s : State) : Out := act s fun d =>
  issueSplit (fun o => match o with | .spSplit => true | _ => false) .sp spUs splitCheck p d

/-- `sp.mma` (07 R221, R230); it waits in the engine's queue. -/
def execSpMma (p : PathRef) (s : State) : Out := act s fun d =>
  issueSplit (fun o => match o with | .spMma => true | _ => false) .mx spUs spMmaCheck p d

/-- Is an instruction `sp.rd.*` of a format? -/
def isSpRd (f : Nat) (o : Op) : Bool := match o with | .spRd g => g == f | _ => false

/-- `sp.rd.f64` (07 R227). -/
def execSpRdF64 (p : PathRef) (s : State) : Out := act s fun d => issueSplit (isSpRd 0) .al (fun _ => []) spRdNew p d

/-- `sp.rd.f32` (07 R227). -/
def execSpRdF32 (p : PathRef) (s : State) : Out := act s fun d => issueSplit (isSpRd 1) .al (fun _ => []) spRdNew p d

/-- `sp.rd.bf16` (07 R227). -/
def execSpRdBf16 (p : PathRef) (s : State) : Out := act s fun d => issueSplit (isSpRd 2) .al (fun _ => []) spRdNew p d

/-! Slicing. -/

/-- ⌊log₂|x|⌋ of a finite non-zero element (07 R216). -/
def fpLog (x : Fp) : Option Int :=
  match x with
  | .fin _ m e => if m = 0 then none else some (Nat.log2 m + e)
  | _ => none

/-- ⌊x / u⌋ for u = 2^ue; 0 for zeros, infinities and NaNs (07 R216). -/
def fpFix (x : Fp) (ue : Int) : Int :=
  match x with
  | .fin s m e =>
    let v : Int := if s then -(m : Int) else m
    if ue ≤ e then v * 2 ^ (e - ue).toNat else v / 2 ^ (ue - e).toNat
  | _ => 0

/-- The tag of an element (07 R218). -/
def fpTag (x : Fp) : Nat :=
  match x with
  | .fin _ m _ => if m = 0 then 1 else 0
  | .inf s => if s then 3 else 2
  | .nan sig => if sig then 5 else 4

/-- Slice i of s of a fixed-point value (07 R216). -/
def sliceOf (s i : Nat) (x : Int) : Nat :=
  if i = 0 then wrapInt 8 (x / 2 ^ (7 * (s - 1))) else wrapInt 7 (x / 2 ^ (7 * (s - 1 - i)))

/-- E_blk of a block of elements; none for an empty block (07 R216). -/
def blockExp (xs : List Fp) : Option Int :=
  xs.foldl (fun b x => match fpLog x, b with
    | some l, some b => some (max l b)
    | some l, none => some l
    | none, b => b) none

/-- A source element of `sp.split`: column k, index m, with its line's poison. -/
def srcElem (d : Dev) (c t f ua k m : Nat) : Fp × Bool :=
  let n := spBytes f
  let off := ua + n * (64 * k + m)
  (fpUnpack (spFp f) (leNat ((upto n).map fun j => tmByte d c t (off + j))), tmPoison d c t off)

/-- A line of 64 bytes, from a function of the byte's index. -/
def mkLine (f : Nat → Nat) : Line := BitVec.ofNat 512 (leNat ((upto 64).map fun i => BitVec.ofNat 8 (f i)))

/-- What `sp.split` writes (07 R216 to R220): slice lines, exponent lines, tag lines, with their poison. -/
def splitRes (d : Dev) (c t : Nat) (i : UnitInstr) : UnitRes :=
  let w := i.word
  let f := spFmt w
  let s := spSlices f
  let k := mmaK w
  let ua := listGet 0 i.uops 0
  let ub := listGet 0 i.uops 1
  let el := srcElem d c t f ua
  let exp := fun sg m => blockExp ((upto 32).map fun j => (el (32 * sg + j) m).1)
  let bad := fun sg m => (upto 32).any fun j => (el (32 * sg + j) m).2
  let line := fun off (data : Line) p => (⟨tilePa c t off / 64, data, fullMask, p⟩ : LineWrite)
  let slices := (upto s).flatMap fun sl => (upto k).map fun kk =>
    line (ub + 64 * k * sl + 64 * kk)
      (mkLine fun m => match exp (kk / 32) m with
        | some e => sliceOf s sl (fpFix (el kk m).1 (e - 7 * s + 1))
        | none => 0)
      ((upto 64).any (bad (kk / 32)))
  let exps := (upto (k / 32)).flatMap fun sg => (upto 2).map fun h =>
    line (ub + 64 * k * s + 128 * sg + 64 * h)
      (mkLine fun i =>
        let m := 32 * h + i / 2
        let e := match exp sg m with
          | some e => wrapInt 16 e
          | none => 0x8000
        e / 256 ^ (i % 2) % 256)
      ((upto 32).any fun j => bad sg (32 * h + j))
  let tags := (upto (k / 2)).map fun q =>
    line (ub + 64 * k * s + 4 * k + 64 * q)
      (mkLine fun i =>
        let kk := 2 * q + i / 32
        let m := 2 * (i % 32)
        fpTag (el kk m).1 + 16 * fpTag (el kk (m + 1)).1)
      ((upto 64).any fun m => (el (2 * q) m).2 || (el (2 * q + 1) m).2)
  let ls := slices ++ exps ++ tags
  { mem := ls, flags := if ls.any (·.poison) then 8 else 0 }

/-! Slice-pair passes. -/

/-- Slice i of element m at depth k of a split panel. -/
def panelSlice (d : Dev) (c t off k i kk m : Nat) : Int := (tmByte d c t (off + 64 * k * i + 64 * kk + m)).toInt

/-- E_blk of block σ of element m of a split panel (07 R219). -/
def panelExp (d : Dev) (c t off k s sg m : Nat) : Int :=
  sextNat 16 (leNat ((upto 2).map fun j => tmByte d c t (off + 64 * k * s + 128 * sg + 2 * m + j)))

/-- The tag of element m at depth k; reserved tags act as quiet NaNs (07 R218, R219). -/
def panelTag (d : Dev) (c t off k s kk m : Nat) : Nat :=
  let b := (tmByte d c t (off + 64 * k * s + 4 * k + 32 * kk + m / 2)).toNat
  let g := if m % 2 = 0 then b % 16 else b / 16
  if 6 ≤ g then 4 else g

/-- Is a line that is read for element m of a split panel poisoned (07 R225)? -/
def panelPoison (d : Dev) (c t off k s m : Nat) : Bool :=
  (upto (s * k)).any (fun i => tmPoison d c t (off + 64 * i)) ||
    (upto (k / 32)).any (fun sg => tmPoison d c t (off + 64 * k * s + 128 * sg + 2 * m)) ||
    (upto (k / 2)).any (fun q => tmPoison d c t (off + 64 * k * s + 4 * k + 64 * q))

/-- The classification of an output element (07 R223). -/
inductive SpClass where
  | snan
  | zinf
  | nan
  | inf (neg : Bool)
  | finite
  deriving DecidableEq, Repr

/-- Is a tag an infinity's? -/
def tagInf (g : Nat) : Bool := g == 2 || g == 3

/-- The tags of the operands of one depth, with whether each operand is negative. -/
abbrev TagPair := (Nat × Bool) × (Nat × Bool)

/-- Is the product of a pair an infinity of a sign? -/
def infProduct (neg : Bool) (p : TagPair) : Bool :=
  (tagInf p.1.1 || tagInf p.2.1) && !(p.1.1 == 1 || p.2.1 == 1) && decide (p.1.1 ≤ 3) && decide (p.2.1 ≤ 3) &&
    ((p.1.2 != p.2.2) == neg)

/-- The classification of R223; `held` is the element's earlier state where `accum` is 1. -/
def classify (ps : List TagPair) (held : XElem) : SpClass :=
  let pos := held.pinf || ps.any (infProduct false)
  let neg := held.ninf || ps.any (infProduct true)
  if ps.any fun p => p.1.1 == 5 || p.2.1 == 5 then .snan
  else if ps.any fun p => (p.1.1 == 1 && tagInf p.2.1) || (tagInf p.1.1 && p.2.1 == 1) then .zinf
  else if pos && neg then .zinf
  else if held.nan || ps.any fun p => p.1.1 == 4 || p.2.1 == 4 then .nan
  else if pos then .inf false
  else if neg then .inf true
  else .finite

/-- An element after its classification (07 R223, R224). -/
def applyClass (x : XElem) : SpClass → XElem
  | .snan => { x with nan := true }
  | .zinf => { x with nan := true }
  | .nan => { x with nan := true }
  | .inf false => { x with pinf := true }
  | .inf true => { x with ninf := true }
  | .finite => x

/-- The passes in order: pair weight t, a-slice i (07 R221). -/
def spPairs (s : Nat) : List (Nat × Nat) := (upto s).flatMap fun t => (upto (t + 1)).map fun i => (t, i)

/-- The finite sum of one output element (07 R221). -/
def spSum (d : Dev) (c t ua ub k s m n : Nat) (x : XElem) : XAcc :=
  (spPairs s).foldl (fun a p =>
    (upto (k / 32)).foldl (fun a sg =>
      let sum := (upto 32).foldl (fun (v : Int) j =>
        v + panelSlice d c t ua k p.2 (32 * sg + j) m * panelSlice d c t ub k (p.1 - p.2) (32 * sg + j) n) 0
      addTerm a sum (panelExp d c t ua k s sg m + panelExp d c t ub k s sg n - 12 - 7 * p.1)) a) ⟨x, false, false, false⟩

/-- The tag and sign of an operand. -/
def panelOperand (d : Dev) (c t off k s kk m : Nat) : Nat × Bool :=
  let g := panelTag d c t off k s kk m
  (g, g == 3 || (g == 0 && decide (panelSlice d c t off k 0 kk m < 0)))

/-- The number of passes of `sp.mma`. -/
def spPassCount (w : Word64) : Nat := let s := spSlices (spFmt w); s * (s + 1) / 2

/-- The aligner's result of `sp.mma` (07 R221 to R225). -/
def spMmaRes (d : Dev) (c t : Nat) (i : UnitInstr) : UnitRes :=
  let w := i.word
  let s := spSlices (spFmt w)
  let k := mmaK w
  let ua := listGet 0 i.uops 0
  let ub := listGet 0 i.uops 1
  let xi := fld w 45 45
  let tile := tileOf d c t
  let es := (upto 4096).map fun e =>
    let m := e / 64
    let n := e % 64
    let old := if bit w 43 then xelAt tile xi e else emptyXel
    let cl := classify ((upto k).map fun kk => (panelOperand d c t ua k s kk m, panelOperand d c t ub k s kk n)) old
    let a := spSum d c t ua ub k s m n old
    let p := panelPoison d c t ua k s m || panelPoison d c t ub k s n
    (e, { a with x := { applyClass a.x cl with p := old.p || p } }, cl, p && !old.p)
  let zs := es.map (·.2.1)
  let is := fun (f : SpClass → Bool) => es.any fun z => f z.2.2.1
  let zinf := is (· == .zinf)
  let snan := is (· == .snan)
  let special := is (· != .finite)
  let poison := es.any (·.2.2.2)
  { xel := es.map fun z => (xi * 4096 + z.1, z.2.1.x)
    status := alStatus zs ||| (if zinf || snan then stInvalid else 0) ||| (if poison then stPoison else 0)
    flags := b2n zinf + 2 * b2n snan + 4 * b2n special + 8 * b2n poison
    alFlags := alFlagMask zs + 8 * b2n poison
    inv := (es.find? fun z => z.2.2.1 == .zinf || z.2.2.1 == .snan).map (·.1) }

end Sys2Proof.Machine
end

