-- ==== Sys2Proof/Machine/Aligner.lean ====
section
/-! DEFINITION. The aligner (06 R197 to R201, R206; 07 R227, R228): issue of `al.*`, and the read-out of aligned
accumulators. -/

namespace Sys2Proof.Machine

open Parts

/-- Is an instruction the aligner's with a code? -/
def isAl (fn : Nat) (o : Op) : Bool := match o with | .al f => f == fn | _ => false

/-- `al.bind` takes effect at its issue (06 R197, R198). -/
def execAlBind (p : PathRef) (s : State) : Out := act s fun d =>
  issueLeader p (isAl 0) d fun d k _ =>
    let ua := fld k.w 36 32
    let ub := fld k.w 31 27
    if upoison k.g ua || upoison k.g ub then some (faultAt d k (leader k.p) stPoison none) else
    let x := tileOf d k.c k.t
    some (setTile d k.c k.t { x with
      bind := ⟨bit k.w 45, (ureg k.g ua).toNat, (ureg k.g ub).toNat, bit k.w 44, bit k.w 43⟩ })

/-- `al.zero` (06 R197). -/
def execAlZero (p : PathRef) (s : State) : Out := act s fun d =>
  issueUnit (isAl 1) .al (fun _ => []) (fun k _ => .ok { writes := xBit (fld k.w 45 45) }) p d

/-- What `al.rd.*` reads and writes. -/
def alRdNew (k : Ctx) (_ : List Nat) : UnitCheck :=
  .ok { reads := xBit (fld k.w 45 45), writes := accBit (fld k.w 44 43) }

/-- `al.rd.i32` (06 R197, R206). -/
def execAlRdI32 (p : PathRef) (s : State) : Out := act s fun d => issueUnit (isAl 2) .al (fun _ => []) alRdNew p d

/-- `al.rd.f32` (06 R197, R206). -/
def execAlRdF32 (p : PathRef) (s : State) : Out := act s fun d => issueUnit (isAl 3) .al (fun _ => []) alRdNew p d

/-- The scaling of a read-out. -/
def rdShift (w : Word64) : Int := sextNat 8 (fld w 23 16)

/-- An element read as INT32 (06 R204, R206; 07 R228): value and status. -/
def rdI32 (mode : Rnd) (sh : Int) (x : XElem) : Word32 × Nat :=
  if x.nan then (0, stInvalid)
  else if x.pinf then (0x7FFFFFFF, stSat)
  else if x.ninf then (0x80000000, stSat)
  else
    let r := dyToInt mode (-(2 ^ 31)) (2 ^ 31 - 1) (xelDy x sh)
    (BitVec.ofInt 32 r.v, if r.sat then stSat else 0)

/-- An element read in a floating-point format (06 R206, 07 R227): bits and status. -/
def rdFp (f : FpFmt) (mode : Rnd) (sh : Int) (x : XElem) : Nat × Nat :=
  if x.nan then (fpDefaultNan f, 0)
  else if x.pinf then (fpInf f false, 0)
  else if x.ninf then (fpInf f true, 0)
  else
    let r := fpRoundDy f mode (xelDy x sh) false
    (r.bits, if r.ovf then stOvf else 0)

/-- The result of `al.rd.*` and `sp.rd.*`: the words of each element for the destinations, one after the other. -/
def readRes (x : Tile) (w : Word64) (conv : XElem → List Word32 × Nat) (sp : Bool) : UnitRes :=
  let a := fld w 44 43
  let es := (upto 4096).map fun e =>
    let z := xelAt x (fld w 45 45) e
    (e, conv z, z.p)
  let st := orAll (es.map (·.2.1.2))
  let poison := es.any (·.2.2)
  { acc := (upto 2).flatMap fun j => es.filterMap fun z =>
      (z.2.1.1[j]?).map fun v => ((a + j) * 4096 + z.1, (⟨v, z.2.2⟩ : Elem))
    status := st ||| (if poison then stPoison else 0)
    flags := if sp && poison then 8 else 0
    alFlags := if !sp && poison then 8 else 0
    sat := (es.filter fun z => stHas z.2.1.2 stSat).length
    inv := (es.find? fun z => stHas z.2.1.2 stInvalid).map (·.1) }

/-- What an instruction of the aligner's queue writes (06 R197; 07 R227). -/
def alignerRes (x : Tile) (i : UnitInstr) : UnitRes :=
  let w := i.word
  let mode := rndOf (fld w 42 41)
  let sh := rdShift w
  let fn := fld w 49 46
  if wOp w = 0x3A then
    (if fn = 1 then { xel := (upto 4096).map fun e => (fld w 45 45 * 4096 + e, emptyXel) }
     else if fn = 2 then readRes x w (fun z => let r := rdI32 mode sh z; ([r.1], r.2)) false
     else readRes x w (fun z => let r := rdFp f32 mode sh z; ([BitVec.ofNat 32 r.1], r.2)) false)
  else
    match fn with
    | 0 => readRes x w (fun z =>
        let r := rdFp f64 mode sh z
        ([BitVec.ofNat 32 r.1, BitVec.ofNat 32 (r.1 / 2 ^ 32)], r.2)) true
    | 1 => readRes x w (fun z => let r := rdFp f32 mode sh z; ([BitVec.ofNat 32 r.1], r.2)) true
    | _ => readRes x w (fun z => let r := rdFp bf16 mode sh z; ([BitVec.ofNat 32 r.1], r.2)) true

end Sys2Proof.Machine
end

