-- ==== Sys2Proof/Machine/Health.lean ====
section
/-! DEFINITION. Health events and upward messages (19 R584, R586, R589). -/

namespace Sys2Proof.Machine

open Parts

/-- A register of the MGT unit. -/
def mgtOff (reg : Nat) : Nat := regOff 5 0x2B 0 reg

/-- Where the package sends (19 R583, R586): to its parent, or to all routers while it has no operator record. -/
def mgtParent (d : Dev) : MgtAddr :=
  match d.mg.operator with
  | some o => .node o.parent
  | none => .routers

/-- Sends a message to an address, if the lane is up. -/
def mgtSendTo (d : Dev) (to_ : MgtAddr) (m : UpMsg) : Dev :=
  if d.mg.link = 2 then { d with mg := { d.mg with sent := d.mg.sent ++ [⟨to_, m⟩] } } else d

/-- Sends a message to where the package sends. -/
def mgtSend (d : Dev) (m : UpMsg) : Dev := mgtSendTo d (mgtParent d) m

/-- Queues an acknowledged message; a copy goes out at once where an operator record exists (19 R584, R586). -/
def mgtQueue (d : Dev) (b : UpBody) : Dev :=
  let m : UpMsg := ⟨d.mg.seq, b⟩
  let d := { d with mg := { d.mg with seq := d.mg.seq + 1, queue := d.mg.queue ++ [m] } }
  if d.mg.operator.isSome then mgtSend d m else d

/-- Sends a message that is not acknowledged to an address. -/
def mgtTellTo (d : Dev) (to_ : MgtAddr) (b : UpBody) : Dev :=
  mgtSendTo { d with mg := { d.mg with seq := d.mg.seq + 1 } } to_ ⟨d.mg.seq, b⟩

/-- Sends a message that is not acknowledged to where the package sends. -/
def mgtTell (d : Dev) (b : UpBody) : Dev := mgtTellTo d (mgtParent d) b

/-- A health event (19 R584, R589): chime entry 4,738, MGT.LAST, its flag, and a HEALTH message, or one more lost
where the package already holds 256 upward messages. -/
def healthEvent (d : Dev) (code die inst detail : Nat) : Dev :=
  let d := raiseChime d 4738
  let d := setReg d (mgtOff 2) (BitVec.ofNat 32 (code % 256 + die % 16 * 256 + inst % 65536 * 4096))
  let d := setFlag d (mgtOff 3) 0
  if 256 ≤ d.mg.queue.length then
    setFlag { d with mg := { d.mg with lost := d.mg.lost + 1 } } (mgtOff 3) 2
  else
    let l := d.mg.lost
    mgtQueue { d with mg := { d.mg with lost := 0 } } (.health l ⟨code, die, inst, detail, reg64 d hdPcntOff⟩)

/-! Management writes (03 R85; 18 R560, R561; 19 R587): each is held apart and taken alone, after the buffered writes. -/

/-- Tells the parent how a management write ended (18 R561, 19 R587): 0 OK, 2 STALE. -/
def mgmtEnd (d : Dev) (w : MgmtWrite) (code : Nat) : Dev := mgtQueue d (.result w.cmd code 0)

/-- A management write is held no more. -/
def dropMgmt (d : Dev) (w : MgmtWrite) : Dev := { d with rg := { d.rg with mgmt := d.rg.mgmt.erase w } }

/-- The bits of a management write that a boundary for `bits` takes: buffered, voted, RW and W1C-S ones; a command bit
written 0 has no effect (03 R84). -/
def mgmtBits (w : MgmtWrite) (bits : Word32) : Word32 :=
  w.mask &&& bits &&& (writable w.off ||| clearable w.off) &&& ~~~ (cmdBits w.off &&& ~~~ w.value)

/-- A management write whose generation is not the instance's (18 R561): STALE, and no effect. -/
def staleMgmt (d : Dev) (w : MgmtWrite) : Dev := mgmtEnd (setFlag (dropMgmt d w) (regOff 5 0x27 0 4) 1) w 2

/-- A management write has had its effect on some of its bits, from `d` to `e`: the generation advances where a voted field
changed, and what is left of it waits for its own boundary, with the generation that it has itself brought about; one that
is used up has ended well. One half of a 64-bit pair is taken alone (DESIGN CHOICE, log entry 64). -/
def mgmtTook (d e : Dev) (w : MgmtWrite) (bits : Word32) : Dev :=
  let changed := (regVal d w.off ^^^ regVal e w.off) &&& votedBits w.off != 0
  let e := if changed then bumpGen e w.off else e
  let rest := mgmtBits w (~~~ bits)
  if rest = 0 then mgmtEnd (dropMgmt e w) w 0
  else
    let v := { w with mask := rest, gen := if changed then (w.gen + 1) % 0x10000 else w.gen }
    { e with rg := { e.rg with mgmt := e.rg.mgmt.map fun x => if x = w then v else x } }

/-- The effect of some bits of a management write on its register. -/
def mgmtWrite (d : Dev) (w : MgmtWrite) (bits : Word32) : Dev :=
  let m := mgmtBits w bits
  let e := applyBits d w.off w.value (m &&& writable w.off)
  setReg e w.off (regRaw e w.off &&& ~~~ (m &&& w.value &&& clearable w.off))

/-- Takes some bits of a management write at their boundary (18 R561). -/
def takeMgmt (bits : Word32) (d : Dev) (w : MgmtWrite) : Dev :=
  if w.gen ≠ regFld d (genOff w.off) 15 0 then staleMgmt d w else mgmtTook d (mgmtWrite d w bits) w bits

/-- The first management write held for some bits of a register. -/
def mgmtFor (d : Dev) (off : Nat) (bits : Word32) : Option MgmtWrite := d.rg.mgmt.find? fun w => w.off == off && mgmtBits w bits != 0

/-- A management write comes to its boundary at a register that has nothing of `bits` in its buffer: its bits go there, alone,
for the command that is being taken (18 R561). -/
def loadMgmt (d : Dev) (off : Nat) (bits : Word32) : Dev :=
  if (regBuf d off).mask &&& bits ≠ 0 then d else
  match mgmtFor d off bits with
  | none => d
  | some w =>
    if w.gen ≠ regFld d (genOff off) 15 0 then staleMgmt d w
    else mgmtTook d (bufferWrite d off 0 w.value (mgmtBits w bits)) w bits

/-- A command that a management write brought comes to its register's buffer. -/
def loadCmd (d : Dev) (off : Nat) : Dev :=
  match mgmtFor d off (BitVec.allOnes 32) with
  | some w => if mgmtStarts w then loadMgmt d off (BitVec.allOnes 32) else d
  | none => d

end Sys2Proof.Machine
end

