-- ==== Sys2Proof/Machine/FarTier.lean ====
section
/-! DEFINITION. The far tier (10 R324 to R336): interleave, slots, sector reads and rewrites, scrubs, map-out. -/

namespace Sys2Proof.Machine

open Parts

/-- HBM channels of a CD, and frames of its region (10 R305, R324). -/
def ftCount (v : Nat) : Nat := if v = 3 then 64 else 128

/-- The pseudo-channel target of a frame-relative address (10 R325). -/
def ftTarget (v a : Nat) : Nat :=
  if v = 3 then (a / 2 ^ 8 % 128) ^^^ (a / 2 ^ 15 % 128) ^^^ (a / 2 ^ 22 % 128)
  else (a / 2 ^ 8 % 256) ^^^ (a / 2 ^ 16 % 256) ^^^ (a / 2 ^ 24 % 256)

/-- The code of share (f, k), or of slot (f, k). -/
def shareCode (f k : Nat) : Nat := f * 128 + k

/-- The share that a region-relative address lies in (10 R325). -/
def shareOf (v l : Nat) : Nat := shareCode (l / frameSize) (ftTarget v (l % frameSize) / 2)

/-- A share is kept in its own slot until a map-out moves it (10 R326). -/
def ownSlot (code : Nat) : Nat := code

/-- The slot that keeps a share. -/
def slotOf (f : FarTier) (code : Nat) : Nat := Sparse.get ownSlot f.slots code

/-- The channel whose controller serves a far-tier line (10 R326). -/
def lineChannel (d : Dev) (c l : Nat) : Nat := slotOf (ftOf d c) (shareOf d.variant l) % 128

/-- Sectors of a share: 12 MiB, or 24 MiB with two stacks (10 R325). -/
def shareSectors (v : Nat) : Nat := if v = 3 then 393216 else 196608

/-- The frame-relative address of sector j of channel k's share of a frame: its granules in rising order of address
block, pseudo-channel 0 before 1, four sectors each (10 R325). -/
def shareSector (v k j : Nat) : Nat :=
  let h := j / 8
  let t := 2 * k + j / 4 % 2
  let low := if v = 3 then t ^^^ (h % 128) ^^^ (h / 128 % 128) else t ^^^ (h % 256) ^^^ (h / 256 % 256)
  let block := if v = 3 then 2 ^ 15 else 2 ^ 16
  h * block + low * 256 + j % 4 * 64

/-- The line number of sector j of a share of CD c. -/
def shareLine (d : Dev) (c code j : Nat) : Nat :=
  (c * regionSize d.variant + code / 128 * frameSize + shareSector d.variant (code % 128) j) / 64

/-- An HBMC register. -/
def hbmcOff (c k reg : Nat) : Nat := regOff c 0x14 k reg

/-- An FT register. -/
def ftOff (c reg : Nat) : Nat := regOff c 0x13 0 reg

/-- No channel is in another state than UP. -/
def chanUp (_ : Nat) : Nat := 0

/-- The state of channel k of CD c (10 R343). -/
def chanState (d : Dev) (c k : Nat) : Nat :=
  if ftCount d.variant ≤ k then 4 else Sparse.get chanUp (ftOf d c).chan k

/-- Sets the state of a channel. -/
def setChan (d : Dev) (c k st : Nat) : Dev :=
  let f := ftOf d c
  setFt d c { f with chan := Sparse.set chanUp f.chan k st }

/-- Puts a sector among those to be rewritten; one read again keeps the poison found before. -/
def addRewrite (rs : List Rewrite) (r : Rewrite) : List Rewrite :=
  if rs.any fun q => q.line == r.line then
    rs.map fun q => if q.line = r.line then { q with poison := q.poison || r.poison } else q
  else rs ++ [r]

/-- A read of one sector by its controller and what it finds (10 R328). -/
def sectorRead (d : Dev) (ln : Nat) (ondie : Bool) (found : EccFound) : Dev :=
  match farLine? d ln with
  | none => d
  | some (c, l) =>
    let fl := hbmcOff c (lineChannel d c l) 1
    let d := flagIf ondie d fl 0
    let rewrite := fun (d : Dev) (p : Bool) =>
      let f := ftOf d c
      setFt d c { f with rewr := addRewrite f.rewr ⟨ln, rawLine d ln, p⟩ }
    match found with
    | .none => d
    | .one => rewrite (setFlag d fl 1) (sectorPoison d c ln)
    | .two => rewrite (setFlag d fl 2) true

/-- The cadence miss of a CD: a result that came after its count (15 R466). -/
def cadMiss (d : Dev) (die b : Nat) : Dev :=
  let late := Config.lateness d.fresh
  trace { setFlag d (regOff die 0x1B 0 1) b with fresh := d.fresh + 1 } die 0x1B 0 8 none none b late

/-- The flags of a die's arbiters: `f_p_over` where a class P request finds no token, `f_m_budget` where a class M access waits for its
far-tier budget (16 R488, R490, R504). Which request meets which depends on A-cycles, so its command tells. -/
def arbOff (die : Nat) : Nat := regOff die 0x1D 0 1

/-- A far-tier sector read returns (10 R328; 15 R466; 16 R488, R490): `line` is the sector's line number, `late` tells whether it came
after its cadence count, `noToken` whether it was a class P access that found no token; a class M access that finds no token of its
budget waits, as `waits` tells. -/
def execSectorRead (line : Nat) (ondie : Bool) (found : EccFound) (late noToken waits : Bool) (s : State) : Out := act s fun d =>
  match farLine? d line with
  | none => d
  | some (c, _) =>
    if waits then setFlag d (arbOff c) 1 else
    let d := flagIf noToken d (arbOff c) 0
    let d := sectorRead (addCtr d (cntOff c 4) 1) line ondie found
    if late then cadMiss d c 1 else d

/-- A corrected or uncorrectable sector is rewritten, unless a demand write has cancelled it (10 R328, R329). -/
def execSectorRewrite (line : Nat) (s : State) : Out := act s fun d =>
  match farLine? d line with
  | none => d
  | some (c, _) =>
    match (ftOf d c).rewr.find? fun r => r.line == line with
    | none => d
    | some r => sectorWrite d c line r.data r.poison

/-- The mode of `scrub` a controller runs in (02 R56). -/
def hwScrub (_ : Nat) : Bool := false

/-- Does controller k run with scrub host-assisted? -/
def scrubMode (d : Dev) (c k : Nat) : Bool := Sparse.get hwScrub (ftOf d c).modes k

/-- The share that a slot keeps, if it keeps one of a present frame (10 R326, R333). -/
def shareIn (d : Dev) (c slot : Nat) : Option Nat :=
  let f := ftOf d c
  match f.slots.find? fun e => e.2 == slot && !f.gone.contains (e.1 / 128) with
  | some e => some e.1
  | none => if !f.gone.contains (slot / 128) ∧ slotOf f slot = slot then some slot else none

/-- A scrub reads sector j of a slot of CD c (10 R328, R330, R331): a sector of the share it keeps; of a slot that keeps none only the
flags and the rewrite's count tell what was found. -/
def slotRead (d : Dev) (c slot j : Nat) (ondie : Bool) (found : EccFound) : Dev :=
  match shareIn d c slot with
  | some code => sectorRead d (shareLine d c code j) ondie found
  | none =>
    let fl := hbmcOff c (slot % 128) 1
    let d := flagIf ondie d fl 0
    match found with
    | .none => d
    | .one => addCtr (setFlag d fl 1) (cntOff c 6) 1
    | .two => addCtr (setFlag d fl 2) (cntOff c 6) 1

/-- The next read of a controller's patrol: slots in rising frame order, then sectors (10 R330; the order is the model's,
log entry 19); it pauses in Rest and Dormant (18 R538), and waits while the class M budget has no token (16 R490), as `waits` tells. -/
def execPatrolScrub (cd chan : Nat) (ondie : Bool) (found : EccFound) (waits : Bool) (s : State) : Out := act s fun d =>
  if scrubMode d cd chan || decide (chanState d cd chan ≠ 0) || !cdFitted d.variant cd || pwrState d == 2 || !powered d then d
  else if waits then setFlag d (arbOff cd) 1 else
  let f := ftOf d cd
  let pos := Sparse.get chanUp f.patrol chan
  let n := shareSectors d.variant
  let slot := shareCode (pos / n) chan
  let next := if pos + 1 < n * ftCount d.variant then pos + 1 else 0
  let d := setFt d cd { f with patrol := Sparse.set chanUp f.patrol chan next }
  slotRead (addCtr d (cntOff cd 4) 1) cd slot (pos % n) ondie found

/-- Has a channel's controller refresh windows: it is neither powered down nor without its stack (10 R333, R343)? -/
def hasWindow (d : Dev) (c k : Nat) : Bool := decide (chanState d c k < 3)

/-- A refresh window of a controller: the boundary of its mode of `scrub` (10 R327, 02 R56; 18 R561). The field of FN.MODE is
applied once every controller of the CD that has windows runs in the buffered mode. -/
def execRefreshWindow (cd chan : Nat) (s : State) : Out := act s fun d =>
  let d := loadMgmt d (fnOff cd) 0x20
  let b := regBuf d (fnOff cd)
  if !bit b.mask 5 || decide (ftCount d.variant ≤ chan) || !cdFitted d.variant cd then d else
  let v := bit b.value 5
  let f := ftOf d cd
  let d := if hasWindow d cd chan then setFt d cd { f with modes := Sparse.set hwScrub f.modes chan v } else d
  if (upto (ftCount d.variant)).all fun k => !hasWindow d cd k || scrubMode d cd k == v then applyField d (fnOff cd) 0x20 else d

/-- A commanded scrub starts at the refresh window of its channel (10 R331, R342). -/
def execFtScrub (cd : Nat) (s : State) : Out := act s fun d =>
  let o := ftOff cd 2
  let d := loadCmd d o
  if !cmdPending d o then d else
  let d := applyField d o 0x3FFFFF
  let v := regVal d o
  let d := setReg d o (v &&& 0x1FFFFF)
  let f := ftOf d cd
  setFt d cd { f with scrub := some (fld v 6 0, fld v 13 7, fld v 20 14) }

/-- A sector that a commanded scrub found not clean, or of which the stack reported a correction (10 R328, R331): the frame of its
slot, its place there, and what was found. -/
def scrubFound (cd : Nat) (r : Nat × Nat × Nat) (d : Dev) (e : Nat × Nat × Bool × EccFound) : Dev :=
  if r.2.1 ≤ e.1 ∧ e.1 ≤ r.2.1 + r.2.2 ∧ e.1 < ftCount d.variant ∧ e.2.1 < shareSectors d.variant then
    slotRead d cd (shareCode e.1 r.1) e.2.1 e.2.2.1 e.2.2.2
  else d

/-- The commanded scrub has read every sector of its slots; `found` lists the sectors that were not clean or corrected by the stack,
each with the frame of its slot and its place there (10 R331); `waits` tells that one of its reads waited for the class M budget (16
R490). -/
def execCommandedScrubDone (cd : Nat) (found : List (Nat × Nat × Bool × EccFound)) (waits : Bool) (s : State) : Out := act s fun d =>
  let f := ftOf d cd
  match f.scrub with
  | none => d
  | some r =>
    let d := found.foldl (scrubFound cd r) (flagIf waits d (arbOff cd) 1)
    let d := addCtr d (cntOff cd 4) (shareSectors d.variant * (r.2.2 + 1))
    setFlag (setFt d cd { ftOf d cd with scrub := none }) (ftOff cd 8) 3

/-- Channels mapped out. -/
def mappedOut (f : FarTier) : Nat := (f.chan.filter fun e => e.2 == 3).length

/-- May channel k of CD c be mapped out with a victim frame (10 R332)? -/
def mapoutOk (d : Dev) (c k frame : Nat) : Bool :=
  let f := ftOf d c
  decide (frame < ftCount d.variant) && !f.gone.contains frame && decide (chanState d c k < 3) && f.mapout.isNone &&
    decide (mappedOut f < 16)

/-- The shares of present frames other than the victim that are kept on a channel, ascending by frame (10 R333). -/
def sharesOn (d : Dev) (c k frame : Nat) : List Nat :=
  let f := ftOf d c
  let n := ftCount d.variant
  (upto n).flatMap fun g =>
    if g = frame ∨ g ∈ f.gone then []
    else ((upto n).map (shareCode g)).filter fun s => slotOf f s % 128 == k

/-- The free slots on healthy channels that a victim frame leaves, its own and those that kept its shares in a frame mapped out
before, by ascending channel (10 R333; each later map-out frees as many slots as it needs). -/
def freeSlotsOf (d : Dev) (c k frame : Nat) : List Nat :=
  let gs := (upto (ftCount d.variant)).filter fun g => g == frame || (ftOf d c).gone.contains g
  ((upto (ftCount d.variant)).filter fun j => j != k && decide (chanState d c j ≤ 1)).flatMap fun j =>
    (gs.map fun g => shareCode g j).filter fun s => (shareIn d c s).isNone

/-- Is a line in a frame of CD c? -/
def inFrame (d : Dev) (c frame ln : Nat) : Bool :=
  decide (c * regionSize d.variant + frame * frameSize ≤ ln * 64) &&
    decide (ln * 64 < c * regionSize d.variant + (frame + 1) * frameSize)

/-- Steps 1 and 2 of a map-out: the victim leaves the map, its lines leave the homes, the channel becomes SOURCE
(10 R333). -/
def startMapout (d : Dev) (c k frame : Nat) (lost fast : Bool) : Dev :=
  let f := ftOf d c
  let d := setFt d c { f with gone := frame :: f.gone }
  let left := (sharesOn d c k frame).zip (freeSlotsOf d c k frame)
  let d := setChan d c k 2
  let d := { d with mem := { d.mem with lines := d.mem.lines.filter fun e => !inFrame d c frame e.1 } }
  setFt d c { ftOf d c with mapout := some ⟨k, frame, lost, fast, left⟩, autoWait := false }

/-- A map-out starts at the controller's boundary (10 R332, R333). -/
def execFtMapout (cd : Nat) (s : State) : Out := act s fun d =>
  let o := ftOff cd 1
  let d := loadCmd d o
  if !cmdPending d o then d else
  let d := applyField d o 0x1FFFF
  let v := regVal d o
  let d := setReg d o (v &&& 0xFFFF)
  if mapoutOk d cd (fld v 6 0) (fld v 13 7) then
    startMapout d cd (fld v 6 0) (fld v 13 7) (bit v 14) (bit v 15)
  else setFlag d (ftOff cd 8) 2

/-- Poisons a line of storage. -/
def poisonLine (d : Dev) (ln : Nat) : Dev := setRawPoison d ln true

/-- A sector rewritten while its share is copied needs no rewrite of its own any more. -/
def dropRewrite (d : Dev) (c ln : Nat) : Dev :=
  let f := ftOf d c
  setFt d c { f with rewr := f.rewr.filter fun r => r.line != ln }

/-- A sector of a share that is copied was read with errors (10 R328, R333): the failing channel's flag, and the copy of an
uncorrectable sector is poisoned. -/
def copyFound (cd k : Nat) (d : Dev) (e : Nat × EccFound) : Dev :=
  match e.2 with
  | .none => d
  | .one => setFlag d (hbmcOff cd k 1) 1
  | .two => poisonLine (dropRewrite (setFlag d (hbmcOff cd k 1) 2) cd e.1) e.1

/-- One share is copied into its free slot (10 R333, R334; 20 R616). `found` lists the sectors that were not clean; with
`lost` every sector is written poisoned and nothing of the old slot is read. Without `fast` it runs in class M, and waits while the
budget has no token (16 R490), as `waits` tells. -/
def execShareCopy (cd : Nat) (found : List (Nat × EccFound)) (waits : Bool) (s : State) : Out := act s fun d =>
  let f := ftOf d cd
  match f.mapout with
  | none => d
  | some m =>
    match m.left with
    | [] => d
    | (share, slot) :: rest =>
      if waits && !m.fast then setFlag d (arbOff cd) 1 else
      let mine := fun ln => match farLine? d ln with
        | some (c, l) => c == cd && shareOf d.variant l == share
        | none => false
      let n := shareSectors d.variant
      let d1 := addCtr (setFt d cd { f with
        slots := Sparse.set ownSlot f.slots share slot, mapout := some { m with left := rest } }) (cntOff cd 6) n
      if m.lost then
        let d2 := (upto n).foldl (fun e j =>
          let ln := shareLine d cd share j
          poisonLine (setRaw (dropRewrite e cd ln) ln (BitVec.ofNat 512 (Config.lostLine d.fresh ln)) fullMask) ln) d1
        { d2 with fresh := d2.fresh + 1 }
      else (found.filter fun e => mine e.1).foldl (copyFound cd m.channel) (addCtr d1 (cntOff cd 4) n)

/-- Has the package its ledger key, without which no record of the flash is written (19 R572, R578)? -/
def idOk (d : Dev) : Bool := regFld d (regOff 5 0x28 0 0) 5 5 == 1

/-- Records a CD's far tier in the repair map (10 R336): its frames, its shares, the channels mapped out. -/
def recordFt (d : Dev) (c : Nat) : Dev :=
  if !idOk d then d else
  let f := ftOf d c
  let kept := { noFt c with gone := f.gone, slots := f.slots, chan := f.chan.filter fun e => e.2 == 3 }
  { d with fl := { d.fl with ft := Sparse.set noFt d.fl.ft c kept, writes := d.fl.writes + 1 } }

/-- The map-out is complete (10 R333, R336). -/
def execMapoutDone (cd : Nat) (s : State) : Out := act s fun d =>
  let f := ftOf d cd
  match f.mapout with
  | none => d
  | some m =>
    if m.left ≠ [] then d else
    let d := recordFt (setChan (setFt d cd { f with mapout := none }) cd m.channel 3) cd
    healthEvent (raiseChime (setFlag d (ftOff cd 8) 0) (4752 + cd)) 4 cd m.channel m.frame

/-- A line read with one corrected bit is rewritten (10 R310). -/
def execCorrectedLineRewrite (line : Nat) (s : State) : Out := act s fun d =>
  { d with mem := { d.mem with rewr := d.mem.rewr.erase line } }

/-- A missing line arrives at its home from the far tier (10 R314, R322); `victim` is the line it displaces. -/
def execHomeFill (line : Nat) (victim : Option Nat) (ondie : Bool) (found : EccFound) (s : State) : Out := act s fun d =>
  if (farLine? d line).isNone || (wellLine d line).valid then d else
  let d := match victim with
    | some v => if v = line then d else evictLine d v
    | none => d
  homeFill (sectorRead d line ondie found) line

/-- A scrub access reads a line of a well or of tile memory (18 R538, R539); a gated tile is not scrubbed, and none in Rest. -/
def execWellTileScrub (line : Nat) (ecc : EccFound) (s : State) : Out := act s fun d =>
  match paKind d (line * 64) with
  | .tile c t =>
    if pwrState d = 2 then d else
    match Sparse.find? d.tiles (c * 180 + t) with
    | some x => if x.gated then d else eccRead d line ecc
    | none => eccRead d line ecc
  | _ => eccRead d line ecc

end Sys2Proof.Machine
end

