-- ==== Sys2Proof/Machine/Coherence.lean ====
section
/-! DEFINITION. Host-core coherence at the home (12 R363 to R382): the directory, transactions, snoops and their
responses, write-backs. -/

namespace Sys2Proof.Machine

open Parts

/-- A line that a core does not hold. -/
def noL2 (_ : Nat) : L2Line := {}

/-- A line without a directory entry. -/
def noDir (_ : Nat) : DirEntry := {}

/-- The line in a core's L2. -/
def l2Of (d : Dev) (core ln : Nat) : L2Line := Sparse.get noL2 d.coh.l2 (ln * 64 + core)

/-- Stores a line of a core's L2. -/
def setL2 (d : Dev) (core ln : Nat) (x : L2Line) : Dev :=
  { d with coh := { d.coh with l2 := Sparse.set noL2 d.coh.l2 (ln * 64 + core) x } }

/-- The directory entry of a line. -/
def dirOf (d : Dev) (ln : Nat) : DirEntry := Sparse.get noDir d.coh.dir ln

/-- An entry as it is kept: without owner where its state has none, absent where no core is left (12 R364). -/
def tidyDir (e : DirEntry) : DirEntry :=
  match e.st with
  | .di => {}
  | .ds => if e.sharers = 0 then {} else { e with owner := 0 }
  | .de => { e with sharers := 0 }
  | .d_o => e

/-- Stores a directory entry. -/
def setDir (d : Dev) (ln : Nat) (e : DirEntry) : Dev :=
  { d with coh := { d.coh with dir := Sparse.set noDir d.coh.dir ln (tidyDir e) } }

/-- The bit of a core in `sharers`. -/
def coreBit (n : Nat) : BitVec 64 := BitVec.ofNat 64 (1 <<< n)

/-- The cores of a set. -/
def coresIn (m : BitVec 64) : List Nat := (upto 64).filter fun n => bit m n

/-- Has an entry an owner? -/
def hasOwner (e : DirEntry) : Bool := e.st == .de || e.st == .d_o

/-- An entry that its owner has left (12 R376, R377). -/
def dropOwner (e : DirEntry) : DirEntry :=
  match e.st with
  | .de => {}
  | .d_o => tidyDir { e with st := .ds }
  | _ => e

/-- An entry whose owner keeps the line dirty beside sharers (12 R372). -/
def ownerOwns (e : DirEntry) : DirEntry := if e.st = .de then { e with st := .d_o, sharers := 0 } else e

/-- An entry whose owner now holds a clean shared copy (12 R374, R378). -/
def ownerShares (e : DirEntry) : DirEntry :=
  if hasOwner e then { st := .ds, owner := 0, sharers := e.sharers ||| coreBit e.owner } else e

/-- A COH register of the slice that homes a line. -/
def cohOff (d : Dev) (ln reg : Nat) : Nat :=
  match farLine? d ln with
  | some (c, l) => regOff c 0x15 (homeSlice d c l) reg
  | none => regOff 0 0x15 0 reg

/-- The CD and slice that home a line. -/
def homeOf (d : Dev) (ln : Nat) : Nat × Nat :=
  match farLine? d ln with
  | some (c, l) => (c, homeSlice d c l)
  | none => (0, 0)

/-- The class of a message (12 R366, R370): 0 REQ, 1 FWD, 2 RSP, 3 DAT. -/
def msgClass : MsgBody → Nat
  | .req _ _ => 0
  | .fwd _ _ _ => 1
  | .data _ _ _ _ => 3
  | .fwdData _ _ _ _ => 3
  | .snpData _ _ => 3
  | .wb _ _ _ => 3
  | .amoData _ _ => 3
  | _ => 2

/-- The credits of a class on a C–H edge, in each direction (12 R369). -/
def classCredits (k : Nat) : Nat :=
  match k with
  | 0 => 96
  | 1 => 64
  | _ => 128

/-- Which way a message crosses the edge of its line's CD (12 R370): 0 to the home, 1 from it, 2 from core to core. -/
def msgWay : MsgBody → Nat
  | .fwd _ _ _ => 1
  | .comp _ _ => 1
  | .wbAck => 1
  | .data _ _ _ _ => 1
  | .amoData _ _ => 1
  | .fwdData _ _ _ _ => 2
  | _ => 0

/-- Do two messages draw on one credit pool: the same class on the same edge, the same way (12 R369)? -/
def samePool (d : Dev) (m n : CohMsg) : Bool :=
  msgClass m.body == msgClass n.body && msgWay m.body == msgWay n.body && (homeOf d m.line).1 == (homeOf d n.line).1

/-- Has a message a credit, and is under way (12 R369)? The messages of a pool take its credits in the order in which they are sent,
and the others wait for one at their sender; the pools of the edge and of the crossbar's C-port are taken for one (DEDUCED, log entry
67). FwdData goes from core to core and crosses no edge. -/
def hasCreditFor (d : Dev) (m : CohMsg) : Bool :=
  msgWay m.body == 2 || ((d.coh.net.filter (samePool d m)).take (classCredits (msgClass m.body))).contains m

/-- Sends a message. -/
def sendMsg (d : Dev) (core ln : Nat) (b : MsgBody) : Dev :=
  { d with coh := { d.coh with net := d.coh.net ++ [⟨core, ln, b⟩] } }

/-- The first message under way of a core and line whose content satisfies a condition. -/
def findMsg (d : Dev) (core ln : Nat) (f : MsgBody → Bool) : Option CohMsg :=
  d.coh.net.find? fun m => m.core == core && m.line == ln && f m.body && hasCreditFor d m

/-- Takes a message off the network. -/
def dropMsg (d : Dev) (m : CohMsg) : Dev := { d with coh := { d.coh with net := d.coh.net.erase m } }

/-- The open transaction on a line, as the request's line or as the victim's. -/
def txnOn (d : Dev) (ln : Nat) : Option Txn := d.coh.txns.find? fun t => t.line == ln || t.victim == some ln

/-- Stores a transaction under its line. -/
def setTxn (d : Dev) (t : Txn) : Dev :=
  { d with coh := { d.coh with txns := d.coh.txns.map fun u => if u.line = t.line then t else u } }

/-- Opens a transaction. -/
def openTxn (d : Dev) (t : Txn) : Dev := { d with coh := { d.coh with txns := d.coh.txns ++ [t] } }

/-- Closes the transaction on a line once the reply has gone, the CompAck is in and every response is counted (12 R373). -/
def closeTxn (d : Dev) (ln : Nat) : Dev :=
  { d with coh := { d.coh with txns := d.coh.txns.filter fun t =>
      !(t.line == ln && t.replied && t.acked && t.pend == []) } }

/-- Stray messages set a flag of the slice (12 R377). -/
def strayMsg (d : Dev) (ln : Nat) : Dev := setFlag d (cohOff d ln 1) 1

/-- Must a core's request wait for a WB or EvictClean it has sent (12 R371)? -/
def awaitsPrior (d : Dev) (ln core prior : Nat) : Bool :=
  let e := dirOf d ln
  prior != 0 && hasOwner e && e.owner == core && (findMsg d core ln fun b => match b with
    | .wb _ _ _ => true
    | .evictClean => true
    | _ => false).isSome

/-- The bucket and the slice of the next transfer of a step (10 R318, R319). -/
def nextTransfer (d : Dev) (c : Nat) : Option (Nat × Nat) :=
  let w := wellOf d c
  let count := bucketsAt d c
  let firstOf := fun sl => (upto 256).find? fun b => bucketHome d c b == sl
  match w.step with
  | .none => none
  | .shrink =>
    let best := (upto w.stepSlice).foldl (fun a sl => if count sl < count a then sl else a) 0
    (firstOf w.stepSlice).map fun b => (b, best)
  | .grow =>
    let best := (upto w.stepSlice).foldl (fun a sl => if count a ≤ count sl then sl else a) 0
    (firstOf best).map fun b => (b, w.stepSlice)

/-- Is a line one of a bucket of CD c? -/
def inBucket (d : Dev) (c b ln : Nat) : Bool :=
  match farLine? d ln with
  | some (k, l) => k == c && bucketOf l == b
  | none => false

/-- Is a line one of the bucket that a step of its well has in hand? Requests for it wait in REQ until the bucket has gone (10 R318,
R319). -/
def inHand (d : Dev) (ln : Nat) : Bool :=
  match farLine? d ln with
  | some (c, _) => (match nextTransfer d c with
    | some (b, _) => inBucket d c b ln
    | none => false)
  | none => false

/-- The forwards that a request needs by the entry's state (12 R372, R387): core and kind. Of RdS and RdX they go to the owner, be it the
requester, and to the sharers other than the requester. The last row's operations recover every copy, the requester's own included (12
R384). -/
def forwards (e : DirEntry) (core : Option Nat) (k : ReqKind) : List (Nat × FwdKind) :=
  let other := fun n => core != some n
  let shar := (coresIn e.sharers).filter fun n => !hasOwner e || n != e.owner
  let own := if hasOwner e then [e.owner] else []
  match k with
  | .rdS => own.map fun n => (n, .snpS)
  | .rdX => own.map (fun n => (n, FwdKind.snpX)) ++ (shar.filter other).map fun n => (n, .snpInv)
  | .upg => ((own ++ shar).filter other).map fun n => (n, .snpInv)
  | .cln => (own.filter other).map fun n => (n, .snpClean)
  | .inv => ((own ++ shar).filter other).map fun n => (n, .snpInv)
  | .flu => (own.filter other).map (fun n => (n, FwdKind.snpRecall)) ++ (shar.filter other).map fun n => (n, .snpInv)
  | _ => own.map (fun n => (n, FwdKind.snpRecall)) ++ shar.map fun n => (n, .snpInv)

/-- The forwards that recover a victim entry (12 R379). -/
def victimForwards (e : DirEntry) : List (Nat × FwdKind) :=
  (if hasOwner e then [(e.owner, FwdKind.snpRecall)] else []) ++
    ((coresIn e.sharers).filter fun n => !hasOwner e || n != e.owner).map fun n => (n, .snpInv)

/-- Does an Upg grant ownership without data: its requester's `sharers` bit is set in DS or DO (12 R372)? -/
def upgHolds (e : DirEntry) (core : Nat) : Bool := (e.st == .ds || e.st == .d_o) && bit e.sharers core

/-- An Upg from a core whose `sharers` bit is 0, and one that meets DE or DI, is served as RdX (12 R372): an owner that asks is snooped
like any other, and sends its data to itself. -/
def servedAs (e : DirEntry) (core : Nat) (k : ReqKind) : ReqKind :=
  match k with
  | .upg => if upgHolds e core then .upg else .rdX
  | k => k

/-- Would a request break a reservation on its line (12 R385, R386)? -/
def breaksResv (e : DirEntry) (k : ReqKind) : Bool :=
  match k with
  | .rdX => true
  | .upg => true
  | .amo _ _ _ _ => true
  | .sc _ _ => true
  | .rdS => e.st == .di
  | _ => false

/-- The request of a core on a line that is on its way to the home or waits there. -/
def reqOf (d : Dev) (core ln : Nat) : Option (ReqKind × Nat) :=
  d.coh.net.findSome? fun m => match m.body with
    | .req k prior => if m.core = core ∧ m.line = ln then some (k, prior) else none
    | _ => none

/-- Does the home defer a request of a core: another core's reservation is in its deferral, and the request would break it (12
R386)? -/
def deferReq (d : Dev) (ln core : Nat) (k : ReqKind) : Bool :=
  breaksResv (dirOf d ln) (servedAs (dirOf d ln) core k) && d.coh.defer.any fun r => r.2 == ln && r.1 != core

/-- Is a waiting request deferred? Requests of device agents never are (12 R386). -/
def deferredWho (d : Dev) (ln : Nat) (who : CohWho) : Bool :=
  match who with
  | .device _ => false
  | .core n => match reqOf d n ln with
    | some (k, _) => deferReq d ln n k
    | none => false

/-- Is a request the first of those that wait for its line and are not deferred (12 R368, R386)? -/
def firstInLine (d : Dev) (ln : Nat) (who : CohWho) : Bool :=
  match d.coh.waiting.find? fun w => w.1 == ln && !deferredWho d ln w.2 with
  | some w => w.2 == who
  | none => true

/-- Does a waiting request of a core hold a transaction entry while it waits for a WB or EvictClean (12 R371)? -/
def holdsEntry (d : Dev) (ln : Nat) (who : CohWho) : Bool :=
  match who with
  | .device _ => false
  | .core n =>
    (txnOn d ln).isNone && firstInLine d ln who && (match reqOf d n ln with
      | some (_, prior) => awaitsPrior d ln n prior
      | none => false)

/-- Transaction entries in use at a slice (12 R367, R371). -/
def openAt (d : Dev) (h : Nat × Nat) : Nat :=
  min 128 ((d.coh.txns.filter fun t => homeOf d t.line == h).length +
    (d.coh.waiting.filter fun w => homeOf d w.1 == h && holdsEntry d w.1 w.2).length)

/-- The set of the directory that a line's entry stands in: CD, slice, and one of 1,024 sets by the address bits above those of
the bucket (10 R314; the index is the model's, DESIGN CHOICE, log entry 67). -/
def dirSet (d : Dev) (ln : Nat) : Nat × Nat × Nat :=
  match farLine? d ln with
  | some (c, l) => (c, homeSlice d c l, l / 0x4000 % 1024)
  | none => (0, 0, 0)

/-- Does a request leave an entry where its line had none (12 R372)? -/
def makesEntry (k : ReqKind) : Bool :=
  match k with
  | .rdS => true
  | .rdX => true
  | .upg => true
  | _ => false

/-- The ways in use of a line's directory set: its entries, and those that open transactions are about to make. -/
def waysUsed (d : Dev) (ln : Nat) : Nat :=
  (d.coh.dir.filter fun e => dirSet d e.1 == dirSet d ln).length +
    (d.coh.txns.filter fun t => dirSet d t.line == dirSet d ln && makesEntry t.kind && dirOf d t.line == {} && t.victim.isNone).length

/-- Does a request need a new entry in a full set of 16 ways (10 R314; 12 R379)? -/
def needsVictim (d : Dev) (ln : Nat) (k : ReqKind) : Bool :=
  makesEntry k && dirOf d ln == {} && decide (16 ≤ waysUsed d ln)

/-- Reads a value of 4 or 8 bytes at an offset of the home copy. -/
def homeVal (d : Dev) (ln off sz : Nat) : Nat := valAt d (ln * 64 + off) (2 ^ sz)

/-- The result of an atomic operation on integers: codes of 04 R140, size in bits. -/
def atomicInt (op w old v cmp : Nat) : Nat :=
  let sgn := fun x => sextNat w x
  match op with
  | 0 => (old + v) % 2 ^ w
  | 1 => if sgn old ≤ sgn v then old else v
  | 2 => if sgn old ≤ sgn v then v else old
  | 3 => min old v
  | 4 => max old v
  | 5 => old &&& v
  | 6 => old ||| v
  | 7 => old ^^^ v
  | 8 => v
  | _ => if old = cmp then v else old

/-- Data sent from the home copy, whose access counts at its home (10 R315), with the grant recorded; a grant of E or M ends every
reservation (12 R385). -/
def sendData (d : Dev) (ln core : Nat) (grant : L2State) (comp : Bool) : Dev :=
  let d := homeFill d ln
  let (x, p) := lineAt d ln
  let d := sendMsg d core ln (.data x grant p comp)
  if grant = .s then d else breakResv d ln

/-- The entry of a line with one core as its exclusive holder. -/
def soleOwner (core : Nat) : DirEntry := { st := .de, owner := core, sharers := 0 }

/-- Adds a sharer to an entry. -/
def addSharer (e : DirEntry) (core : Nat) : DirEntry :=
  match e.st with
  | .di => { st := .ds, owner := 0, sharers := coreBit core }
  | _ => { e with sharers := e.sharers ||| coreBit core }

/-- Serves a request for sharing from the home copy (12 R372, R376). -/
def serveShared (d : Dev) (ln core : Nat) (e : DirEntry) : Dev :=
  match e.st with
  | .di => sendData (setDir d ln (soleOwner core)) ln core .e false
  | _ => sendData (setDir d ln (addSharer e core)) ln core .s false

/-- An operation of a core performed on the home copy, in DI (12 R372, R383 to R385, R323); an Amo leaves its core's own
reservation (12 R385). -/
def performCore (d : Dev) (ln core : Nat) (k : ReqKind) : Dev :=
  let d := setDir d ln {}
  match k with
  | .amo off sz op v =>
    let d := addCtr (homeFill d ln) (cntOff (homeOf d ln).1 8) 1
    let old := homeVal d ln off sz
    if poisonAt d ln then sendMsg d core ln (.amoData (BitVec.ofNat 64 old) true)
    else
      let new := atomicInt op (8 * 2 ^ sz) old (v.toNat % 2 ^ (8 * 2 ^ sz)) 0
      let own := d.coh.resv.filter fun r => r == (core, ln)
      let d := putIn d (ln * 64 + off) (leBytes (2 ^ sz) new) false
      let d := { d with coh := { d.coh with resv := d.coh.resv ++ own } }
      sendMsg d core ln (.amoData (BitVec.ofNat 64 old) false)
  | .lr off sz =>
    let d := homeFill d ln
    let h := homeOf d ln
    let keep := d.coh.resv.filter fun r => !(r.1 == core && homeOf d r.2 == h)
    let d := { d with coh := { d.coh with
      resv := keep ++ [(core, ln)]
      defer := if d.coh.defer.any fun r => r.2 == ln then d.coh.defer else d.coh.defer ++ [(core, ln)] } }
    sendMsg d core ln (.amoData (BitVec.ofNat 64 (homeVal d ln off sz)) (poisonAt d ln))
  | .sc data mask =>
    let ok := d.coh.resv.contains (core, ln)
    let d := { d with coh := { d.coh with resv := d.coh.resv.erase (core, ln) } }
    let d := if ok then writeLine d ln data mask false else d
    sendMsg d core ln (.comp .i (some ok))
  | _ => sendMsg d core ln (.comp .i none)

/-- The reply of a transaction of a core once every response is in (12 R372, R373, R387): `t` as the responses have left
it, the entry likewise. -/
def replyCore (d : Dev) (t : Txn) (core : Nat) : Dev :=
  let ln := t.line
  let e := dirOf d ln
  match t.kind with
  | .rdS =>
    if t.fromHome then serveShared d ln core e else setDir d ln (addSharer e core)
  | .rdX =>
    let comp := e.st == .d_o
    let d := setDir d ln (soleOwner core)
    let d := if t.fromHome then sendData d ln core .m comp else breakResv d ln
    if comp then sendMsg d core ln (.comp .m none) else d
  | .upg => sendMsg (breakResv (setDir d ln (soleOwner core)) ln) core ln (.comp .m none)
  | .cln => sendMsg d core ln (.comp .i none)
  | .flu => sendMsg (setDir d ln {}) core ln (.comp .i none)
  | .inv => sendMsg (setDir d ln {}) core ln (.comp .i none)
  | k => performCore d ln core k

/-- Looks whether a transaction can be replied to, and whether it can be closed (12 R373). A device's transaction is
replied to by its own operation. -/
def advance (d : Dev) (ln : Nat) : Dev :=
  match txnOn d ln with
  | none => d
  | some t =>
    if t.pend ≠ [] then d
    else
      let d := match t.victim with
        | some v => setDir d v {}
        | none => d
      let t := { t with victim := none }
      let d := setTxn d t
      match t.who with
      | .device _ => d
      | .core n =>
        if t.replied then closeTxn d t.line
        else closeTxn (setTxn (replyCore d t n) { t with replied := true }) t.line

/-- Opens the transaction of a request, sends its forwards, and goes on at once where there are none. -/
def openRequest (d : Dev) (ln : Nat) (who : CohWho) (k : ReqKind) (victim : Option Nat) : Dev :=
  let e := dirOf d ln
  let core := match who with
    | .core n => some n
    | .device _ => none
  let fs := forwards e core k
  let comp := e.st == .d_o && k == .rdX
  let vs := match victim with
    | some v => (victimForwards (dirOf d v)).map fun f => (v, f)
    | none => []
  let d := match victim with
    | some v => setFlag d (cohOff d v 1) 2
    | none => d
  let snoops := fs.map (fun f => (ln, f)) ++ vs
  let pend := snoops.map fun s => (⟨s.1, s.2.1, s.2.2, false, false⟩ : Snoop)
  let noOwner := !fs.any fun f => f.2 == .snpS || f.2 == .snpX
  let d := openTxn d ⟨ln, who, k, victim, pend, noOwner, false, false⟩
  let d := snoops.foldl (fun d s => sendMsg d s.2.1 s.1 (.fwd s.2.2 core comp)) d
  advance d ln

/-- Takes a waiting request out of REQ. -/
def unwait (d : Dev) (ln : Nat) (who : CohWho) : Dev :=
  { d with coh := { d.coh with waiting := d.coh.waiting.erase (ln, who) } }

/-- The Sc of a deferral's own core comes before the requests that it has deferred (12 R386). -/
def frontReq (d : Dev) (ln core : Nat) : Dev :=
  if !d.coh.defer.contains (core, ln) || d.coh.waiting.contains (ln, .core core) then d else
  let (now, late) := d.coh.waiting.partition fun w => w.1 != ln || !deferredWho d ln w.2
  { d with coh := { d.coh with waiting := now ++ [(ln, .core core)] ++ late } }

/-- A request that cannot be served waits in REQ, in arrival order (12 R368). -/
def waitReq (d : Dev) (ln : Nat) (who : CohWho) : Dev :=
  if d.coh.waiting.contains (ln, who) then d
  else { d with coh := { d.coh with waiting := d.coh.waiting ++ [(ln, who)] } }

/-- Is a victim line one that a request may recover: in the same set, with an entry, not busy (12 R379)? -/
def victimOk (d : Dev) (ln v : Nat) : Bool :=
  v != ln && dirSet d v == dirSet d ln && dirOf d v != {} && (txnOn d v).isNone

/-- May a request of a core be served now (10 R318; 12 R367, R368, R371, R380, R386)? `victim` is the entry that it recovers where it
needs one. -/
def reqServed (d : Dev) (core ln : Nat) (k : ReqKind) (prior : Nat) (victim : Option Nat) : Bool :=
  (txnOn d ln).isNone && decide (openAt d (homeOf d ln) < 128) && !inHand d ln && !deferReq d ln core k &&
    !awaitsPrior d ln core prior && firstInLine d ln (.core core) &&
    (!needsVictim d ln (servedAs (dirOf d ln) core k) || victim.any (victimOk d ln))

/-- A request message of a core at its home (12 R367, R368, R371, R379, R386): it is served, or waits. The arrival of the reserving
core's Sc ends its deferral. -/
def homeRequest (d : Dev) (core ln : Nat) (victim : Option Nat) (f : ReqKind → Bool) : Dev :=
  match findMsg d core ln fun b => match b with
      | .req k _ => f k
      | _ => false with
  | none => d
  | some m =>
    match m.body with
    | .req k prior =>
      let d := match k with
        | .sc _ _ =>
          let d := frontReq d ln core
          { d with coh := { d.coh with defer := d.coh.defer.filter fun r => r != (core, ln) } }
        | _ => d
      let k' := servedAs (dirOf d ln) core k
      if !reqServed d core ln k prior victim then waitReq d ln (.core core)
      else openRequest (unwait (dropMsg d m) ln (.core core)) ln (.core core) k' (if needsVictim d ln k' then victim else none)
    | _ => d

/-- Makes the home copy of a line the 64 bytes of a host core (11 R360, 10 R311). -/
def absorbLine (d : Dev) (ln : Nat) (x : Line) (p : Bool) : Dev := writeLine d ln x fullMask p

/-- Is a message a WB or an EvictClean? -/
def isWb (b : MsgBody) : Bool :=
  match b with
  | .wb _ _ _ => true
  | .evictClean => true
  | _ => false

/-- The WBs and EvictCleans of a core for a line that are under way as its response is counted cross the forward: the home will accept
them (12 R376, R377). -/
def noteCrossed (d : Dev) (ln core : Nat) : Dev :=
  let ws := d.coh.net.filter fun m => m.core == core && m.line == ln && isWb m.body
  { d with coh := { d.coh with crossed := (d.coh.crossed.filter (· != (core, ln))) ++ ws.map fun _ => (core, ln) } }

/-- Takes one counted response of a core out of the transaction on a line; `f` changes the transaction. -/
def countResponse (d : Dev) (ln core : Nat) (ok : FwdKind → Bool) (f : Dev → Txn → Snoop → Dev × Txn) : Dev :=
  match txnOn d ln with
  | none => strayMsg d ln
  | some t =>
    match t.pend.find? fun s => s.line == ln && s.core == core && ok s.kind && !s.gone with
    | none => strayMsg d ln
    | some s =>
      let (d, t) := f (noteCrossed d ln core) t s
      advance (setTxn d { t with pend := t.pend.erase s }) t.line

/-- The request served without its former owner (12 R376). -/
def ownerGone (d : Dev) (t : Txn) (s : Snoop) : Dev × Txn :=
  let e := dirOf d s.line
  let d := if hasOwner e && e.owner == s.core then setDir d s.line (dropOwner e) else d
  (d, if s.kind = .snpS ∨ s.kind = .snpX then { t with fromHome := true } else t)

/-- Is an EvictClean of a core for a line under way: the core has left the line (12 R376)? -/
def evicts (d : Dev) (core ln : Nat) : Bool := d.coh.net.any fun m => m.core == core && m.line == ln && m.body == .evictClean

/-- The home copy was current: the owner keeps at most a clean shared copy (12 R374). An owner that has left, by a WB or
EvictClean that came meanwhile or crosses the forward, is left out (12 R376). -/
def ownerClean (d : Dev) (t : Txn) (s : Snoop) : Dev × Txn :=
  let e := dirOf d s.line
  if hasOwner e && e.owner == s.core && !s.left && evicts d s.core s.line then ownerGone d t s else
  if s.left || !(hasOwner e && e.owner == s.core) then (d, if s.kind = .snpS ∨ s.kind = .snpX then { t with fromHome := true } else t)
  else match s.kind with
    | .snpS => (setDir d s.line (ownerShares e), { t with fromHome := true })
    | .snpX => (d, { t with fromHome := true })
    | _ => (d, t)

end Sys2Proof.Machine
end

