-- ==== Sys2Proof/Machine/CohHome.lean ====
section
/-! DEFINITION. Messages that arrive at a home (12 R370 to R387). `core` and `line` name the message. -/

namespace Sys2Proof.Machine

open Parts

/-- RdS arrives (12 R372); `victim` is the directory entry recovered when the set is full (12 R379). -/
def execRds (core line : Nat) (victim : Option Nat) (s : State) : Out := act s fun d =>
  homeRequest d core line victim fun k => k == .rdS

/-- RdX arrives (12 R372, R379). -/
def execRdx (core line : Nat) (victim : Option Nat) (s : State) : Out := act s fun d =>
  homeRequest d core line victim fun k => k == .rdX

/-- Upg arrives (12 R372, R379). -/
def execUpg (core line : Nat) (victim : Option Nat) (s : State) : Out := act s fun d =>
  homeRequest d core line victim fun k => k == .upg

/-- Amo arrives (12 R383). -/
def execAmo (core line : Nat) (s : State) : Out := act s fun d =>
  homeRequest d core line none fun k => match k with
    | .amo _ _ _ _ => true
    | _ => false

/-- Lr arrives (12 R384, R386). -/
def execLr (core line : Nat) (s : State) : Out := act s fun d =>
  homeRequest d core line none fun k => match k with
    | .lr _ _ => true
    | _ => false

/-- Sc arrives (12 R385, R386). -/
def execSc (core line : Nat) (s : State) : Out := act s fun d =>
  homeRequest d core line none fun k => match k with
    | .sc _ _ => true
    | _ => false

/-- Cln arrives (12 R387). -/
def execCln (core line : Nat) (s : State) : Out := act s fun d => homeRequest d core line none fun k => k == .cln

/-- Flu arrives (12 R387). -/
def execFlu (core line : Nat) (s : State) : Out := act s fun d => homeRequest d core line none fun k => k == .flu

/-- Inv arrives (12 R387). -/
def execInv (core line : Nat) (s : State) : Out := act s fun d => homeRequest d core line none fun k => k == .inv

/-- CompAck arrives (12 R373, R377). -/
def execCompack (core line : Nat) (s : State) : Out := act s fun d =>
  match findMsg d core line fun b => b == .compAck with
  | none => d
  | some m =>
    let d := dropMsg d m
    match d.coh.txns.find? fun t => t.line == line && t.who == .core core && !t.acked with
    | some t => closeTxn (setTxn d { t with acked := true }) line
    | none => strayMsg d line

/-- SnpAck arrives (12 R372, R374). -/
def execSnpack (core line : Nat) (s : State) : Out := act s fun d =>
  match findMsg d core line fun b => match b with
      | .snpAck _ => true
      | _ => false with
  | none => d
  | some m =>
    countResponse (dropMsg d m) line core (fun k => k == .snpS || k == .snpX || k == .snpClean) fun d t n =>
      match m.body, n.kind with
      | .snpAck .o, .snpS => (setDir d line (ownerOwns (dirOf d line)), t)
      | .snpAck .s, .snpS => (setDir d line (ownerShares (dirOf d line)), t)
      | .snpAck .s, .snpClean => (setDir d line (ownerShares (dirOf d line)), t)
      | _, _ => (d, t)

/-- InvAck arrives (12 R374, R376). -/
def execInvack (core line : Nat) (s : State) : Out := act s fun d =>
  match findMsg d core line fun b => b == .invAck with
  | none => d
  | some m => countResponse (dropMsg d m) line core (fun _ => true) ownerClean

/-- RSP-GONE arrives: the data is in a WB, which is awaited if it has not come (12 R376). -/
def execRspGone (core line : Nat) (s : State) : Out := act s fun d =>
  match findMsg d core line fun b => b == .gone with
  | none => d
  | some m =>
    let d := dropMsg d m
    match txnOn d line with
    | none => strayMsg d line
    | some t =>
      match t.pend.find? fun n => n.line == line && n.core == core && !n.gone with
      | none => strayMsg d line
      | some n =>
        if n.left then
          let (d, t) := ownerGone d t n
          advance (setTxn d { t with pend := t.pend.erase n }) t.line
        else setTxn d { t with pend := t.pend.map fun q => if q = n then { n with gone := true } else q }

/-- Is a WB or EvictClean of a core accepted: the entry names the core, a forward to it is open, or it crossed one (12 R376,
R377)? -/
def wbAccepted (d : Dev) (core ln : Nat) : Bool :=
  let e := dirOf d ln
  (hasOwner e && e.owner == core) || d.coh.crossed.contains (core, ln) || (match txnOn d ln with
    | some t => t.pend.any fun n => n.line == ln && n.core == core
    | none => false)

/-- One of the messages that crossed a forward has come. -/
def uncross (d : Dev) (core ln : Nat) : Dev := { d with coh := { d.coh with crossed := d.coh.crossed.erase (core, ln) } }

/-- The entry after a WB whose sender kept a clean copy, or none (12 R377, R378). -/
def afterWb (e : DirEntry) (core : Nat) (keep : L2State) : DirEntry :=
  if !(hasOwner e && e.owner == core) then e
  else match keep with
    | .e => soleOwner core
    | .s => ownerShares e
    | _ => dropOwner e

/-- A core's WB or EvictClean has been absorbed: a response of that core that waits for it is complete, one still to come
knows that the core has left (12 R376). -/
def noteLeft (d : Dev) (core ln : Nat) : Dev :=
  match txnOn d ln with
  | none => d
  | some t =>
    match t.pend.find? fun n => n.line == ln && n.core == core with
    | none => d
    | some n =>
      if n.gone then
        let (d, t) := ownerGone d t n
        advance (setTxn d { t with pend := t.pend.erase n }) t.line
      else setTxn d { t with pend := t.pend.map fun q => if q = n then { n with left := true } else q }

/-- WB arrives (12 R360, R376 to R378). -/
def execWb (core line : Nat) (s : State) : Out := act s fun d =>
  match findMsg d core line fun b => match b with
      | .wb _ _ _ => true
      | _ => false with
  | none => d
  | some m =>
    let d := dropMsg d m
    match m.body with
    | .wb x p keep =>
      if !wbAccepted d core line then sendMsg (strayMsg d line) core line .wbAck else
      let d := sendMsg (absorbLine (uncross d core line) line x p) core line .wbAck
      let d := setDir d line (afterWb (dirOf d line) core keep)
      if keep = .i then noteLeft d core line else d
    | _ => d

/-- EvictClean arrives (12 R376, R377). -/
def execEvictclean (core line : Nat) (s : State) : Out := act s fun d =>
  match findMsg d core line fun b => b == .evictClean with
  | none => d
  | some m =>
    let d := dropMsg d m
    if !wbAccepted d core line then sendMsg (strayMsg d line) core line .wbAck else
    let d := sendMsg (uncross d core line) core line .wbAck
    noteLeft (setDir d line (afterWb (dirOf d line) core .i)) core line

/-- SnpData arrives: the dirty line returns to the home copy (12 R374). -/
def execSnpdata (core line : Nat) (s : State) : Out := act s fun d =>
  match findMsg d core line fun b => match b with
      | .snpData _ _ => true
      | _ => false with
  | none => d
  | some m =>
    countResponse (dropMsg d m) line core (fun k => k == .snpRecall || k == .snpClean) fun d t n =>
      match m.body with
      | .snpData x p =>
        let d := absorbLine d line x p
        let e := dirOf d line
        (if n.kind = .snpClean then (if e.st = .d_o then setDir d line (ownerShares e) else d) else d, t)
      | _ => (d, t)

/-- The code of a forward in COH.LOG (12 R389). -/
def fwdCode : FwdKind → Nat
  | .snpS => 1
  | .snpX => 2
  | .snpInv => 3
  | .snpRecall => 4
  | .snpClean => 5

/-- A forward has had no answer for 65,536 A-cycles (12 R381): the home copy is poisoned, the core leaves the entry, and a
requester that waits for data or for ownership gets the poisoned copy. -/
def execFwdTimeout (core line : Nat) (s : State) : Out := act s fun d =>
  match txnOn d line with
  | none => d
  | some t =>
    match t.pend.find? fun n => n.line == line && n.core == core with
    | none => d
    | some n =>
      let d := homeFill d line
      let d := setWellLine d line { wellLine d line with poison := true, dirty := true }
      let e := dirOf d line
      let e := if hasOwner e && e.owner == core then dropOwner e else e
      let e := { e with sharers := e.sharers &&& ~~~ coreBit core }
      let own := decide (n.line = t.line)
      let d := setDir d line (if own ∧ t.kind = .upg ∧ e.st = .d_o then ownerShares e else e)
      let o := cohOff d line
      let d := if flag d (o 1) 0 then d
        else setReg (setReg (setReg d (o 2) (BitVec.ofNat 32 (core + fwdCode n.kind * 64)))
          (o 3) (BitVec.ofNat 32 (line * 64))) (o 4) (BitVec.ofNat 32 (line * 64 / 2 ^ 32 % 2 ^ 16))
      let d := raiseChime (setFlag d (o 1) 0) (4760 + (homeOf d line).1)
      let t := if own ∧ (t.kind = .rdS ∨ t.kind = .rdX ∨ t.kind = .upg) then
        { t with fromHome := true, kind := if t.kind = .upg then .rdX else t.kind } else t
      advance (setTxn d { t with pend := t.pend.erase n }) t.line

/-- 512 A-cycles after an Lr the home stops deferring other cores (12 R386). -/
def execLrDeferralEnd (core line : Nat) (s : State) : Out := act s fun d =>
  { d with coh := { d.coh with defer := d.coh.defer.filter fun r => r != (core, line) } }

/-! A device atomic or reduce-write at its home. -/

/-- Is a line ready for a device operation: no host copy, no transaction of another, and its turn (10 R322; 12 R372,
R375)? Where it is not, the operation opens the line's recovery, or waits. -/
def deviceLine (d : Dev) (ln : Nat) (id : List Nat) : Dev × Bool :=
  match txnOn d ln with
  | some t =>
    if t.line = ln ∧ t.who = .device id ∧ t.pend = [] then
      let d := { d with coh := { d.coh with txns := d.coh.txns.filter fun u => u.line != ln } }
      (setDir d ln {}, true)
    else (if t.who = .device id then d else waitReq d ln (.device id), false)
  | none =>
    if !firstInLine d ln (.device id) then (waitReq d ln (.device id), false)
    else if inHand d ln && dirOf d ln != {} then (waitReq d ln (.device id), false)
    else
      let d := unwait d ln (.device id)
      if dirOf d ln = {} then (d, true)
      else if 128 ≤ openAt d (homeOf d ln) then (waitReq d ln (.device id), false)
      else (openRequest d ln (.device id) .flu none, false)

end Sys2Proof.Machine
end

