-- ==== Sys2Proof/Machine/CohCore.lean ====
section
/-! DEFINITION. Host cores (12 R363, R365, R371, R373, R374, R383 to R387): accesses, victims, snoops, replies. -/

namespace Sys2Proof.Machine

open Parts

/-- The request of a core outstanding on a line. -/
def mshrOf (d : Dev) (core ln : Nat) : Option Mshr := d.coh.mshr.find? fun m => m.core == core && m.line == ln

/-- May a core send a request for a line: a far-tier line, fewer than 48 outstanding, none on the line (12 R367)? -/
def maySend (d : Dev) (core ln : Nat) : Bool :=
  (farLine? d ln).isSome && decide (core < 64) && decide ((d.coh.mshr.filter fun m => m.core == core).length < 48) &&
    (mshrOf d core ln).isNone

/-- Nothing sent. -/
def noSent (_ : Nat) : Nat := 0

/-- What a core has sent for a line since its last grant (12 R371): 0 nothing, 1 a WB, 2 an EvictClean. -/
def priorOf (d : Dev) (core ln : Nat) : Nat := Sparse.get noSent d.coh.sent (ln * 64 + core)

/-- Records what a core has sent for a line. -/
def setSent (d : Dev) (core ln k : Nat) : Dev :=
  { d with coh := { d.coh with sent := Sparse.set noSent d.coh.sent (ln * 64 + core) k } }

/-- Holds a core a credit for a WB of a line that has no WbAck yet (12 R374)? -/
def wbSent (d : Dev) (core ln : Nat) : Bool := d.coh.wbs.any fun w => w.core == core && w.line == ln && !w.clean

/-- Adds to what the harts have seen. -/
def hostSees (d : Dev) (r : HostResult) : Dev := { d with coh := { d.coh with out := d.coh.out ++ [r] } }

/-- No line recorded. -/
def noLr (_ : Nat) : Option Nat := none

/-- An access fault at a hart (10 R307, R309): the trap entry clears the record of its latest LR (12 R384). -/
def hartFault (d : Dev) (core : Nat) : Dev :=
  hostSees { d with coh := { d.coh with lr := Sparse.set noLr d.coh.lr core none } } (.fault core)

/-- A host access to a line that is no far-tier line (02 R61; 10 R307): unfitted far tier completes as `absent` says, a hole
faults. -/
def hostElsewhere (d : Dev) (core ln : Nat) (absent : Dev) : Dev :=
  match paKind d (ln * 64) with
  | .unfitted => absent
  | .hole => hartFault d core
  | _ => d

/-- A request to a CD that the HD has declared down completes with poisoned data; what it would store is lost (12 R382; 18
R547). -/
def lostReply (d : Dev) (core : Nat) (k : ReqKind) : Dev :=
  match k with
  | .sc _ _ => hostSees d (.sc core false)
  | .cln => d
  | .flu => d
  | .inv => d
  | _ => hostSees d (.value core 0 true)

/-- A core sends a request; `fetch` tells that it is for an instruction fetch. -/
def sendReq (d : Dev) (core ln : Nat) (k : ReqKind) (store : Option (Line × BitVec 64)) (fetch : Bool := false) : Dev :=
  if lineLost d ln then lostReply d core k else
  let prior := priorOf d core ln
  let d := { d with coh := { d.coh with mshr := d.coh.mshr ++ [⟨core, ln, k, store, false, false, false, fetch⟩] } }
  sendMsg d core ln (.req k prior)

/-- A line with a store made in it. -/
def storeInto (x : L2Line) (st : Line × BitVec 64) : L2Line :=
  { x with st := .m, data := mergeMask x.data st.1 (bitMask st.2), l1d := true }

/-- A line that an access has brought into an L1 of its core (12 R363). -/
def inL1 (x : L2Line) (fetch : Bool) : L2Line := if fetch then { x with l1i := true } else { x with l1d := true }

/-- Must a hart's access wait, which a FENCE orders after the core's cache-block operations: one of them has not completed (11
R358)? -/
def cboOpen (d : Dev) (core : Nat) : Bool :=
  d.coh.mshr.any fun m => m.core == core && (m.kind == .cln || m.kind == .flu || m.kind == .inv)

/-- The same for an access of a core that is told where it may come from a hart. -/
def heldByCbo (d : Dev) (after : Option Nat) : Bool := after.any (cboOpen d)

/-- A hart's access to a far-tier line: a load, an instruction fetch or a store (12 R357, R363, R370). A hit needs no message; a
store to E becomes M silently; a miss sends RdS, RdX or Upg. An access to unfitted far tier reads zero and writes nothing (02 R61), one
to a hole faults (10 R307). One that a FENCE orders after cache-block operations waits for them (11 R358). -/
def execL2Miss (core line : Nat) (store : Option (Line × BitVec 64)) (fetch fenced : Bool) (s : State) : Out := act s fun d =>
  if fenced && cboOpen d core then d else
  let x := l2Of d core line
  let ask := fun (k : ReqKind) =>
    if (farLine? d line).isNone then hostElsewhere d core line (if store.isNone then hostSees d (.value core 0 false) else d)
    else if maySend d core line then sendReq d core line k store fetch else d
  match store, x.st with
  | none, .i => ask .rdS
  | none, _ => setL2 d core line (inL1 x fetch)
  | some st, .m => setL2 d core line (storeInto x st)
  | some st, .e => setL2 d core line (storeInto x st)
  | some _, .i => ask .rdX
  | some _, _ => ask .upg

/-- Has a core a write-back credit of a line's home slice (12 R365)? -/
def hasCredit (d : Dev) (core ln : Nat) : Bool :=
  let h := homeOf d ln
  decide ((d.coh.wbs.filter fun w => w.core == core && w.cd == h.1 && w.slice == h.2).length < 2)

/-- Sends a WB or EvictClean under a credit. -/
def sendWb (d : Dev) (core ln : Nat) (b : MsgBody) (clean : Bool) : Dev :=
  if lineLost d ln then d else
  let h := homeOf d ln
  let d := setSent d core ln (if clean then 2 else 1)
  sendMsg { d with coh := { d.coh with wbs := d.coh.wbs ++ [⟨core, ln, h.1, h.2, clean⟩] } } core ln b

/-- Does a line leave a core's L2 without a request of the core on it under way? -/
def mayLeave (d : Dev) (core ln : Nat) : Bool := (mshrOf d core ln).isNone

/-- An L2 victim leaves (12 R365). -/
def execL2Victim (core line : Nat) (s : State) : Out := act s fun d =>
  let x := l2Of d core line
  if !mayLeave d core line then d else
  match x.st with
  | .i => d
  | .s => setL2 d core line {}
  | .e => if hasCredit d core line then sendWb (setL2 d core line {}) core line .evictClean true else d
  | _ => if hasCredit d core line then sendWb (setL2 d core line {}) core line (.wb x.data x.poison .i) false else d

/-- A hart's operation performed at the home of a far-tier line: elsewhere it comes to what `absent` says (02 R61; 10 R307), and one
that a FENCE orders after cache-block operations waits for them (11 R358). -/
def hartAtHome (d : Dev) (core line : Nat) (fenced : Bool) (absent : Dev) (go : Dev) : Dev :=
  if fenced && cboOpen d core then d
  else if (farLine? d line).isNone then hostElsewhere d core line absent
  else if maySend d core line then go else d

/-- Is an operand of 4 or 8 bytes at an offset of a line aligned? -/
def hartAligned (off sz : Nat) : Bool := (sz == 2 || sz == 3) && decide (off % 2 ^ sz = 0 ∧ off < 64)

/-- A hart's AMO on a far-tier line (12 R383): codes of 04 R140 below 9. -/
def execHartAmo (core line off sz op : Nat) (v : Word64) (fenced : Bool) (s : State) : Out := act s fun d =>
  if decide (op < 9) && hartAligned off sz then
    hartAtHome d core line fenced (hostSees d (.value core 0 false)) (sendReq d core line (.amo off sz op v) none)
  else d

/-- The line of a core's latest LR. -/
def setLr (d : Dev) (core : Nat) (ln : Option Nat) : Dev :=
  { d with coh := { d.coh with lr := Sparse.set noLr d.coh.lr core ln } }

/-- A hart's LR (12 R384). -/
def execHartLr (core line off sz : Nat) (fenced : Bool) (s : State) : Out := act s fun d =>
  if hartAligned off sz then
    hartAtHome d core line fenced (hostSees (setLr d core (some line)) (.value core 0 false))
      (sendReq (setLr d core (some line)) core line (.lr off sz) none)
  else d

/-- A hart's SC (12 R385); `trapped` tells that the hart has entered a trap since its latest LR, which cleared the record (R384). One
to unfitted far tier writes nothing, and fails. -/
def execHartSc (core line : Nat) (data : Line) (mask : BitVec 64) (trapped fenced : Bool) (s : State) : Out := act s fun d =>
  let d := if trapped then setLr d core none else d
  if Sparse.get noLr d.coh.lr core ≠ some line then hostSees d (.sc core false)
  else hartAtHome d core line fenced (hostSees d (.sc core false)) (sendReq d core line (.sc data mask) none)

/-- `cbo.clean` (12 R387). One that a FENCE orders after earlier cache-block operations waits for them (11 R358), like the two below. -/
def execHartCboClean (core line : Nat) (fenced : Bool) (s : State) : Out := act s fun d =>
  let x := l2Of d core line
  if !maySend d core line || (fenced && cboOpen d core) then d else
  if x.st = .m ∨ x.st = .o then
    let keep := if x.st = .m then L2State.e else .s
    if hasCredit d core line then
      sendReq (sendWb (setL2 d core line { x with st := keep }) core line (.wb x.data x.poison keep) false) core line
        .cln none
    else d
  else sendReq d core line .cln none

/-- A flush by a core (12 R387). -/
def cboFlush (d : Dev) (core line : Nat) : Dev :=
  let x := l2Of d core line
  if !maySend d core line then d else
  let gone := setL2 d core line {}
  match x.st with
  | .i => sendReq d core line .flu none
  | .s => sendReq gone core line .flu none
  | .e => if hasCredit d core line then sendReq (sendWb gone core line .evictClean true) core line .flu none else d
  | _ =>
    if hasCredit d core line then sendReq (sendWb gone core line (.wb x.data x.poison .i) false) core line .flu none
    else d

/-- `cbo.flush` (12 R387). -/
def execHartCboFlush (core line : Nat) (fenced : Bool) (s : State) : Out := act s fun d =>
  if fenced && cboOpen d core then d else cboFlush d core line

/-- `cbo.inval` (12 R387); `flush` is what the hart's CBIE field selects (11 R358). -/
def execHartCboInval (core line : Nat) (flush fenced : Bool) (s : State) : Out := act s fun d =>
  if fenced && cboOpen d core then d
  else if flush then cboFlush d core line
  else if maySend d core line then sendReq (setL2 d core line {}) core line .inv none
  else d

/-- A forward arrives at a core; `f` gives, by the line's state, the state it keeps and whether the data goes to the
requester with a grant, to the home, or nowhere, and the acknowledgement (12 R374). -/
def snooped (d : Dev) (core ln : Nat) (k : FwdKind)
    (f : L2State → L2State × Option L2State × Bool × MsgBody) : Dev :=
  match findMsg d core ln fun b => match b with
      | .fwd q _ _ => q == k
      | _ => false with
  | none => d
  | some m =>
    let d := dropMsg d m
    match m.body with
    | .fwd _ req comp =>
      let x := l2Of d core ln
      if x.st = .i then
        (if wbSent d core ln ∧ k ≠ .snpInv then sendMsg d core ln .gone else sendMsg d core ln .invAck)
      else
        let (st, grant, home, ack) := f x.st
        let d := setL2 d core ln (if st = .i then {} else { x with st := st })
        let d := match grant, req with
          | some g, some n => sendMsg d n ln (.fwdData x.data g x.poison comp)
          | _, _ => d
        if home then sendMsg d core ln (.snpData x.data x.poison) else sendMsg d core ln ack
    | _ => d

/-- SnpS arrives (12 R374). -/
def execSnps (core line : Nat) (s : State) : Out := act s fun d =>
  snooped d core line .snpS fun st => match st with
    | .m => (.o, some .s, false, .snpAck .o)
    | .o => (.o, some .s, false, .snpAck .o)
    | .e => (.s, some .s, false, .snpAck .s)
    | st => (st, none, false, .invAck)

/-- SnpX arrives (12 R374). -/
def execSnpx (core line : Nat) (s : State) : Out := act s fun d =>
  snooped d core line .snpX fun st => match st with
    | .s => (.i, none, false, .invAck)
    | _ => (.i, some .m, false, .snpAck .i)

/-- SnpInv arrives (12 R374). -/
def execSnpinv (core line : Nat) (s : State) : Out := act s fun d =>
  snooped d core line .snpInv fun _ => (.i, none, false, .invAck)

/-- SnpRecall arrives (12 R374). -/
def execSnprecall (core line : Nat) (s : State) : Out := act s fun d =>
  snooped d core line .snpRecall fun st => match st with
    | .m => (.i, none, true, .invAck)
    | .o => (.i, none, true, .invAck)
    | _ => (.i, none, false, .invAck)

/-- SnpClean arrives (12 R374). -/
def execSnpclean (core line : Nat) (s : State) : Out := act s fun d =>
  snooped d core line .snpClean fun st => match st with
    | .m => (.e, none, true, .invAck)
    | .o => (.s, none, true, .invAck)
    | st => (st, none, false, .snpAck st)

/-- A request of a core after a reply: complete when its data and any Comp are in; then CompAck goes (12 R373). -/
def completeReq (d : Dev) (m : Mshr) : Dev :=
  let others := d.coh.mshr.filter fun q => !(q.core == m.core && q.line == m.line)
  if m.dataIn && (!m.needComp || m.compIn) then
    sendMsg { d with coh := { d.coh with mshr := others } } m.core m.line .compAck
  else { d with coh := { d.coh with mshr := others ++ [m] } }

/-- A line granted to a core; the store that missed is made in it. -/
def grantLine (d : Dev) (m : Mshr) (x : Line) (g : L2State) (p : Bool) : Dev :=
  let l : L2Line := inL1 { st := g, data := x, poison := p } m.fetch
  let d := setSent d m.core m.line 0
  setL2 d m.core m.line (match m.store with
    | some st => if g = .m ∨ g = .e then storeInto l st else l
    | none => l)

/-- Data arrives at a requester, from the home or an owner. -/
def takeData (d : Dev) (core ln : Nat) (b : MsgBody → Option (Line × L2State × Bool × Bool)) : Dev :=
  match findMsg d core ln fun x => (b x).isSome with
  | none => d
  | some msg =>
    let d := dropMsg d msg
    match b msg.body, mshrOf d core ln with
    | some (x, g, p, comp), some m =>
      completeReq (grantLine d m x g p) { m with dataIn := true, needComp := comp }
    | _, _ => d

/-- Data arrives at the requester (12 R372, R373). -/
def execData (core line : Nat) (s : State) : Out := act s fun d =>
  takeData d core line fun b => match b with
    | .data x g p c => some (x, g, p, c)
    | _ => none

/-- FwdData arrives at the requester (12 R372, R373). -/
def execFwddata (core line : Nat) (s : State) : Out := act s fun d =>
  takeData d core line fun b => match b with
    | .fwdData x g p c => some (x, g, p, c)
    | _ => none

/-- Comp arrives at the requester (12 R372, R373, R385, R387). -/
def execComp (core line : Nat) (s : State) : Out := act s fun d =>
  match findMsg d core line fun b => match b with
      | .comp _ _ => true
      | _ => false with
  | none => d
  | some msg =>
    let d := dropMsg d msg
    match mshrOf d core line, msg.body with
    | some m, .comp g sc =>
      let d := match sc with
        | some ok => hostSees d (.sc core ok)
        | none => d
      match m.kind with
      | .rdX => completeReq d { m with compIn := true }
      | .upg =>
        let x := l2Of d core line
        if m.dataIn ∨ x.st = .i then completeReq d { m with compIn := true }
        else completeReq (grantLine d m x.data g x.poison) { m with dataIn := true }
      | _ => completeReq d { m with dataIn := true }
    | _, _ => d

/-- AmoData arrives at the core (12 R383, R384). -/
def execAmodata (core line : Nat) (s : State) : Out := act s fun d =>
  match findMsg d core line fun b => match b with
      | .amoData _ _ => true
      | _ => false with
  | none => d
  | some msg =>
    let d := dropMsg d msg
    match mshrOf d core line, msg.body with
    | some m, .amoData v p => completeReq (hostSees d (.value core v.toNat p)) { m with dataIn := true }
    | _, _ => d

/-- WbAck arrives: a write-back credit returns (12 R365). -/
def execWback (core line : Nat) (s : State) : Out := act s fun d =>
  match findMsg d core line fun b => b == .wbAck with
  | none => d
  | some m =>
    let d := dropMsg d m
    match d.coh.wbs.find? fun w => w.core == core && w.line == line with
    | some w => { d with coh := { d.coh with wbs := d.coh.wbs.erase w } }
    | none => d

end Sys2Proof.Machine
end

