-- ==== Sys2Proof/Machine/Frame.lean ====
section
/-! DEFINITION. The frames that carry CTP messages (14 R416 to R418, R421): headers, checksums and padding, byte by byte. -/

namespace Sys2Proof.Machine

open Parts

/-- n bytes of a number, the most significant first. -/
def beBytes (n x : Nat) : List Byte := (leBytes n x).reverse

/-- The number that bytes spell, the most significant first. -/
def beNat (bs : List Byte) : Nat := leNat bs.reverse

/-- The bytes of a CTP message: four little-endian words, then its payload (14 R421). -/
def ctpBytes (m : Ctp) : List Byte :=
  leBytes 8 (m.ver + m.typ * 2 ^ 4 + m.cls * 2 ^ 10 + b2n m.ackreq * 2 ^ 12 + b2n m.last * 2 ^ 13 + b2n m.ecne * 2 ^ 14 +
      b2n m.retx * 2 ^ 15 + m.dst * 2 ^ 16 + b2n m.ackv * 2 ^ 29 + m.src * 2 ^ 32 + m.data.length * 2 ^ 51) ++
    leBytes 8 (m.psn + m.ack * 2 ^ 32) ++ leBytes 8 m.w2.toNat ++ leBytes 8 m.w3.toNat ++ m.data

/-- The CRC of the Ethernet FCS before its last inversion, from a value and some bytes, the least significant bit of each first (IEEE
802.3: PRESUMED, log entry 68). -/
def crcStep : Nat → BitVec 32 → BitVec 32
  | 0, c => c
  | n + 1, c => crcStep n (if c.getLsbD 0 then (c >>> 1) ^^^ 0xEDB88320 else c >>> 1)

/-- The four bytes of a frame check sequence (14 R416, R418). -/
def fcsBytes (bs : List Byte) : List Byte :=
  leBytes 4 (~~~ (bs.foldl (fun c b => crcStep 8 (c ^^^ b.setWidth 32)) (BitVec.allOnes 32))).toNat

/-- The sum of the 16-bit words of some bytes, the first the more significant, the last padded with zero. -/
def wordSum : List Byte → Nat
  | a :: b :: rest => a.toNat * 256 + b.toNat + wordSum rest
  | [a] => a.toNat * 256
  | [] => 0

/-- A one's-complement sum folded to 16 bits. -/
def fold16 (n : Nat) : Nat := if n = 0 then 0 else (n - 1) % 65535 + 1

/-- The headers that a channel puts before a message with Ethernet framing (14 R416): MAC addresses, priority and VLAN id of a tag
if there is one, traffic class, IPv6 addresses, UDP ports. -/
structure FrameHead where
  dstMac : Nat
  srcMac : Nat
  tag : Option (Nat × Nat)
  tclass : Nat
  srcIp : Nat
  dstIp : Nat
  sport : Nat
  dport : Nat
  deriving DecidableEq, Repr

/-- What the UDP checksum is computed over beside the datagram: the addresses, its length and the next header (IPv6's pseudo-header:
PRESUMED, log entry 68). -/
def pseudoHead (srcIp dstIp n : Nat) : List Byte := beBytes 16 srcIp ++ beBytes 16 dstIp ++ beBytes 4 n ++ beBytes 4 17

/-- The UDP checksum of a payload (14 R416); a sum of zero is sent as all ones. -/
def udpSum (h : FrameHead) (body : List Byte) : Nat :=
  let n := 8 + body.length
  let s := 65535 - fold16 (wordSum (pseudoHead h.srcIp h.dstIp n ++ beBytes 2 h.sport ++ beBytes 2 h.dport ++ beBytes 2 n ++
    beBytes 2 0 ++ body))
  if s = 0 then 65535 else s

/-- A frame with Ethernet framing (14 R416): Ethernet header, 802.1Q tag, IPv6 and UDP headers, the message, FCS. -/
def ethFrame (h : FrameHead) (body : List Byte) : List Byte :=
  let tag := match h.tag with
    | some (pcp, vid) => beBytes 2 0x8100 ++ beBytes 2 (pcp * 2 ^ 13 + vid)
    | none => []
  let ip := beBytes 4 (6 * 2 ^ 28 + h.tclass * 2 ^ 20) ++ beBytes 2 (8 + body.length) ++ beBytes 1 17 ++ beBytes 1 64 ++
    beBytes 16 h.srcIp ++ beBytes 16 h.dstIp
  let udp := beBytes 2 h.sport ++ beBytes 2 h.dport ++ beBytes 2 (8 + body.length) ++ beBytes 2 (udpSum h body)
  let f := beBytes 6 h.dstMac ++ beBytes 6 h.srcMac ++ tag ++ beBytes 2 0x86DD ++ ip ++ udp ++ body
  f ++ fcsBytes f

/-- A frame with direct framing (14 R418): the message, zeros to 60 B, a CRC-32. -/
def directFrame (body : List Byte) : List Byte :=
  let f := body ++ List.replicate (60 - body.length) 0
  f ++ fcsBytes f

/-- A frame without its tag, if it has one (14 R417). -/
def stripTag (bs : List Byte) : List Byte :=
  if beNat ((bs.drop 12).take 2) = 0x8100 then bs.take 12 ++ bs.drop 16 else bs

/-- Is a frame, given without its FCS, a CTP frame of a channel with a MAC address, an IPv6 address and a UDP port (14 R417)? -/
def isCtpFrame (mac ip port : Nat) (bytes : List Byte) : Bool :=
  let f := stripTag bytes
  let at_ := fun i n => beNat ((f.drop i).take n)
  let n := at_ 18 2
  let udp := (f.drop 54).take n
  at_ 0 6 == mac && at_ 12 2 == 0x86DD && at_ 14 1 / 16 == 6 && at_ 20 1 == 17 && at_ 38 16 == ip && at_ 56 2 == port &&
    at_ 60 2 != 0 && fold16 (wordSum (pseudoHead (at_ 22 16) (at_ 38 16) n ++ udp)) == 65535

end Sys2Proof.Machine
end

