-- ==== Sys2Proof/Machine/Convoys.lean ====
section
/-! DEFINITION. Channels and convoys as stores (14): contexts, transfers and their ends, acknowledgements, host requests,
frames sent. -/

namespace Sys2Proof.Machine

open Parts

/-! Moves. -/

/-- A move that has moved or failed completes next; until then it waits for its reduce-writes, messages and bytes. -/
def settleMove (d : Dev) (m : MoveId) : Dev :=
  if d.reds.any fun r => r.owner == .move m then d
  else updMove d m fun v => if v.phase = .moving ∧ v.msgs = 0 ∧ v.bytes = 0 then { v with phase := .moved } else v

/-! Channels. -/

/-- A channel of which nothing has been recorded. -/
def noChan (_ : Nat) : Channel := {}

/-- Channel ch. -/
def chanOf (d : Dev) (ch : Nat) : Channel := Sparse.get noChan d.ch ch

/-- Stores a channel. -/
def setChannel (d : Dev) (ch : Nat) (x : Channel) : Dev := { d with ch := Sparse.set noChan d.ch ch x }

/-- A closed convoy. -/
def noConvoy (_ : Nat) : Convoy := {}

/-- Convoy idx of channel ch. -/
def convoyOf (d : Dev) (ch idx : Nat) : Convoy := Sparse.get noConvoy (chanOf d ch).convoys idx

/-- Stores a convoy. -/
def setConvoy (d : Dev) (ch idx : Nat) (x : Convoy) : Dev :=
  let c := chanOf d ch
  setChannel d ch { c with convoys := Sparse.set noConvoy c.convoys idx x }

/-- A CHN register. -/
def chnOff (ch reg : Nat) : Nat := regOff 4 0x19 ch reg

/-- The partition of a channel (02 R47; its register is the model's choice, log entry 8). -/
def chanPart (d : Dev) (ch : Nat) : Nat := regFld d (chnOff ch 0x18) 3 0

/-- The level of a channel (14 R447). -/
def chanLevel (d : Dev) (ch : Nat) : Nat := regFld d (chnOff ch 0) 4 3

/-- A LVL register. -/
def lvlOff (level reg : Nat) : Nat := regOff 4 0x1E level reg

/-- A credit of a channel's level is granted to a class, which is saturated no more (16 R500). -/
def levelCredit (d : Dev) (ch cls : Nat) : Dev := setRegFld d (lvlOff (chanLevel d ch) 1) cls cls 0

/-- Does a channel use direct framing? -/
def isDirect (d : Dev) (ch : Nat) : Bool := regFld d (chnOff ch 0) 1 1 == 1

/-- Is a channel's link able to carry frames? -/
def linkUp (d : Dev) (ch : Nat) : Bool := decide (2 ≤ (chanOf d ch).link)

/-- A bit of a channel's FN.MODE (02 R57). -/
def chanMode (d : Dev) (ch b : Nat) : Bool := regFld d (fnOff (16 + ch)) b b == 1

/-- The id of a convoy (00, identifiers). -/
def convoyId (ch idx : Nat) : Nat := ch * 8192 + idx

/-- A per-class count of zero. -/
def zeroCnt (_ : Nat) : Nat := 0

/-- The capacity of a class's receive queue in words (14 R441). -/
def rqCap (cls : Nat) : Nat := if cls = 0 ∨ cls = 3 then 1024 else 3072

/-- The 64-byte words that a message takes (14 R431). -/
def msgWords (m : Ctp) : Nat := ceilDiv (32 + m.data.length) 64

/-- The messages of a class that stand in a channel's receive queue (14 R441, R442). -/
def queuedRx (d : Dev) (ch cls : Nat) : List RxHeld :=
  (chanOf d ch).convoys.flatMap fun v => v.2.held.filter fun h => !h.reduce && h.rx.m.cls == cls

/-- The words of a class's receive queue in use, reservations included (14 R430, R441, R450). -/
def rqUsed (d : Dev) (ch cls : Nat) : Nat :=
  Sparse.get zeroCnt (chanOf d ch).reserved cls + ((queuedRx d ch cls).map fun h => msgWords h.rx.m).foldl (· + ·) 0

/-- The PSN modulus. -/
def psnMod : Nat := 2 ^ 32

/-- Does PSN a come before b, within half the space (14 R424)? -/
def psnBefore (a b : Nat) : Bool := let x := (b + psnMod - a % psnMod) % psnMod; decide (0 < x ∧ x ≤ 2 ^ 31)

/-- The trace of a message sent or received (20 R609). -/
def traceMsg (d : Dev) (ch idx : Nat) (m : Ctp) (rx : Bool) : Dev :=
  trace d 4 0x19 ch 9 (some (chanPart d ch)) (some m.cls) (idx + m.typ * 2 ^ 13 + b2n rx * 2 ^ 19) m.psn

/-- A class P message that reaches a direct-framed channel as a retransmission, or over a flight above the budget, is a cadence
miss of the HD where the channel's partition runs class P in cadence mode (15 R464, R468, R469, R479; log entry 43). -/
def hopMiss (d : Dev) (ch : Nat) (m : Ctp) : Dev :=
  if m.cls = 0 ∧ isDirect d ch ∧ regFld d (regOff 5 0x1B (chanPart d ch) 0) 0 0 = 1 ∧
    (m.retx ∨ regFld d (regOff 4 0x1C ch 0) 13 13 = 1) then cadMiss d 4 2
  else d

/-- Counts and traces a message that is accepted (20 R609, R616). -/
def noteReceived (d : Dev) (ch : Nat) (m : Ctp) : Dev :=
  hopMiss (traceMsg (addCtr d (regOff 4 0x2D ch 2) (32 + m.data.length)) ch m.dst m true) ch m

/-- The priority code point of a class (14 R416). -/
def classPcp (cls : Nat) : Nat := 7 - 2 * cls

/-- CHN.MAC (14 R452). -/
def chanMac (d : Dev) (ch : Nat) : Nat := regFld d (chnOff ch 6) 31 0 + regFld d (chnOff ch 7) 15 0 * 2 ^ 32

/-- CHN.IP (14 R452): IP0 holds the most significant bits. -/
def chanIp (d : Dev) (ch : Nat) : Nat :=
  regFld d (chnOff ch 8) 31 0 * 2 ^ 96 + regFld d (chnOff ch 9) 31 0 * 2 ^ 64 + regFld d (chnOff ch 0xA) 31 0 * 2 ^ 32 +
    regFld d (chnOff ch 0xB) 31 0

/-- The headers of a convoy's messages of a class (14 R416): the traffic class is the class's DSCP with ECT(0). -/
def frameHead (d : Dev) (ch idx cls : Nat) : FrameHead :=
  let v := convoyOf d ch idx
  { dstMac := v.mac, srcMac := chanMac d ch
    tag := if regFld d (chnOff ch 0xC) 28 28 = 1 then some (classPcp cls, regFld d (chnOff ch 0xC) 27 16) else none
    tclass := regFld d (chnOff ch 0xD) (6 * cls + 5) (6 * cls) * 4 + 2
    srcIp := chanIp d ch, dstIp := v.ip, sport := v.sport, dport := regFld d (chnOff ch 0xC) 15 0 }

/-- The bytes of the frame that carries a convoy's message (14 R416, R418). -/
def frameOf (d : Dev) (ch idx : Nat) (m : Ctp) : List Byte :=
  if isDirect d ch then directFrame (ctpBytes m) else ethFrame (frameHead d ch idx m.cls) (ctpBytes m)

/-- Puts a frame among those that a channel has transmitted. -/
def putFrame (d : Dev) (ch idx : Nat) (f : TxFrame) : Dev :=
  let x := chanOf d ch
  let v := convoyOf d ch idx
  setConvoy (setChannel d ch { x with tx := x.tx ++ [f], sent := x.sent + 1 }) ch idx { v with lastTx := x.sent + 1 }

/-- Transmits a message of a convoy in its frame (14 R416, R418; 20 R616 counts the message bytes). -/
def sendMessage (d : Dev) (ch idx : Nat) (m : Ctp) : Dev :=
  if !linkUp d ch then d else
  traceMsg (addCtr (putFrame d ch idx (.ctp m (frameOf d ch idx m))) (regOff 4 0x2D ch 0) (32 + m.data.length)) ch idx m false

/-- Transmits a raw frame, with its FCS (14 R439). -/
def sendRaw (d : Dev) (ch : Nat) (bytes : List Byte) : Dev :=
  if !linkUp d ch then d else putFrame d ch 0 (.raw (bytes ++ fcsBytes bytes))

/-- A control message to a convoy's peer (14 R421, R422). -/
def control (ch idx peer typ psn : Nat) (w2 w3 : Word64) : Ctp :=
  { ver := 1, typ := typ, cls := 1, ackreq := false, last := false, ecne := false, retx := false, dst := peer,
    src := convoyId ch idx, ackv := false, psn := psn, ack := 0, w2 := w2, w3 := w3, data := [] }

/-- Every accepted message with a PSN below this has been performed (14 R421). -/
def ackValue (v : Convoy) : Nat :=
  match v.held with
  | h :: _ => h.rx.m.psn
  | [] => v.rcvNxt

/-- Sends one ACK of every PSN below a value (14 R425, R431, R440, R443). -/
def sendAckOf (d : Dev) (ch idx a : Nat) (pois : Bool) : Dev :=
  let v := convoyOf d ch idx
  let m := control ch idx v.peer 0x0D 0 (BitVec.ofNat 64 (v.ringHead + b2n pois * 2 ^ 32)) 0
  let d := setConvoy d ch idx { v with ackSent := a, ceSeen := false }
  sendMessage d ch idx { m with ecne := v.ceSeen, ackv := true, ack := a }

/-- Acknowledges a message that wrote poisoned data, alone (14 R443): what comes before it first. -/
def sendAckPois (ch idx : Nat) (d : Dev) (psn : Nat) : Dev :=
  let d := if psnBefore (convoyOf d ch idx).ackSent psn then sendAckOf d ch idx psn false else d
  sendAckOf d ch idx ((psn + 1) % psnMod) true

/-- Acknowledges every performed message, each that wrote poisoned data alone (14 R425, R443). -/
def sendAck (d : Dev) (ch idx : Nat) : Dev :=
  let v := convoyOf d ch idx
  let a := ackValue v
  let due := v.poisRx.filter fun p => psnBefore p a
  let d := setConvoy d ch idx { v with ackDue := false, poisRx := v.poisRx.filter fun p => !psnBefore p a }
  let d := due.foldl (sendAckPois ch idx) d
  if due != [] && (convoyOf d ch idx).ackSent == a then d else sendAckOf d ch idx a false

/-- Puts a PSN among others, in their order. -/
def insertPsn (p : Nat) : List Nat → List Nat
  | [] => [p]
  | q :: qs => if p = q then q :: qs else if psnBefore p q then p :: q :: qs else q :: insertPsn p qs

/-- Sends a NAK (14 R422): reason, translation cause, the PSN referred to. -/
def sendNak (d : Dev) (ch idx peer reason cause psn : Nat) : Dev :=
  sendMessage d ch idx (control ch idx peer 0x0E psn (BitVec.ofNat 64 (reason + cause * 16 + psn * 2 ^ 32)) 0)

/-- The address and exponent of an area register pair (14 R452). -/
def areaOf (d : Dev) (ch reg : Nat) : Nat × Nat :=
  (regFld d (chnOff ch (reg + 1)) 15 0 * 2 ^ 32 + regFld d (chnOff ch reg) 31 12 * 4096, regFld d (chnOff ch reg) 4 0)

/-- Writes a request that waits to the host request ring, while there is room (14 R444). -/
def flushHreq : Nat → Dev → Nat → Dev
  | 0, d, _ => d
  | n + 1, d, ch =>
    let x := chanOf d ch
    let (base, e) := areaOf d ch 0x12
    match x.hreqWait with
    | [] => d
    | (kind, convoy, psn) :: rest =>
      if e = 0 ∨ 2 ^ e / 32 ≤ (x.hreqTail + psnMod - x.hreqHead) % psnMod then d
      else
        let gen := (x.hreqTail + 1) % 2 ^ 16
        let w0 := gen + kind * 2 ^ 16 + convoy * 2 ^ 22
        let d := writeAt d (base + 32 * (x.hreqTail % (2 ^ e / 32))) (leBytes 8 w0 ++ leBytes 8 psn ++ leBytes 16 0) false
        flushHreq n (setChannel d ch { chanOf d ch with hreqTail := (x.hreqTail + 1) % psnMod, hreqWait := rest }) ch

/-- A host request: its record, and the chime of its function (14 R432, R444). -/
def hostRequest (d : Dev) (ch kind idx psn chime : Nat) : Dev :=
  let x := chanOf d ch
  let d := setChannel d ch { x with hreqWait := x.hreqWait ++ [(kind, idx, psn)] }
  raiseChime (flushHreq (x.hreqWait.length + 1) d ch) chime

/-- The block of a path of a tile. -/
def blockAt (d : Dev) (c t slot : Nat) : Option Nat := (groupAt (tileOf d c t) slot).map fun g => g.blk

/-- Takes a convoy's gong update out of those that convoys carry. -/
def dropCv (d : Dev) (u : GongUpd) : Dev :=
  match d.gg.cv.find? fun x => x.upd == u with
  | some x => { d with gg := { d.gg with cv := d.gg.cv.erase x } }
  | none => d

/-- A convoy's gong update ends with LINK: in its block's status, or its queue's accumulator (14 R429, R436). -/
def linkUpdate (d : Dev) (u : GongUpd) : Dev :=
  let d := settleChimes (dropCv d u)
  match u.who with
  | .path c t slot _ =>
    match blockAt d c t slot with
    | some b => raiseStatus d c t b stLink
    | none => d
  | .queue q => accumulate d q stLink
  | _ => d

/-- Is a move's destination remote (09 R270, R271)? -/
def remoteDst (m : Move) : Bool := fld (listGet 0 m.words 7) 58 57 == 2

/-- A move fails with status bits, on its remote side (09 R274, R301): none of its remaining messages is sent, and it completes next (14 R429, R436). -/
def failMove (d : Dev) (m : MoveId) (st : Nat) : Dev :=
  let d := { d with reds := d.reds.filter fun r => r.owner != RedOwner.move m }
  let d := { d with ch := d.ch.map fun c => (c.1, { c.2 with convoys := c.2.convoys.map fun v =>
    (v.1, { v.2 with
      sendq := v.2.sendq.filter fun r => r.owner != .move m
      recs := v.2.recs.map fun r => if r.owner = .move m then { r with owner := .none } else r }) }) }
  updMove d m fun v => { v with status := v.status ||| st, side := b2n (remoteDst v), phase := .moved, msgs := 0, bytes := 0 }

/-- A transfer ends with LINK. -/
def linkOwner (d : Dev) (o : TxOwner) : Dev :=
  match o with
  | .move m => failMove d m stLink
  | .gong u => linkUpdate d u
  | _ => d

/-- Queue words that a record reserved are free again (14 R430). -/
def unreserve (d : Dev) (ch : Nat) (r : TxRec) : Dev :=
  if r.resv = 0 then d else
  let x := chanOf d ch
  let n := Sparse.get zeroCnt x.reserved r.msg.cls - r.resv
  setChannel d ch { x with reserved := Sparse.set zeroCnt x.reserved r.msg.cls n }

/-- A tracking record is freed (14 R430, R445). -/
def freeRec (d : Dev) (ch : Nat) (r : TxRec) : Dev :=
  let x := chanOf d ch
  unreserve (if r.spilled then setChannel d ch { x with spillUsed := x.spillUsed - 1 } else d) ch r

/-- Every unfinished transfer of a convoy ends with LINK (14 R436). -/
def failTransfers (d : Dev) (ch idx : Nat) : Dev :=
  let v := convoyOf d ch idx
  let d := (v.recs ++ v.sendq).foldl (fun d r => linkOwner d r.owner) d
  let v := convoyOf d ch idx
  let d := v.recs.foldl (fun d r => freeRec d ch r) d
  let v := convoyOf d ch idx
  setConvoy d ch idx { v with recs := [], sendq := [] }

/-- A convoy ends: its transfers complete with LINK and its context is empty (14 R436). -/
def closeConvoy (d : Dev) (ch idx : Nat) : Dev :=
  let d := failTransfers d ch idx
  let v := convoyOf d ch idx
  setConvoy d ch idx { v with st := .closed, held := [], kept := [], ackDue := false, closeWait := false, tries := 0 }

/-- Puts a transfer's messages on a convoy; a convoy that takes no transfer ends them with LINK (14 R434, R436). -/
def enqueueTx (d : Dev) (ch idx : Nat) (rs : List TxRec) : Dev :=
  let v := convoyOf d ch idx
  if v.st = .open_ ∨ v.st = .opening then setConvoy d ch idx { v with sendq := v.sendq ++ rs }
  else rs.foldl (fun d r => linkOwner d r.owner) d

/-- The bytes at some physical ranges. -/
def gather (d : Dev) (src : List (Nat × Nat)) : List Byte := src.flatMap fun e => bytesAt d e.1 e.2

/-- Retransmits one message: its source is read again, and poison in it gives its move POISON (09 R277; 14 R427). -/
def resend (ch idx : Nat) (d : Dev) (r : TxRec) : Dev :=
  if r.src = [] ∨ r.msg.typ = 0x03 then sendMessage d ch idx { r.msg with retx := true } else
  let d := readLines d [] (r.src.map fun e => e.1 / 64)
  let d := match r.owner with
    | .move m => if r.src.any fun e => poisonAt d (e.1 / 64) then moveStatus d m stPoison else d
    | _ => d
  sendMessage d ch idx { r.msg with retx := true, data := gather d r.src }

/-- Retransmits every unacknowledged message from a PSN, its source read again (14 R427, R445). -/
def retransmit (d : Dev) (ch idx psn : Nat) : Dev :=
  let v := convoyOf d ch idx
  let rs := v.recs.filter fun r => !psnBefore r.msg.psn psn
  if rs = [] then d else
  rs.foldl (resend ch idx) (setFlag d (chnOff ch 5) 2)

/-- `CHN.CC` fields: initial, greatest and least exponent of the window, initial `rto` (14 R452). -/
def ccField (d : Dev) (ch i : Nat) : Nat :=
  match i with
  | 0 => regFld d (chnOff ch 0xE) 4 0
  | 1 => regFld d (chnOff ch 0xE) 9 5
  | 2 => regFld d (chnOff ch 0xE) 14 10
  | _ => regFld d (chnOff ch 0xE) 30 15

/-- Halves the window, at most once per RTO, down to its least value (14 R431). -/
def halveWindow (d : Dev) (ch idx : Nat) : Dev :=
  let v := convoyOf d ch idx
  let now := (reg64 d hdPcntOff).toNat
  let soon := match v.halvedAt with
    | some t => decide (t ≤ now ∧ now < t + v.rto * 256)
    | none => false
  if soon || isDirect d ch then d
  else setConvoy d ch idx { v with cwnd := max (v.cwnd / 2) (2 ^ ccField d ch 2), halvedAt := some now }

/-- One acknowledged record: its transfer has one message less to wait for (14 R425, R429, R443). -/
def ackRec (d : Dev) (r : TxRec) (pois : Bool) : Dev :=
  match r.owner with
  | .move m =>
    let d := if pois then moveStatus d m stPoison else d
    settleMove (updMove d m fun v => { v with msgs := v.msgs - 1 }) m
  | .gong u => settleChimes (dropCv d u)
  | _ => d

/-- An acknowledgement at the sender (14 R425, R427, R431, R440, R443). -/
def processAck (d : Dev) (ch idx a : Nat) (pois : Bool) (ecne : Bool) : Dev :=
  let v := convoyOf d ch idx
  let d := if !psnBefore v.sndUna a || psnBefore v.sndNxt a then d
    else
      let done := v.recs.filter fun r => psnBefore r.msg.psn a && !r.acked
      let words := (done.map fun r => msgWords r.msg).foldl (· + ·) 0
      let d := (done.filter fun r => r.left == 0).foldl (fun d r => freeRec d ch r) d
      let v := convoyOf d ch idx
      let grow := !v.host && !isDirect d ch
      let cwnd := if grow ∧ 0 < v.cwnd then min (2 ^ ccField d ch 1) (v.cwnd + words * 64 / v.cwnd) else v.cwnd
      let d := setConvoy d ch idx { v with
        sndUna := a, recs := (v.recs.filter fun r => !(psnBefore r.msg.psn a && r.left == 0)).map fun r =>
          if psnBefore r.msg.psn a then { r with acked := true } else r
        retries := if v.host then v.retries else 0
        rto := if v.host then v.rto else ccField d ch 3
        cwnd := cwnd }
      done.foldl (fun d r => ackRec d r (pois && (r.msg.psn + 1) % psnMod == a)) d
  if !ecne then d
  else
    let v := convoyOf d ch idx
    if !v.host then halveWindow d ch idx
    else if v.askedEcn then d
    else hostRequest (setConvoy d ch idx { v with askedEcn := true }) ch 3 idx v.sndUna (4240 + ch)

/-! Addresses. -/

/-- The far tier or a scratch slice of a partition: where command arguments, images and records may lie (14 R451). -/
def plainPa (d : Dev) (part pa : Nat) : Bool :=
  match paKind d pa with
  | .far _ _ => true
  | .scratch c s => sliceMode d c s == 1 && slicePart d c s == part
  | _ => false

/-- Is an argument address usable: aligned, and both its ends in the far tier or scratch of the partition? -/
def argOk (d : Dev) (part pa n align : Nat) : Bool :=
  pa % align == 0 && plainPa d part pa && plainPa d part (pa + n - 1)

/-- A remote range translated in a convoy's host space, line by line: its physical ranges, a cause, or a wait (14 R428). -/
def xlatRange (d : Dev) (ch hx : Nat) (acc : Access) : List (Nat × Nat) → List (Nat × Nat) → Dev × (XRes ⊕ List (Nat × Nat))
  | [], got => (d, .inr got)
  | (va, n) :: rest, got =>
    match translate d (.chan ch) (.host hx) (va % vaMod) acc with
    | (d, .ok pa) => xlatRange d ch hx acc rest (got ++ [(pa, n)])
    | (d, r) => (d, .inl r)

/-- A range of bytes cut at line boundaries, at most `k` pieces. -/
def cutLines : Nat → Nat → Nat → List (Nat × Nat)
  | 0, _, _ => []
  | k + 1, va, n =>
    if n = 0 then [] else
    let m := min n (64 - va % 64)
    (va, m) :: cutLines k (va + m) (n - m)

/-- The lines of a range of bytes. -/
def rangeLines (va n : Nat) : List (Nat × Nat) := cutLines (n / 64 + 2) va n

end Sys2Proof.Machine
end

