-- ==== Sys2Proof/Machine/PealTree.lean ====
section
/-! DEFINITION. The arm phase of a peal at a node (19 R591 to R595), which a convoy's failure can end, and that failure
(14 R427, R436). -/

namespace Sys2Proof.Machine

open Parts

/-- A register of a peal slot. -/
def pealOff (slot reg : Nat) : Nat := regOff 5 0x2A slot reg

/-- Bit [19] of word 3 of a peal descriptor: `has_parent` (19 R590). -/
def hasParent (x : PealSlot) : Bool := bit (listGet 0 x.words 3) 19

/-- A peal slot of which nothing has been recorded. -/
def noPeal (_ : Nat) : PealSlot := {}

/-- A peal slot. -/
def pealOf (d : Dev) (slot : Nat) : PealSlot := Sparse.get noPeal d.peal slot

/-- Stores a peal slot. -/
def setPeal (d : Dev) (slot : Nat) (x : PealSlot) : Dev := { d with peal := Sparse.set noPeal d.peal slot x }

/-- Bits [hi:lo] of a descriptor's word (19 R590). -/
def pealFld (x : PealSlot) (word hi lo : Nat) : Nat := fld (listGet 0 x.words word) hi lo

/-- The depth d of a node and the depth D of its tree (19 R590). -/
def pealDepth (x : PealSlot) : Nat × Nat := (pealFld x 1 23 16, pealFld x 1 31 24)

/-- A node's own number. -/
def pealNode (x : PealSlot) : Nat := pealFld x 1 15 0

/-- Is child i valid? -/
def pealChild (x : PealSlot) (i : Nat) : Bool := pealFld x (8 + i) 19 19 == 1

/-- The convoy of child i, as channel and index. -/
def childConvoy (x : PealSlot) (i : Nat) : Nat × Nat := let c := pealFld x (8 + i) 18 0; (c / 8192, c % 8192)

/-- The parent's convoy, as channel and index. -/
def parentConvoy (x : PealSlot) : Nat × Nat := let c := pealFld x 3 18 0; (c / 8192, c % 8192)

/-- The valid children, by index. -/
def pealChildren (x : PealSlot) : List Nat := (upto 16).filter (pealChild x)

/-- The first 32 B of a peal message's payload (19 R591). -/
def pealBody (id epoch node status decision armed lost late m overflow : Nat) : List Byte :=
  leBytes 4 id ++ leBytes 4 epoch ++ leBytes 2 node ++ leBytes 1 status ++ leBytes 1 decision ++ leBytes 4 armed ++
    leBytes 4 lost ++ leBytes 4 late ++ leBytes 4 0 ++ leBytes 2 m ++ leBytes 1 overflow ++ leBytes 1 0

/-- Sends a peal message on a convoy: sequenced, class P, words 2 and 3 zero (14 R448; 19 R591). -/
def sendPeal (d : Dev) (ch idx typ : Nat) (body : List Byte) : Dev :=
  let m := control ch idx (convoyOf d ch idx).peer typ 0 0 0
  enqueueTx d ch idx [{ msg := { m with cls := 0, last := true, data := body }, owner := .none, src := [] }]

/-- A message of a slot that tells no counts. -/
def pealPlain (x : PealSlot) (late : Nat) : List Byte :=
  pealBody (pealFld x 0 31 0) (pealFld x 0 63 32) (pealNode x) 0 0 0 0 late 0 0

/-- The counts of a slot's arm phase: an acknowledgement, or with the decision the result record (19 R591, R593). -/
def pealCounts (x : PealSlot) (decision : Nat) : List Byte :=
  pealBody (pealFld x 0 31 0) (pealFld x 0 63 32) (pealNode x) 0 decision x.armed x.lost 0 x.list.length (b2n x.overflow) ++
    x.list.flatMap fun n => leBytes 2 n

/-- The children that acknowledged as armed get PEAL_ABORT (19 R595). -/
def abortChildren (d : Dev) (slot : Nat) : Dev :=
  let x := pealOf d slot
  x.ackd.foldl (fun d i =>
    let c := childConvoy x i
    sendPeal d c.1 c.2 0x13 (pealPlain x 0)) d

/-- A gong of a descriptor's word 4 is added 1, with release at system scope: 0 the strike gong, 1 the abort gong (19 R594,
R595). -/
def pealGong (d : Dev) (x : PealSlot) (which : Nat) : Dev :=
  let g := pealFld x 4 (18 * which + 16) (18 * which)
  if pealFld x 4 (18 * which + 17) (18 * which + 17) = 1 ∧ cdFitted d.variant (gongCd g) then
    sendUpdate d ⟨g, .add, 1, 3, .host, 0⟩ else d

/-- A slot ends as ABORTED (5) or EXPIRED (6): its armed children are told, its abort gong is added 1 (19 R595). -/
def pealAborts (d : Dev) (slot st : Nat) : Dev :=
  let d := abortChildren d slot
  let x := pealOf d slot
  pealGong (setPeal d slot { x with state := st, due := none }) x 1

/-- The root periods that a level of the tree takes (19 R594). -/
def pealLevel : Nat := 2176

/-- A node's local action of a strike (19 R594). -/
def pealActs (d : Dev) (slot : Nat) : Dev :=
  let x := pealOf d slot
  pealGong (setPeal d slot { x with state := 4, due := none }) x 0

/-- A strike with its incoming lateness: it is forwarded to the armed children with the delay of its grant added, and acts at
its time, or at once where that has passed (19 R594). -/
def pealStrikes (d : Dev) (slot late : Nat) : Dev :=
  let x := pealOf d slot
  let d := x.ackd.foldl (fun d i =>
    let c := childConvoy x i
    let d := { d with fresh := d.fresh + 1 }
    sendPeal d c.1 c.2 0x12 (pealPlain x (late + Config.grantDelay d.fresh))) d
  let p := pealDepth x
  if (p.2 - p.1) * pealLevel < late then setFlag (pealActs d slot) (pealOff slot 5) 0
  else setPeal d slot { pealOf d slot with due := some late }

/-- The root decides, writes the result record and raises the slot's chime (19 R593). -/
def pealDecides (d : Dev) (slot : Nat) : Dev :=
  let x := pealOf d slot
  let enough := x.lost == 0 || (pealFld x 1 32 32 == 1 && decide (pealFld x 2 31 0 ≤ x.armed))
  let strike := enough && !x.cancel
  let a := pealFld x 5 47 0
  let d := if plainPa d 0 a then writeAt d a (pealCounts x (b2n strike)) false else d
  let d := raiseChime d (4828 + slot)
  if strike then pealStrikes (setPeal d slot { x with state := 3 }) slot 0 else pealAborts d slot 5

/-- The counts of an arm phase that is over (19 R592): the lost list is the nodes of the silent or refusing children, then the
lists of those that acknowledged, cut at 1,000. -/
def pealTotals (x : PealSlot) : PealSlot :=
  let gone := (pealChildren x).filter fun i => !x.ackd.contains i
  let all := gone.map (fun i => pealFld x (8 + i) 47 32) ++ x.lists
  { x with
    armed := 1 + x.sumArmed, lost := gone.length + x.sumLost, list := all.take 1000
    overflow := x.cut || decide (1000 < all.length) }

/-- A node's arm phase ends (19 R592, R593): the root decides; any other node answers its parent and is ARMED. -/
def pealArmEnds (d : Dev) (slot : Nat) : Dev :=
  let x := pealTotals (pealOf d slot)
  let d := setPeal d slot x
  if hasParent x then
    let c := parentConvoy x
    setPeal (sendPeal d c.1 c.2 0x11 (pealCounts x 0)) slot { x with state := 3 }
  else pealDecides d slot

/-- Has every child answered, or been lost? -/
def pealAllIn (x : PealSlot) : Bool := (pealChildren x).all fun i => x.answered.contains i

/-- An arming node whose last child has answered ends its phase. -/
def pealIfIn (d : Dev) (slot : Nat) : Dev :=
  let x := pealOf d slot
  if x.state = 2 ∧ pealAllIn x then pealArmEnds d slot else d

/-- Does a convoy take transfers? -/
def takesTx (d : Dev) (c : Nat × Nat) : Bool :=
  let v := convoyOf d c.1 c.2
  v.st == .open_ || v.st == .opening

/-- The arm phase starts (19 R592): PEAL_ARM goes to each valid child; one whose convoy takes none is lost at once. -/
def pealArms (d : Dev) (slot : Nat) : Dev :=
  let x := pealOf d slot
  let gone := (pealChildren x).filter fun i => !takesTx d (childConvoy x i)
  let d := setPeal d slot { x with
    state := 2, sumArmed := 0, sumLost := 0, lists := [], cut := false, answered := gone, ackd := [], cancel := false, host := false }
  let d := ((pealChildren x).filter fun i => takesTx d (childConvoy x i)).foldl (fun d i =>
    let c := childConvoy x i
    sendPeal d c.1 c.2 0x10 (pealPlain x 0)) d
  pealIfIn d slot

/-- A convoy failed: the children behind it that have not answered are lost at once (19 R592). -/
def pealLoses (d : Dev) (ch idx : Nat) : Dev :=
  (d.peal.map (·.1)).foldl (fun d slot =>
    let x := pealOf d slot
    let gone := (pealChildren x).filter fun i => childConvoy x i == (ch, idx) && !x.answered.contains i
    if x.state = 2 ∧ gone ≠ [] then pealIfIn (setPeal d slot { x with answered := x.answered ++ gone }) slot else d) d

/-- A convoy goes to ERROR (14 R436; 19 R592). -/
def convoyError (d : Dev) (ch idx : Nat) : Dev :=
  let v := convoyOf d ch idx
  let d := failTransfers (setConvoy d ch idx { v with st := .error, kept := [] }) ch idx
  pealLoses (raiseChime (setFlag d (chnOff ch 5) 3) (4764 + ch)) ch idx

/-- The steps of a timer expiry or of a NAK SEQ in hardware mode (14 R427). -/
def resendFrom (d : Dev) (ch idx psn : Nat) (shrink : Bool) : Dev :=
  let v := convoyOf d ch idx
  if v.retryLimit < v.retries + 1 then convoyError d ch idx
  else
    let d := retransmit d ch idx psn
    let d := if shrink then halveWindow d ch idx else d
    let v := convoyOf d ch idx
    setConvoy d ch idx { v with retries := v.retries + 1, rto := min 0xFFFF (2 * v.rto) }

end Sys2Proof.Machine
end

