-- ==== Sys2Proof/Machine/Perform.lean ====
section
/-! DEFINITION. The performance of a received message (14 R425 to R446): checks of remote ranges, ring records, writes, reads, reduces,
gongs, doorbells. -/

namespace Sys2Proof.Machine

open Parts

/-- Bits of word 2 and 3 of a message. -/
def w2f (m : Ctp) (hi lo : Nat) : Nat := fld m.w2 hi lo

/-- The convoy index of a message's sender. -/
def srcIdx (m : Ctp) : Nat := m.src % 8192

/-- Is a stored word of the message that holds byte i of its payload bad (14 R443)? -/
def badByte (r : RxMsg) (i : Nat) : Bool := r.bad.contains ((32 + i) / 64)

/-- Does a bad stored word hold payload? -/
def badData (r : RxMsg) : Bool := (upto (ceilDiv (32 + r.m.data.length) 64)).any fun w => w != 0 && r.bad.contains w

/-- The reason of a NAK for the bytes of a range: 0 for none (14 R428). Codes: 3 XLAT, 4 PERM, 5 STATE, 6 ABSENT. -/
def rangeReason (d : Dev) (ch : Nat) (pas : List (Nat × Nat)) (perm : Bool) : Nat :=
  let sts := pas.map fun e => paCheck d (chanPart d ch) e.1
  if sts.any fun s => s == stXlat then 3
  else if sts.any fun s => s == stAbsent then 6
  else if sts.any fun s => s == stState then 5
  else if !perm then 4 else 0

/-- How the performance of a message ends: it waits for the host or for room; a NAK with reason and cause completes it; it
is performed, with poison or not; or it is accepted and performed later (14 R425). -/
inductive Perform where
  | wait
  | nak (d : Dev) (reason cause : Nat)
  | done (d : Dev) (pois : Bool)
  | later (d : Dev)

/-- A permission bit of a convoy: 0 `wr`, 1 `rd`, 2 `red`, 3 `gong` (14 R433). -/
def permBit (v : Convoy) (i : Nat) : Bool := v.perm.testBit i

/-- The physical address that a kept translation gives (14 R428). -/
def keptPa (v : Convoy) (va : Nat) : Option Nat :=
  (v.kept.find? fun k => k.1 == va % vaMod / 64).map fun k => k.2 + va % 64

/-- The ranges of a message whose every line its transfer's CHECK has translated (14 R428). -/
def keptRange (v : Convoy) (rs : List (Nat × Nat)) : Option (List (Nat × Nat)) :=
  rs.mapM fun e => (keptPa v e.1).map fun pa => (pa, e.2)

/-- A remote range's translations: those that its transfer keeps, else new ones. -/
def remoteRange (d : Dev) (ch : Nat) (v : Convoy) (acc : Access) (rs : List (Nat × Nat)) : Dev × (XRes ⊕ List (Nat × Nat)) :=
  match keptRange v rs with
  | some pas => (d, .inr pas)
  | none => xlatRange d ch v.hx acc rs []

/-- Acts on a remote range that passes its checks (14 R428). -/
def withRange (d : Dev) (ch : Nat) (v : Convoy) (acc : Access) (rs : List (Nat × Nat)) (perm : Bool)
    (f : Dev → List (Nat × Nat) → Perform) : Perform :=
  match remoteRange d ch v acc rs with
  | (d, .inl (.cause c _)) => .nak d 3 c
  | (_, .inl _) => .wait
  | (d, .inr pas) =>
    let why := rangeReason d ch pas perm
    if why ≠ 0 then .nak d why 0 else f d pas

/-- Writes payload bytes at physical ranges, poisoning the lines that receive a bad byte (14 R443). -/
def writePayload (d : Dev) (r : RxMsg) : List (Nat × Nat) → Nat → Dev
  | [], _ => d
  | (pa, n) :: rest, i =>
    let bs := (r.m.data.drop i).take n
    writePayload (writeIn d pa bs ((upto n).any fun j => badByte r (i + j))) r rest (i + n)

/-- WRITE (14 R425, R428, R443). -/
def performWrite (d : Dev) (ch : Nat) (v : Convoy) (r : RxMsg) : Perform :=
  withRange d ch v .write (rangeLines (w2f r.m 56 0) r.m.data.length) (permBit v 0) fun d pas =>
    .done (writePayload d r pas 0) (badData r)

/-- Writes one ring record: data lines, then the header; then `rx_gong` is added (14 R440). None where the ring has no
room; a translation cause ends it. -/
def ringRecord (d : Dev) (ch idx kind : Nat) (len : Nat) (pois last : Bool) (w1 w2 : Nat) (psn : Nat) (bytes : List Byte) :
    Perform :=
  let v := convoyOf d ch idx
  let lines := 2 ^ v.ringExp / 64
  let n := 1 + ceilDiv len 64
  if lines < (v.ringTail + psnMod - v.ringHead) % psnMod + n then .wait
  else
    let at_ := fun i => (v.ringVa + 64 * ((v.ringTail + i) % lines), 64)
    match xlatRange d ch v.hx .write ((upto n).map at_) [] with
    | (d, .inl (.cause c _)) => .nak d 3 c
    | (_, .inl _) => .wait
    | (d, .inr pas) =>
      let why := rangeReason d ch pas true
      if why ≠ 0 then .nak d why 0 else
      let gen := (v.gen + 1) % 2 ^ 16
      let w0 := gen + len * 2 ^ 16 + kind * 2 ^ 29 + b2n pois * 2 ^ 31 + b2n last * 2 ^ 32
      let head := leBytes 8 w0 ++ leBytes 8 w1 ++ leBytes 8 w2 ++ leBytes 8 psn ++ leBytes 32 0
      let padded := bytes ++ List.replicate (64 * (n - 1) - bytes.length) 0
      let d := ((enumFrom 0 (pas.drop 1)).foldl
        (fun d e => writeIn d e.2.1 ((padded.drop (64 * e.1)).take 64) false) d)
      let d := writeIn d (pas.headD (0, 0)).1 head false
      let v := convoyOf d ch idx
      let d := setConvoy d ch idx { v with gen := gen, ringTail := (v.ringTail + n) % psnMod }
      .done (if v.rgv && cdFitted d.variant (gongCd v.rxGong) then performUpdate d v.rxGong .add 1 false none else d) pois

/-- SEND (14 R440). -/
def performSend (d : Dev) (ch idx : Nat) (r : RxMsg) : Perform :=
  let tag := w2f r.m 31 0 + w2f r.m 47 32 * 2 ^ 32
  ringRecord d ch idx 0 r.m.data.length (badData r) r.m.last tag 0 r.m.psn r.m.data

/-- GONG (14 R426, R429). -/
def performGong (d : Dev) (v : Convoy) (r : RxMsg) : Perform :=
  let g := w2f r.m 16 0
  if !cdFitted d.variant (gongCd g) then .nak d 6 0
  else if !permBit v 3 || decide (g / 512 < v.gbLo) || decide (v.gbHi < g / 512) then .nak d 4 0
  else
    let fn := match w2f r.m 18 17 with
      | 0 => GongFn.add
      | 1 => .set
      | _ => .max
    .done (performUpdate d g fn r.m.w3 true none) false

/-- DOORBELL (03 R70, R71; 18 R559). -/
def performDoorbell (d : Dev) (ch idx : Nat) (v : Convoy) (r : RxMsg) : Perform :=
  let q := w2f r.m 11 0
  if d.evac then .nak d 5 0
  else if !v.db then .nak d 4 0
  else if !cdFitted d.variant (queueCd q) then .nak d 6 0
  else .done (doorbell d q (.convoy (convoyId ch idx)) (w2f r.m 31 16)) false

/-- A geometry (14 R428): VA, row length, rows, planes, strides. -/
structure Geometry where
  va : Nat
  xlen : Nat
  ny : Nat
  nz : Nat
  sy : Int
  sz : Int

/-- The geometry of a payload. -/
def geometryOf (bs : List Byte) : Geometry :=
  let w := fun i => leNat ((bs.drop (8 * i)).take 8)
  ⟨w 0 % 2 ^ 57, w 1 % 2 ^ 32, w 1 / 2 ^ 32 % 2 ^ 16, w 1 / 2 ^ 48, sextNat 48 (w 2), sextNat 48 (w 3)⟩

/-- The row starts of a geometry in move order. -/
def geometryRows (g : Geometry) : List Nat :=
  (upto g.nz).flatMap fun (z : Nat) => (upto g.ny).map fun (y : Nat) => wrapInt 57 ((g.va : Int) + (y : Int) * g.sy + (z : Int) * g.sz)

/-- The lines of a geometry in move order. -/
def geometryLines (g : Geometry) : List (Nat × Nat) := (geometryRows g).flatMap fun va => rangeLines va g.xlen

/-- The translations of some lines, as a transfer keeps them. -/
def keepOf (rs pas : List (Nat × Nat)) : List (Nat × Nat) :=
  (rs.zip pas).map fun e => (e.1.1 % vaMod / 64, e.2.1 - e.2.1 % 64)

/-- A convoy with the translations of its transfer in progress. -/
def setKept (d : Dev) (ch idx psn : Nat) (ks : List (Nat × Nat)) : Dev :=
  setConvoy d ch idx { convoyOf d ch idx with kept := ks, keptPsn := psn }

/-- CHECK (14 R425, R428): the transfer that follows writes or reduces, so either permission lets it pass; its translations are
kept until the transfer's last message is performed. -/
def performCheck (d : Dev) (ch idx : Nat) (v : Convoy) (r : RxMsg) : Perform :=
  let rs := geometryLines (geometryOf r.m.data)
  withRange d ch { v with kept := [] } .write rs (permBit v 0 || permBit v 2) fun d pas => .done (setKept d ch idx r.m.psn (keepOf rs pas)) false

/-- After a WRITE or REDUCE that is the last of its transfer, or that a check refuses, nothing of the transfer is kept (14 R428). -/
def endKept (d : Dev) (ch idx : Nat) (m : Ctp) (nak : Bool) : Dev :=
  if (m.typ = 0x02 ∨ m.typ = 0x05) ∧ (m.last ∨ nak) then setKept d ch idx m.psn [] else d

/-- The greatest payload of a channel (14 R450). -/
def mtuOf (d : Dev) (ch : Nat) : Nat := 1024 * 2 ^ regFld d (chnOff ch 0) 6 5

/-- A list cut in pieces of n. -/
def chunksOf {α : Type} (n : Nat) : Nat → List α → List (List α)
  | 0, _ => []
  | k + 1, l => if l = [] then [] else l.take n :: chunksOf n k (l.drop n)

/-- READ_REQ (14 R425, R428, R430): every response is sent, in move order. -/
def performRead (d : Dev) (ch idx : Nat) (v : Convoy) (r : RxMsg) (ecc : List (Nat × EccFound)) : Perform :=
  withRange d ch v .read (geometryLines (geometryOf r.m.data)) (permBit v 1) fun d pas =>
    let d := readLines d ecc (pas.map fun e => e.1 / 64)
    let bytes := gather d pas
    let n := mtuOf d ch
    let parts := chunksOf n (bytes.length / n + 1) bytes
    .done ((enumFrom 0 parts).foldl (fun d e =>
      let m := control ch idx v.peer 0x04 r.m.psn (BitVec.ofNat 64 (w2f r.m 31 0)) (BitVec.ofNat 64 (e.1 * n))
      sendMessage d ch idx { m with cls := r.m.cls, last := e.1 + 1 == parts.length, data := e.2 }) d) false

/-- The element size of a reduce operation (09 R276). -/
def redSize (red : Nat) : Nat := if red = 3 then 2 else 4

/-- Adds one element's operand to the reduce-writes of an owner: to the last one of its line that has not got the
element's bytes yet, else as a new one. -/
def addElement (owner : RedOwner) (red : Nat) (rs : List RedWrite) (pa : Nat) (bs : List Byte) (p : Bool) (id : Nat) :
    List RedWrite :=
  let o := pa % 64
  let mask : BitVec 64 := BitVec.ofNat 64 ((2 ^ bs.length - 1) <<< o)
  let data : Line := BitVec.ofNat 512 (leNat bs <<< (8 * o))
  match (rs.filter fun r => r.owner == owner && r.line == pa / 64).getLast? with
  | some l =>
    if l.mask &&& mask = 0 then
      rs.map fun r => if r.id = l.id then { r with data := r.data ||| data, mask := r.mask ||| mask, poison := r.poison || p } else r
    else rs ++ [⟨id, owner, red, pa / 64, data, mask, p⟩]
  | none => rs ++ [⟨id, owner, red, pa / 64, data, mask, p⟩]

/-- The elements of bytes at physical ranges, as reduce-writes. -/
def addElements (d : Dev) (owner : RedOwner) (red : Nat) (es : List (Nat × List Byte × Bool)) : Dev :=
  es.foldl (fun d e => { d with
    reds := addElement owner red d.reds e.1 e.2.1 e.2.2 d.fresh, fresh := d.fresh + 1 }) d

/-- The home CDs' mode of `collective` for a range (14 R446). -/
def hostReduces (d : Dev) (pas : List (Nat × Nat)) : Option Nat :=
  pas.findSome? fun e => match paKind d e.1 with
    | .far c _ => if regFld d (fnOff c) 3 3 = 1 then some c else none
    | _ => none

/-- REDUCE (14 R425, R446; 10 R321 to R323). -/
def performReduce (d : Dev) (ch idx : Nat) (v : Convoy) (r : RxMsg) : Perform :=
  let red := w2f r.m 59 57
  let va := w2f r.m 56 0
  let n := redSize red
  if red = 0 ∨ 5 < red ∨ va % n ≠ 0 ∨ r.m.data.length % n ≠ 0 then .nak d 5 0
  else
    withRange d ch v .write (rangeLines va r.m.data.length) (permBit v 2) fun d pas =>
      if pas.any fun e => (farLine? d (e.1 / 64)).isNone then .nak d 5 0
      else match hostReduces d pas with
        | some c =>
          (match ringRecord d ch idx 2 r.m.data.length (badData r) r.m.last 0 (fld r.m.w2 59 0) r.m.psn r.m.data with
          | .done d _ => .later (hostRequest d ch 5 idx r.m.psn (4289 + c))
          | x => x)
        | none =>
          let owner := RedOwner.msg ch idx r.m.psn
          let d := (enumFrom 0 (chunksOf n (r.m.data.length / n + 1) r.m.data)).foldl (fun d e =>
            let off := e.1 * n
            let pa := (pas.foldl (fun (a : Option Nat × Nat) p =>
              if a.1.isSome then a else if a.2 < p.2 then (some (p.1 + a.2), 0) else (none, a.2 - p.2)) (none, off)).1.getD 0
            addElements d owner red [(pa, e.2, badByte r off)]) d
          if r.m.data = [] then .done d false else .later d

end Sys2Proof.Machine
end

