-- ==== Sys2Proof/Machine/PealMsg.lean ====
section
/-! DEFINITION. The performance of a received peal message (19 R590 to R597; 14 R448). -/

namespace Sys2Proof.Machine

open Parts

/-- n bytes of a message's payload from offset o, as a number. -/
def pealAt (r : RxMsg) (o n : Nat) : Nat := leNat ((r.m.data.drop o).take n)

/-- The slot of a message's peal: the one that holds its `peal_id` (19 R592). -/
def pealSlot? (d : Dev) (r : RxMsg) : Option Nat :=
  (d.peal.find? fun e => e.2.state != 0 && pealFld e.2 0 31 0 == pealAt r 0 4).map (·.1)

/-- Is a message of the epoch of a slot's peal? -/
def sameEpoch (x : PealSlot) (r : RxMsg) : Bool := pealFld x 0 63 32 == pealAt r 4 4

/-- Does a received message go to the host? A peal keeps the mode in which it was armed (02 R60; 19 R596, R597). -/
def pealToHost (d : Dev) (ch typ : Nat) (slot : Option Nat) : Bool :=
  let now := chanMode d ch 8
  match slot with
  | none => now
  | some s =>
    let x := pealOf d s
    if typ = 0x10 then now else if x.state = 2 ∨ x.state = 3 then false else x.host || now

/-- A message that arms, or one that strikes or aborts, passes through a slot of which the host keeps the peal (02 R60). -/
def hostKeeps (d : Dev) (slot : Option Nat) (typ : Nat) : Dev :=
  match slot with
  | none => d
  | some s =>
    let x := pealOf d s
    if typ = 0x11 then d else setPeal d s { x with host := typ == 0x10 }

/-- Host-assisted mode (14 R448): a ring record with the whole payload, then a host request. -/
def pealHost (d : Dev) (ch idx typ : Nat) (slot : Option Nat) (r : RxMsg) : Perform :=
  match ringRecord d ch idx 3 r.m.data.length (badData r) r.m.last 0 0 r.m.psn r.m.data with
  | .done d p => .done (hostRequest (hostKeeps d slot typ) ch typ idx r.m.psn (4624 + ch)) p
  | x => x

/-- A message of a slot is discarded (19 R595). -/
def pealStray (d : Dev) (slot : Nat) : Dev := setFlag d (pealOff slot 5) 2

/-- The answer of a node that does not take part (19 R592). -/
def pealRefuse (d : Dev) (ch idx node : Nat) (r : RxMsg) : Dev :=
  sendPeal d ch idx 0x11 (pealBody (pealAt r 0 4) (pealAt r 4 4) node 1 0 0 1 0 1 0 ++ leBytes 2 node)

/-- PEAL_ARM (19 R592): it starts the arm phase when it comes on the parent convoy of an INSTALLED slot of its epoch. -/
def pealArm (d : Dev) (ch idx : Nat) (slot : Option Nat) (r : RxMsg) : Dev :=
  match slot with
  | none => pealRefuse { d with fresh := d.fresh + 1 } ch idx (Config.pealNode (d.fresh + 1)) r
  | some s =>
    let x := pealOf d s
    if x.state ≠ 1 ∨ sameEpoch x r = false then pealRefuse d ch idx (pealNode x) r
    else if hasParent x && parentConvoy x == (ch, idx) then pealArms d s
    else pealStray d s

/-- A child's answer in its wait (19 R592): armed, with its counts and list; or refused. -/
def pealCount (x : PealSlot) (i : Nat) (r : RxMsg) : PealSlot :=
  let x := { x with answered := x.answered ++ [i] }
  if pealAt r 10 1 ≠ 0 then x
  else
    let m := min 1000 (pealAt r 28 2)
    { x with
      ackd := x.ackd ++ [i], sumArmed := x.sumArmed + pealAt r 12 4, sumLost := x.sumLost + pealAt r 16 4
      lists := x.lists ++ (upto m).map fun j => pealAt r (32 + 2 * j) 2
      cut := x.cut || pealAt r 30 1 != 0 }

/-- PEAL_ARM_ACK (19 R592, R595): counted in its wait; after it, answered with PEAL_ABORT. -/
def pealArmAck (d : Dev) (ch idx : Nat) (slot : Option Nat) (r : RxMsg) : Dev :=
  match slot with
  | none => d
  | some s =>
    let x := pealOf d s
    match (pealChildren x).find? fun i => childConvoy x i == (ch, idx) with
    | none => pealStray d s
    | some i =>
      if x.state = 1 ∨ sameEpoch x r = false ∨ i ∈ x.ackd then pealStray d s
      else if x.state = 2 ∧ i ∉ x.answered then pealIfIn (setPeal d s (pealCount x i r)) s
      else sendPeal d ch idx 0x13 (pealPlain x 0)

/-- Is a channel's hop a cadence hop (15 R480)? -/
def cadenceHop (d : Dev) (ch : Nat) : Bool := isDirect d ch && regFld d (regOff 4 0x1C ch 0) 14 14 == 1

/-- PEAL_STRIKE (19 R594, R595): `broken` tells that the path from the root has an open hop, a miss or a host relay before this hop. -/
def pealStrike (d : Dev) (ch : Nat) (slot : Option Nat) (r : RxMsg) (broken : Bool) : Dev :=
  match slot with
  | none => d
  | some s =>
    let x := pealOf d s
    if x.state ≠ 3 ∨ sameEpoch x r = false ∨ x.due.isSome then pealStray d s
    else pealStrikes (flagIf (broken || r.m.retx || !cadenceHop d ch) d (pealOff s 5) 1) s (pealAt r 20 4)

/-- PEAL_ABORT (19 R595). -/
def pealAbort (d : Dev) (slot : Option Nat) (r : RxMsg) : Dev :=
  match slot with
  | none => d
  | some s =>
    let x := pealOf d s
    if x.state ≠ 3 ∨ sameEpoch x r = false then pealStray d s else pealAborts d s 5

/-- A peal message that the channel relays itself. -/
def pealAct (d : Dev) (ch idx : Nat) (slot : Option Nat) (r : RxMsg) (broken : Bool) : Dev :=
  match r.m.typ with
  | 0x10 => pealArm d ch idx slot r
  | 0x11 => pealArmAck d ch idx slot r
  | 0x12 => pealStrike d ch slot r broken
  | _ => pealAbort d slot r

/-- A received peal message (14 R448): the host gets it, or it acts on its slot. -/
def performPeal (d : Dev) (ch idx : Nat) (r : RxMsg) (broken : Bool) : Perform :=
  let slot := pealSlot? d r
  if pealToHost d ch r.m.typ slot then pealHost d ch idx r.m.typ slot r
  else .done (pealAct d ch idx slot r broken) false

end Sys2Proof.Machine
end

