-- ==== Sys2Proof/Machine/Receive.lean ====
section
/-! DEFINITION. What a channel receives (14 R421 to R446): acceptance in PSN order, receive queues, delivery. -/

namespace Sys2Proof.Machine

open Parts

/-- Performs a message by its type; `ecc` tells what errors its reads find (10 R310), `broken` what a strike's path had (19 R594). -/
def performMsg (ecc : List (Nat × EccFound)) (broken : Bool) (d : Dev) (ch idx : Nat) (r : RxMsg) : Perform :=
  let v := convoyOf d ch idx
  match r.m.typ with
  | 0x01 => performSend d ch idx r
  | 0x02 => performWrite d ch v r
  | 0x03 => performRead d ch idx v r ecc
  | 0x05 => performReduce d ch idx v r
  | 0x06 => performGong d v r
  | 0x07 => performDoorbell d ch idx v r
  | 0x08 => performCheck d ch idx v r
  | _ => performPeal d ch idx r broken

/-- Must a message follow every earlier one of its convoy (14 R426)? -/
def inOrder (typ : Nat) : Bool := typ == 0x01 || typ == 0x06 || typ == 0x07

/-- Acknowledges a performed message: at once where it asks for it, or within 128 P-cycles; that it wrote poisoned data is
told when it is acknowledged (14 R425, R443). -/
def acknowledge (d : Dev) (ch idx : Nat) (m : Ctp) (pois nak : Bool) : Dev :=
  let d := endKept d ch idx m nak
  let v := convoyOf d ch idx
  let d := setConvoy d ch idx { v with ackDue := true, poisRx := if pois then insertPsn m.psn v.poisRx else v.poisRx }
  if m.ackreq || m.last || pois then sendAck d ch idx else d

/-- A CLOSE that waited for accepted messages is answered once they are performed (14 R436). -/
def answerClose (d : Dev) (ch idx : Nat) : Dev :=
  let v := convoyOf d ch idx
  if v.closeWait && v.held == [] then
    closeConvoy (sendMessage d ch idx (control ch idx v.peer 0x0C 0 0 0)) ch idx
  else d

/-- A message is read out of its receive queue: its words are free, it has found a credit at its
level, and a bad stored word is found (14 R431, R442, R443; 16 R500). -/
def readOut (d : Dev) (ch : Nat) (r : RxMsg) : Dev :=
  let x := chanOf d ch
  let n := Sparse.get zeroCnt x.freed r.m.cls + msgWords r.m
  let d := levelCredit (setChannel d ch { x with freed := Sparse.set zeroCnt x.freed r.m.cls (n % 2 ^ 16) }) ch r.m.cls
  if badData r then setFlag d (chnOff ch 5) 4 else d

/-- The held messages of a convoy. -/
def setHeld (d : Dev) (ch idx : Nat) (hs : List RxHeld) : Dev := setConvoy d ch idx { convoyOf d ch idx with held := hs }

/-- The held message of a convoy that is delivered next, with the REDUCEs handed out before it and what stands behind it; none while
one that must follow them has to wait (14 R424, R426). -/
def nextHeld (hs : List RxHeld) : Option (List RxHeld × RxHeld × List RxHeld) :=
  match hs.dropWhile (·.reduce) with
  | [] => none
  | h :: rest =>
    if inOrder h.rx.m.typ && hs.takeWhile (·.reduce) != [] then none else some (hs.takeWhile (·.reduce), h, rest)

/-- Delivers a message of a convoy whose other held messages stand before and behind it (14 R424, R425): none where it has to wait. -/
def deliver (d : Dev) (ch idx : Nat) (pre post : List RxHeld) (h : RxHeld) (ecc : List (Nat × EccFound)) : Option Dev :=
  match performMsg ecc h.broken (readOut d ch h.rx) ch idx h.rx with
  | .wait => none
  | .nak e reason cause =>
    let e := sendNak e ch idx (convoyOf e ch idx).peer reason cause h.rx.m.psn
    some (acknowledge (setHeld e ch idx (pre ++ post)) ch idx h.rx.m false true)
  | .done e pois => some (acknowledge (setHeld e ch idx (pre ++ post)) ch idx h.rx.m pois false)
  | .later e => some (setHeld e ch idx (pre ++ { h with reduce := true } :: post))

/-- Delivers the held messages that now may be, in PSN order (14 R424 to R426), at most `n`. -/
def drainHeld : Nat → Dev → Nat → Nat → Dev
  | 0, d, _, _ => d
  | n + 1, d, ch, idx =>
    match nextHeld (convoyOf d ch idx).held with
    | none => answerClose d ch idx
    | some (pre, h, post) =>
      match deliver d ch idx pre post h [] with
      | none => d
      | some e => drainHeld n e ch idx

/-- Delivers what the convoys of a channel hold and now may deliver, as after a translation that they waited for. -/
def drainChannel (d : Dev) (ch : Nat) : Dev :=
  ((chanOf d ch).convoys.filter fun v => v.2.held != []).foldl (fun d v => drainHeld (v.2.held.length + 1) d ch v.1) d

/-- A REDUCE message of a convoy has been performed (14 R425, R446). -/
def reduceDone (d : Dev) (ch idx psn : Nat) : Dev :=
  let v := convoyOf d ch idx
  match v.held.find? fun h => h.reduce && h.rx.m.psn == psn with
  | none => d
  | some h =>
    let d := setConvoy d ch idx { v with held := v.held.filter fun x => !(x.reduce && x.rx.m.psn == psn) }
    drainHeld (v.held.length + 1) (acknowledge d ch idx h.rx.m (h.pois || badData h.rx) false) ch idx

/-- Is a message one that a channel can read: link up, of a type, its word 0 sound (14 R421, R443)? -/
def readable (d : Dev) (ch : Nat) (typ : Nat) (r : RxMsg) : Bool :=
  linkUp d ch && r.m.typ == typ && !r.bad.contains 0 && r.m.ver == 1

/-- Is a type code reserved (14 R422)? -/
def reservedType (typ : Nat) : Bool := typ == 0 || decide (0x15 < typ)

/-- What happens to a message that cannot be read: a bad header word, another version or a reserved type (14 R421, R422, R443). -/
def unreadable (d : Dev) (ch typ : Nat) (r : RxMsg) : Dev :=
  if !linkUp d ch || (r.m.typ != typ && !reservedType r.m.typ) then d
  else if r.bad.contains 0 then setFlag d (chnOff ch 5) 4
  else setFlag d (chnOff ch 5) 9

/-- Does a message come from its convoy's peer (14 R437)? The raw convoy has none (14 R439). -/
def fromPeer (d : Dev) (ch : Nat) (v : Convoy) (r : RxMsg) : Bool :=
  r.m.dst != 0 && srcIdx r.m == v.peer && (isDirect d ch || r.ip == v.ip)

/-- Takes in the acknowledgement and the congestion mark that a message carries (14 R421, R431). -/
def piggyback (d : Dev) (ch idx : Nat) (r : RxMsg) : Dev :=
  let d := if r.m.ackv && r.m.typ != 0x0D then processAck d ch idx r.m.ack false false else d
  let v := convoyOf d ch idx
  if r.ce && !isDirect d ch then setConvoy d ch idx { v with ceSeen := true } else d

/-- A message is out of sequence: an old one is acknowledged again, a later one answered with NAK SEQ, once per RTO
(14 R424). The responses of a READ_REQ that comes again are sent again (14 R430; log entry 23). -/
def outOfOrder (d : Dev) (ch idx : Nat) (r : RxMsg) : Dev :=
  let m := r.m
  let v := convoyOf d ch idx
  if psnBefore m.psn v.rcvNxt then
    (let d := if m.typ = 0x03 ∧ m.retx then
        (match performMsg [] false d ch idx r with
        | .done e _ => e
        | _ => d)
      else d
     sendAck d ch idx)
  else
    let now := (reg64 d hdPcntOff).toNat
    let soon := match v.nakAt with
      | some t => decide (t ≤ now ∧ now < t + v.rto * 256)
      | none => false
    if soon then d else sendNak (setConvoy d ch idx { v with nakAt := some now }) ch idx v.peer 1 0 v.rcvNxt

/-- Counts an accepted message: its bytes and its PSN. -/
def acceptMsg (d : Dev) (ch idx : Nat) (r : RxMsg) : Dev :=
  let d := noteReceived d ch r.m
  let v := convoyOf d ch idx
  setConvoy d ch idx { v with rcvNxt := (v.rcvNxt + 1) % psnMod }

/-- Must a message wait in its queue: one before it is not delivered, or it follows one that is not performed (14 R424, R426)? -/
def heldUp (v : Convoy) (typ : Nat) : Bool := v.held.any fun h => !h.reduce || inOrder typ

/-- The next message of a convoy in sequence: accepted, and delivered unless it has to wait (14 R424, R425). -/
def inSequence (d : Dev) (ch idx : Nat) (r : RxMsg) (ecc : List (Nat × EccFound)) (broken : Bool) : Dev :=
  let d := acceptMsg d ch idx r
  let hs := (convoyOf d ch idx).held
  let h : RxHeld := { rx := r, reduce := false, broken := broken }
  let wait := setHeld d ch idx (hs ++ [h])
  if heldUp (convoyOf d ch idx) r.m.typ then wait else (deliver d ch idx hs [] h ecc).getD wait

/-- Acceptance of a sequenced message of a type (14 R424, R431, R437, R441): `ecc` and `broken` as its performance needs them. -/
def sequenced (d : Dev) (ch typ : Nat) (r : RxMsg) (ecc : List (Nat × EccFound)) (broken : Bool) : Dev :=
  if !readable d ch typ r then unreadable d ch typ r else
  let idx := r.m.dst
  let v := convoyOf d ch idx
  if v.st ≠ .open_ ∧ v.st ≠ .closing then sendNak d ch idx (srcIdx r.m) 2 0 r.m.psn
  else if !fromPeer d ch v r then setFlag d (chnOff ch 5) 9
  else if rqCap r.m.cls < rqUsed d ch r.m.cls + msgWords r.m then setFlag d (chnOff ch 5) 1
  else
    let d := piggyback d ch idx r
    if r.m.psn ≠ (convoyOf d ch idx).rcvNxt then outOfOrder d ch idx r else inSequence d ch idx r ecc broken

/-- A received SEND (14 R440). -/
def execRxSend (ch : Nat) (r : RxMsg) (s : State) : Out := act s fun d =>
  sequenced d ch 0x01 r [] false

/-- A received WRITE (14 R425). -/
def execRxWrite (ch : Nat) (r : RxMsg) (s : State) : Out := act s fun d =>
  sequenced d ch 0x02 r [] false

/-- A received READ_REQ (14 R428, R430). -/
def execRxReadReq (ch : Nat) (r : RxMsg) (ecc : List (Nat × EccFound)) (s : State) : Out := act s fun d =>
  sequenced d ch 0x03 r ecc false

/-- A received REDUCE (14 R446). -/
def execRxReduce (ch : Nat) (r : RxMsg) (s : State) : Out := act s fun d =>
  sequenced d ch 0x05 r [] false

/-- A received GONG (14 R426); a reserved operation code rejects it. -/
def execRxGong (ch : Nat) (r : RxMsg) (s : State) : Out := act s fun d =>
  if readable d ch 0x06 r && w2f r.m 18 17 == 3 then setFlag d (chnOff ch 5) 9
  else sequenced d ch 0x06 r [] false

/-- A received DOORBELL (03 R71; 14 R425, R426). -/
def execRxDoorbell (ch : Nat) (r : RxMsg) (s : State) : Out := act s fun d =>
  sequenced d ch 0x07 r [] false

/-- A received CHECK (14 R428). -/
def execRxCheck (ch : Nat) (r : RxMsg) (s : State) : Out := act s fun d =>
  sequenced d ch 0x08 r [] false

end Sys2Proof.Machine
end

