-- ==== Sys2Proof/Machine/Transport.lean ====
section
/-! DEFINITION. What a channel sends and how its links and convoys proceed (14): sends, spills, control messages,
timers, frames that are no messages, link state. -/

namespace Sys2Proof.Machine

open Parts

/-! Sends. -/

/-- Messages of a convoy sent and not acknowledged. -/
def unacked (v : Convoy) : List TxRec := v.recs.filter fun r => !r.acked

/-- Tracking records that a channel holds outside its spill area (14 R445). -/
def recsHeld (d : Dev) (ch : Nat) : Nat :=
  ((chanOf d ch).convoys.map fun v => (v.2.recs.filter fun r => !r.spilled).length).foldl (· + ·) 0

/-- The pool of tracking records (14 R445). -/
def recPool : Nat := 32768

/-- Spills the records of a convoy (14 R445): none where the spill area has no room. What a record holds is not given
(log entry 22). -/
def spillConvoy (d : Dev) (ch idx : Nat) : Option Dev :=
  let x := chanOf d ch
  let v := convoyOf d ch idx
  let n := (v.recs.filter fun r => !r.spilled).length
  let (base, e) := areaOf d ch 0x10
  if e = 0 ∨ 2 ^ e / 32 < x.spillUsed + n ∨ n = 0 then none
  else
    let k := d.fresh
    let d := writeAt { d with fresh := k + 1 } (base + 32 * x.spillUsed)
      ((upto (32 * n)).map fun i => BitVec.ofNat 8 (Config.spillByte k i)) false
    let d := setChannel d ch { chanOf d ch with spillUsed := x.spillUsed + n }
    let v := convoyOf d ch idx
    let d := setConvoy d ch idx { v with recs := v.recs.map fun r => { r with spilled := true } }
    some (setFlag d (chnOff ch 5) 5)

/-- The convoy with unspilled records whose last transmission is oldest (14 R445). -/
def oldestConvoy (d : Dev) (ch : Nat) : Option Nat :=
  let vs := (chanOf d ch).convoys.filter fun v => v.2.recs.any fun r => !r.spilled
  (vs.foldl (fun a v => match a with
    | none => some v
    | some b => if v.2.lastTx < b.2.lastTx then some v else a) none).map (·.1)

/-- Makes a tracking record free where none is (14 R445): by a spill, or by asking the host. -/
def roomForRec (d : Dev) (ch idx : Nat) : Dev :=
  if recsHeld d ch < recPool then d
  else if chanMode d ch 1 then
    let v := convoyOf d ch idx
    if v.askedRec then d
    else hostRequest (setConvoy d ch idx { v with askedRec := true }) ch 4 idx v.sndNxt (4176 + ch)
  else match oldestConvoy d ch with
    | none => d
    | some o => (spillConvoy d ch o).getD (setFlag d (chnOff ch 5) 6)

/-- Ring lines that a SEND takes at the peer (14 R440). -/
def sendLines (m : Ctp) : Nat := 1 + ceilDiv m.data.length 64

/-- May a convoy send a message once it has a tracking record (09 R274, R292; 14 R428, R430, R431, R440)? The messages of a transfer
that a CHECK begins wait until the peer has acknowledged it (DEDUCED, log entry 66); a read whose responses exceed the queue is sent
while nothing of its class stands there (DESIGN CHOICE, log entry 68). -/
def sendable (d : Dev) (ch idx : Nat) (r : TxRec) : Bool :=
  let x := chanOf d ch
  let v := convoyOf d ch idx
  let un := unacked v
  let words := (un.map fun r => msgWords r.msg).foldl (· + ·) 0
  let m := r.msg
  let window := un == [] || (decide (words + msgWords m ≤ v.cwnd) && decide (un.length + 1 ≤ v.maxOut))
  let used := (Sparse.get zeroCnt x.used m.cls + 2 ^ 16 - Sparse.get zeroCnt x.peerFreed m.cls) % 2 ^ 16
  let credit := !isDirect d ch || decide (used + msgWords m ≤ rqCap m.cls)
  let ring := m.typ != 0x01 || decide ((v.txUsed + sendLines m + psnMod - v.txCredit) % psnMod = 0 ∨
    2 ^ 31 ≤ (v.txUsed + sendLines m + psnMod - v.txCredit) % psnMod)
  let got := rqUsed d ch m.cls
  let space := r.resv == 0 || got == 0 || decide (got + r.resv ≤ rqCap m.cls)
  let released := match r.owner with
    | .gong u => updReadyAt d u 2
    | .move i => m.typ == 0x08 || !v.recs.any fun t => t.msg.typ == 0x08 && t.owner == .move i && !t.acked
    | _ => true
  linkUp d ch && window && credit && ring && space && released

/-- May a convoy send a message now (14 R445)? -/
def maySendMsg (d : Dev) (ch idx : Nat) (r : TxRec) : Bool := sendable d ch idx r && decide (recsHeld d ch < recPool)

/-- Puts the PSN of a sent gong update beside it (09 R292). -/
def markCv (d : Dev) (o : TxOwner) (psn : Nat) : Dev :=
  match o with
  | .gong u => { d with gg := { d.gg with cv := d.gg.cv.map fun c =>
      if c.upd = u ∧ c.psn = none then { c with psn := some psn } else c } }
  | _ => d

/-- Sends the first waiting message of a convoy: its source is read, it takes the next PSN, a tracking record, credits and
ring lines (14 R424, R430, R431, R440, R445); its class has found a credit at its level (16 R500). -/
def sendMsgNow (d : Dev) (ch idx : Nat) (r : TxRec) (ecc : List (Nat × EccFound)) : Dev :=
  let read := r.src != [] && r.msg.typ != 0x03
  let d := if read then readLines d ecc (r.src.map fun e => e.1 / 64) else d
  let hs := match r.owner with
    | .move m => ((moveOf d m).map (·.hidden)).getD []
    | _ => []
  let bad := read && r.src.any fun e => seenPoison d hs (e.1 / 64)
  let d := match r.owner with
    | .move m => if bad then moveStatus d m stPoison else d
    | _ => d
  let v := convoyOf d ch idx
  let m := { r.msg with psn := v.sndNxt, data := if read then r.src.flatMap fun e => seenBytes d hs e.1 e.2 else r.msg.data }
  let d := setConvoy d ch idx { v with
    sendq := v.sendq.tail
    sndNxt := (v.sndNxt + 1) % psnMod
    txUsed := if m.typ = 0x01 then (v.txUsed + sendLines m) % psnMod else v.txUsed
    recs := v.recs ++ [{ r with msg := m }] }
  let x := chanOf d ch
  let d := setChannel d ch { x with
    used := if isDirect d ch then Sparse.set zeroCnt x.used m.cls ((Sparse.get zeroCnt x.used m.cls + msgWords m) % 2 ^ 16) else x.used
    reserved := if r.resv = 0 then x.reserved else Sparse.set zeroCnt x.reserved m.cls (Sparse.get zeroCnt x.reserved m.cls + r.resv) }
  sendMessage (markCv (levelCredit d ch m.cls) r.owner m.psn) ch idx m

/-- A two-sided transfer as a message; its class is that of its command, N (log entry 22). -/
def twoSidedMsg (ch idx peer : Nat) (t : TwoSided) : TxRec :=
  let c := control ch idx peer 0x07 0 0 0
  match t with
  | .send tag index last bytes =>
    { msg := { c with typ := 0x01, last := last, w2 := BitVec.ofNat 64 (tag % 2 ^ 32 + index % 2 ^ 16 * 2 ^ 32), data := bytes },
      owner := .none, src := [] }
  | .doorbell queue count =>
    { msg := { c with last := true, w2 := BitVec.ofNat 64 (queue % 2 ^ 12 + count % 2 ^ 16 * 2 ^ 16) }, owner := .none, src := [] }

/-- A convoy takes a two-sided transfer, if one is given, and sends the first of its waiting messages once its window,
credits and a tracking record allow (14 R430, R431, R440, R445). A SEND on the raw convoy is one frame (R439). `noToken` tells that the
message, one of class P, finds no token at the channel's transmit arbiter (16 R488). -/
def execConvoySend (ch idx : Nat) (two : Option TwoSided) (ecc : List (Nat × EccFound)) (noToken : Bool) (s : State) : Out :=
  act s fun d =>
  let v := convoyOf d ch idx
  if idx = 0 then
    match two with
    | some (.send _ _ _ bytes) =>
      if v.st = .open_ ∧ !isDirect d ch then sendRaw d ch bytes else d
    | _ => d
  else
    let d := match two with
      | some t => enqueueTx d ch idx [twoSidedMsg ch idx v.peer t]
      | none => d
    let v := convoyOf d ch idx
    match v.sendq with
    | [] => d
    | r :: _ =>
      if (v.st ≠ .open_ ∧ v.st ≠ .closing) || !sendable d ch idx r then d else
      let d := roomForRec d ch idx
      if maySendMsg d ch idx r then sendMsgNow (flagIf (noToken && r.msg.cls == 0) d (arbOff 4) 0) ch idx r ecc else d

/-! Responses and control messages. -/

/-- A control message or response from the peer of a convoy that is not CLOSED (14 R421, R437); `f` acts on it. -/
def controlled (d : Dev) (ch typ : Nat) (r : RxMsg) (f : Dev → Nat → Convoy → Dev) : Dev :=
  if !readable d ch typ r then unreadable d ch typ r else
  let idx := r.m.dst
  let v := convoyOf d ch idx
  if v.st = .closed ∨ !fromPeer d ch v r then setFlag d (chnOff ch 5) 9
  else
    let d := noteReceived d ch r.m
    let d := piggyback d ch idx r
    f d idx (convoyOf d ch idx)

/-- The physical ranges of n bytes from an offset of ranges in move order. -/
def rangeAt : List (Nat × Nat) → Nat → Nat → List (Nat × Nat)
  | [], _, _ => []
  | (pa, m) :: rest, off, n =>
    if n = 0 then []
    else if m ≤ off then rangeAt rest (off - m) n
    else
      let k := min (m - off) n
      (pa + off, k) :: rangeAt rest 0 (n - k)

/-- Changes the record of a READ_REQ by its PSN. -/
def updRead (v : Convoy) (psn : Nat) (f : TxRec → TxRec) : Convoy :=
  { v with recs := v.recs.map fun r => if r.msg.typ = 0x03 ∧ r.msg.psn = psn then f r else r }

/-- A received READ_RESP (14 R430, R443): a response already held is discarded; poisoned words poison the lines that
receive them and give the move POISON. -/
def execRxReadResp (ch : Nat) (r : RxMsg) (s : State) : Out := act s fun d =>
  controlled d ch 0x04 r fun d idx v =>
    match v.recs.find? fun q => q.msg.typ == 0x03 && q.msg.psn == r.m.psn && fld q.msg.w2 31 0 == w2f r.m 31 0 with
    | none => d
    | some q =>
      let off := fld r.m.w3 31 0
      let n := min r.m.data.length q.left
      if q.got.contains off ∨ q.left = 0 then d else
      let d := match q.owner with
        | .move _ => writePayload d r (rangeAt q.src off r.m.data.length) 0
        | _ => d
      let d := if badData r then setFlag d (chnOff ch 5) 4 else d
      let v := convoyOf d ch idx
      let left := q.left - n
      let d := setConvoy d ch idx (updRead v r.m.psn fun t => { t with left := left, got := t.got ++ [off] })
      let d := match q.owner with
        | .move m =>
          let d := if badData r then moveStatus d m stPoison else d
          settleMove (updMove d m fun t => { t with bytes := t.bytes - n }) m
        | _ => d
      if left ≠ 0 then d
      else
        let d := unreserve d ch q
        let v := convoyOf d ch idx
        let v := updRead v r.m.psn fun t => { t with resv := 0 }
        let d := setConvoy d ch idx { v with recs := v.recs.filter fun t => !(t.msg.typ == 0x03 && t.msg.psn == r.m.psn && t.acked) }
        if q.acked && q.spilled then
          let x := chanOf d ch
          setChannel d ch { x with spillUsed := x.spillUsed - 1 }
        else d

/-- An OPENING convoy is OPEN, if the peer's first PSN is the one expected (14 R435). -/
def opened (d : Dev) (ch idx : Nat) (r : RxMsg) : Dev :=
  let v := convoyOf d ch idx
  if w2f r.m 31 0 ≠ v.rcvNxt then convoyError d ch idx
  else setConvoy d ch idx { v with st := .open_, tries := 0 }

/-- Sends OPEN or OPEN_ACK with the first PSN (14 R435). -/
def sendOpen (d : Dev) (ch idx typ : Nat) : Dev :=
  let v := convoyOf d ch idx
  sendMessage d ch idx (control ch idx v.peer typ 0 (BitVec.ofNat 64 v.first) 0)

/-- Does a channel's firmware run? Convoys open and close, links train and commands are taken only then (18 R556): OPEN,
OPEN_ACK, CLOSE and CLOSE_ACK that come meanwhile go unanswered, and are sent again (log entry 25). -/
def fwRuns (d : Dev) (ch : Nat) : Bool := (chanOf d ch).fw

/-- A received OPEN (14 R435); while the package is evacuated it is answered with STATE (18 R559). -/
def execRxOpen (ch : Nat) (r : RxMsg) (s : State) : Out := act s fun d =>
  if !fwRuns d ch then d else
  if !readable d ch 0x09 r then unreadable d ch 0x09 r else
  let idx := r.m.dst
  let v := convoyOf d ch idx
  let d := noteReceived d ch r.m
  if d.evac then sendNak d ch idx (srcIdx r.m) 5 0 r.m.psn
  else if fromPeer d ch v r ∧ v.st = .opening then
    (let d := opened d ch idx r
     if (convoyOf d ch idx).st = .open_ then sendOpen d ch idx 0x0A else d)
  else if fromPeer d ch v r ∧ v.st = .open_ then sendOpen d ch idx 0x0A
  else sendNak d ch idx (srcIdx r.m) 2 0 r.m.psn

/-- A received OPEN_ACK (14 R435). -/
def execRxOpenAck (ch : Nat) (r : RxMsg) (s : State) : Out := act s fun d =>
  if !fwRuns d ch then d else controlled d ch 0x0A r fun d idx v => if v.st = .opening then opened d ch idx r else d

/-- A received CLOSE (14 R436): answered once every accepted message is performed. -/
def execRxClose (ch : Nat) (r : RxMsg) (s : State) : Out := act s fun d =>
  if !fwRuns d ch then d else controlled d ch 0x0B r fun d idx v =>
    if v.st = .error then d else answerClose (setConvoy d ch idx { v with closeWait := true }) ch idx

/-- A received CLOSE_ACK (14 R436). -/
def execRxCloseAck (ch : Nat) (r : RxMsg) (s : State) : Out := act s fun d =>
  if !fwRuns d ch then d else controlled d ch 0x0C r fun d idx v => if v.st = .closing then closeConvoy d ch idx else d

/-- A received ACK (14 R425, R431, R440, R443). -/
def execRxAck (ch : Nat) (r : RxMsg) (s : State) : Out := act s fun d =>
  controlled d ch 0x0D r fun d idx v =>
    let d := setConvoy d ch idx { v with txCredit := (v.peerRing + w2f r.m 31 0) % psnMod }
    processAck d ch idx (if r.m.ackv then r.m.ack else v.sndUna) (w2f r.m 32 32 == 1) r.m.ecne

/-- A peer's check refuses a message: its move or gong update ends with LINK, and the message is complete (14 R429). -/
def refused (d : Dev) (ch idx psn : Nat) : Dev :=
  let v := convoyOf d ch idx
  match v.recs.find? fun q => q.msg.psn == psn with
  | none => d
  | some q =>
    let d := linkOwner (unreserve d ch q) q.owner
    let v := convoyOf d ch idx
    setConvoy d ch idx { v with recs := v.recs.map fun t =>
      if t.msg.psn = psn then { t with owner := .none, left := 0, resv := 0 } else t }

/-- A received NAK (14 R427, R429, R432, R436). -/
def execRxNak (ch : Nat) (r : RxMsg) (s : State) : Out := act s fun d =>
  controlled d ch 0x0E r fun d idx v =>
    let psn := w2f r.m 63 32
    match w2f r.m 3 0 with
    | 1 =>
      if unacked v = [] then d
      else if !v.host then resendFrom d ch idx psn false
      else if v.askedNak then d
      else hostRequest (setConvoy d ch idx { v with askedNak := true }) ch 2 idx psn (4240 + ch)
    | 2 => if v.st = .open_ then convoyError d ch idx else d
    | 3 => refused d ch idx psn
    | 4 => refused d ch idx psn
    | 5 => refused d ch idx psn
    | 6 => refused d ch idx psn
    | _ => setFlag d (chnOff ch 5) 9

/-- A received CREDIT (14 R431): the peer's cumulative counts of each class. -/
def execRxCredit (ch : Nat) (r : RxMsg) (s : State) : Out := act s fun d =>
  if !readable d ch 0x0F r then unreadable d ch 0x0F r else
  let d := noteReceived d ch r.m
  if !isDirect d ch then d else
  let x := chanOf d ch
  let n := (upto 4).foldl (fun m k => Sparse.set zeroCnt m k (fld r.m.w3 (16 * k + 15) (16 * k))) x.peerFreed
  setChannel d ch { x with peerFreed := n }

/-- The A-cycle counter of the HD (15 R475). -/
def hdAcntOff : Nat := regOff 4 0x1A 0 2

/-- A received PROBE (14 R438): `turnaround` is the HD A-cycles between receipt and answer. -/
def execRxProbe (ch : Nat) (r : RxMsg) (turnaround : Nat) (s : State) : Out := act s fun d =>
  controlled d ch 0x14 r fun d idx v =>
    sendMessage d ch idx (control ch idx v.peer 0x15 0 r.m.w2 (BitVec.ofNat 64 turnaround))

/-- CHN.CMD completes with a result: 0 OK, 1 STATE, 2 XLAT, 3 LINK (14 R451). -/
def cmdDone (d : Dev) (ch result : Nat) : Dev :=
  setRegFld (setRegFld d (chnOff ch 2) 17 17 0) (chnOff ch 2) 19 18 result

/-- A received PROBE_RESP (14 R438): the record of the probe is written; what its last word holds is not given (log entry
22). -/
def execRxProbeResp (ch : Nat) (r : RxMsg) (s : State) : Out := act s fun d =>
  controlled d ch 0x15 r fun d idx _ =>
    match (chanOf d ch).probe with
    | none => d
    | some p =>
      if p.convoy ≠ idx then d else
      let k := d.fresh
      let bytes := leBytes 8 r.m.w2.toNat ++ leBytes 8 r.m.w3.toNat ++ leBytes 8 (reg64 d hdAcntOff).toNat ++
        leBytes 8 (Config.probePad k)
      let d := writeAt { d with fresh := k + 1 } p.addr bytes false
      cmdDone (setChannel d ch { chanOf d ch with probe := none }) ch 0

/-! Frames that are no messages. -/

/-- A received frame that is no CTP message, without its FCS (14 R417, R439). -/
def execRawFrame (ch : Nat) (bytes : List Byte) (s : State) : Out := act s fun d =>
  if !linkUp d ch ∨ isDirect d ch ∨ isCtpFrame (chanMac d ch) (chanIp d ch) (regFld d (chnOff ch 0xC) 15 0) bytes ∨ bytes.length + 4 < 64 ∨ 4222 < bytes.length + 4 then d
  else if (convoyOf d ch 0).st ≠ .open_ then setFlag d (chnOff ch 5) 1
  else match ringRecord d ch 0 1 bytes.length false false 0 0 0 bytes with
    | .done e _ => e
    | .nak e _ _ => setFlag e (chnOff ch 5) 1
    | _ => setFlag d (chnOff ch 5) 1

/-- A frame fails its FCS, CRC, checksum or FEC (14 R419). -/
def execFrameDiscard (ch : Nat) (s : State) : Out := act s fun d =>
  if linkUp d ch then setFlag d (chnOff ch 5) 0 else d

/-- A received PAUSE frame (14 R415). -/
def execPauseFrame (ch : Nat) (s : State) : Out := act s fun d =>
  if linkUp d ch && !isDirect d ch then setFlag d (chnOff ch 5) 7 else d

/-! Timers. -/

/-- The oldest performed message that is not acknowledged has waited for 128 P-cycles (14 R425). -/
def execAckTimer (ch idx : Nat) (s : State) : Out := act s fun d =>
  if (convoyOf d ch idx).ackDue then sendAck d ch idx else d

/-- A CREDIT report of the words freed since the last one (14 R431). -/
def execCreditReport (ch : Nat) (s : State) : Out := act s fun d =>
  let x := chanOf d ch
  if !isDirect d ch || !linkUp d ch || x.freed == x.reported then d else
  let w3 := ((upto 4).map fun k => Sparse.get zeroCnt x.freed k * 2 ^ (16 * k)).foldl (· + ·) 0
  sendMessage (setChannel d ch { x with reported := x.freed }) ch 0 (control ch 0 0 0x0F 0 0 (BitVec.ofNat 64 w3))

/-- The retransmission timer of a convoy expires (14 R427, R430, R432, R436). -/
def execRtoExpiry (ch idx : Nat) (s : State) : Out := act s fun d =>
  let v := convoyOf d ch idx
  match v.recs.find? fun r => !r.acked || r.left != 0 with
  | none => d
  | some r =>
    if !v.host then resendFrom d ch idx r.msg.psn true
    else if v.askedTo then d
    else hostRequest (setConvoy d ch idx { v with askedTo := true }) ch 1 idx r.msg.psn (4240 + ch)

/-- An OPENING convoy sends OPEN again, or has reached its retry limit (14 R434, R436). -/
def execOpenResend (ch idx : Nat) (s : State) : Out := act s fun d =>
  let v := convoyOf d ch idx
  if v.st ≠ .opening ∨ !fwRuns d ch then d
  else if v.retryLimit < v.tries then convoyError d ch idx
  else sendOpen (setConvoy d ch idx { v with tries := v.tries + 1 }) ch idx 0x09

/-- A CLOSING convoy with nothing unacknowledged sends CLOSE again, or has reached its retry limit (14 R436). -/
def execCloseResend (ch idx : Nat) (s : State) : Out := act s fun d =>
  let v := convoyOf d ch idx
  if v.st ≠ .closing ∨ !fwRuns d ch ∨ unacked v ≠ [] ∨ v.sendq ≠ [] then d
  else if v.retryLimit < v.tries then closeConvoy d ch idx
  else sendMessage (setConvoy d ch idx { v with tries := v.tries + 1 }) ch idx (control ch idx v.peer 0x0B 0 0 0)

/-- No response to a probe has come within `rto` (14 R438). -/
def execProbeTimeout (ch : Nat) (s : State) : Out := act s fun d =>
  match (chanOf d ch).probe with
  | none => d
  | some _ => cmdDone (setChannel d ch { chanOf d ch with probe := none }) ch 3

/-! Links. -/

/-- Is a channel enabled (14 R450)? -/
def chanEnabled (d : Dev) (ch : Nat) : Bool := regFld d (chnOff ch 0) 0 0 == 1

/-- A change of `CHN.STATUS.link`: its flag and its chime (14 R453). -/
def setLink (d : Dev) (ch l : Nat) : Dev :=
  let x := chanOf d ch
  if x.link = l then d
  else
    let d := if l < 2 then setReg d (regOff 4 0x1C ch 0) 0 else d
    raiseChime (setFlag (setChannel d ch { x with link := l }) (chnOff ch 5) 8) (4764 + ch)

/-- A new training attempt (14 R415). -/
def execLinkTrainingRetry (ch : Nat) (s : State) : Out := act s fun d =>
  if chanEnabled d ch && decide ((chanOf d ch).link < 2) && (chanOf d ch).fw then setLink d ch 1 else d

/-- A link finishes training: unacknowledged messages are sent again (14 R420; log entry 24). -/
def execLinkUp (ch : Nat) (s : State) : Out := act s fun d =>
  if !chanEnabled d ch || (chanOf d ch).link != 1 || !fwRuns d ch then d else
  let d := setLink d ch (if regFld d (chnOff ch 0) 7 7 = 1 then 3 else 2)
  ((chanOf d ch).convoys.map (·.1)).foldl (fun d idx =>
    let v := convoyOf d ch idx
    if v.host then d else retransmit d ch idx v.sndUna) d

/-- A link is lost (14 R420). -/
def execLinkDown (ch : Nat) (s : State) : Out := act s fun d => setLink d ch 0

end Sys2Proof.Machine
end

