-- ==== Sys2Proof/Machine/ChnCmd.lean ====
section
/-! DEFINITION. The commands of CHN.CMD (14 R432 to R446, R451) and the image of a convoy context (R433). -/

namespace Sys2Proof.Machine

open Parts

/-- Applies a pair of registers, low half at `lo`, if it is ready (03 R90), then the management writes to it. -/
def applyPair (d : Dev) (lo : Nat) : Dev :=
  let d := if bufReady d lo then applyField d lo (BitVec.allOnes 32) else d
  let d := if bufReady d (lo + 4) then applyField d (lo + 4) (BitVec.allOnes 32) else d
  (d.rg.mgmt.filter fun w => w.off == lo || w.off == lo + 4).foldl (takeMgmt (BitVec.allOnes 32)) d

/-- The value that a command register will have once its buffer is applied. -/
def bufferedVal (d : Dev) (off : Nat) : Word32 :=
  let b := regBuf d off
  mergeMask (regVal d off) b.value b.mask

/-- The code of a convoy state (14 R433). -/
def convoyCode : ConvoyState → Nat
  | .closed => 0
  | .opening => 1
  | .open_ => 2
  | .closing => 3
  | .error => 4

/-- The sixteen words of a convoy's live context (14 R433). -/
def convoyImage (v : Convoy) : List Nat :=
  [ convoyCode v.st + b2n v.host * 8 + v.perm * 16 + b2n v.db * 2 ^ 8 + v.peer * 2 ^ 9 + v.hx * 2 ^ 22 + v.gbLo * 2 ^ 32 +
      v.gbHi * 2 ^ 40 + v.maxOut * 2 ^ 48 + v.retryLimit * 2 ^ 58,
    v.mac + v.sport * 2 ^ 48, v.ip / 2 ^ 64, v.ip % 2 ^ 64, v.sndNxt + v.sndUna * 2 ^ 32,
    v.rcvNxt + v.rto * 2 ^ 32 + v.retries % 8 * 2 ^ 48, v.cwnd, v.ringVa + v.ringExp * 2 ^ 57,
    v.ringTail + v.ringHead * 2 ^ 32, v.txCredit + v.txUsed * 2 ^ 32, v.rxGong + b2n v.rgv * 2 ^ 17,
    v.recs.length % 2 ^ 16 + (v.recs.filter (·.spilled)).length % 2 ^ 16 * 2 ^ 16, 0, 0, 0, 0 ]

/-- A convoy context loaded from an image's words for an OPENING convoy (14 R433, R434). -/
def convoyFrom (d : Dev) (ch : Nat) (w : Nat → Nat) : Convoy :=
  { st := .opening, host := chanMode d ch 2,
    perm := fld64 (w 0) 7 4, db := fld64 (w 0) 8 8 == 1, peer := fld64 (w 0) 21 9, hx := fld64 (w 0) 31 22,
    gbLo := fld64 (w 0) 39 32, gbHi := fld64 (w 0) 47 40, maxOut := fld64 (w 0) 57 48, retryLimit := fld64 (w 0) 60 58,
    mac := fld64 (w 1) 47 0, sport := fld64 (w 1) 63 48, ip := w 2 * 2 ^ 64 + w 3,
    sndNxt := fld64 (w 4) 31 0, sndUna := fld64 (w 4) 63 32, first := fld64 (w 4) 31 0, rcvNxt := fld64 (w 5) 31 0, ackSent := fld64 (w 5) 31 0,
    rto := ccField d ch 3, cwnd := if isDirect d ch then 2 ^ ccField d ch 1 else 2 ^ ccField d ch 0,
    ringVa := fld64 (w 7) 56 0, ringExp := fld64 (w 7) 61 57,
    txCredit := fld64 (w 9) 31 0, peerRing := fld64 (w 9) 31 0,
    rxGong := fld64 (w 10) 16 0, rgv := fld64 (w 10) 17 17 == 1 }
where
  /-- Bits [hi:lo] of a 64-bit word. -/
  fld64 (x hi lo : Nat) : Nat := x / 2 ^ lo % 2 ^ (hi - lo + 1)

/-- The bits of an image's words that are named (14 R433). -/
def imageBits (i : Nat) : Nat :=
  match i with
  | 0 => 2 ^ 61 - 1
  | 5 => 2 ^ 51 - 1
  | 6 => 2 ^ 24 - 1
  | 7 => 2 ^ 62 - 1
  | 10 => 2 ^ 18 - 1
  | 11 => 2 ^ 32 - 1
  | _ => if i < 12 then 2 ^ 64 - 1 else 0

/-- Is an image one that the raw convoy may be opened with (14 R434, R439): only `hx`, `ring_va`, `ring_exp`, `rx_gong`,
`rgv`, and the fields that OPEN ignores? -/
def rawImage (w : Nat → Nat) : Bool :=
  w 0 / 16 % 2 ^ 18 == 0 && w 0 / 2 ^ 32 == 0 && [1, 2, 3, 4, 5, 6, 8, 9, 11].all fun i => w i == 0

/-- The checks of OPEN on an image (14 R434). -/
def openOk (d : Dev) (ch idx : Nat) (w : Nat → Nat) : Bool :=
  let v := convoyFrom d ch w
  (convoyOf d ch idx).st == .closed && ((upto 16).all fun i => w i &&& imageBits i == w i) &&
    (idx == 0 || decide (1 ≤ v.maxOut ∧ v.maxOut ≤ 512)) && decide (12 ≤ v.ringExp ∧ v.ringExp ≤ 26) &&
    (idx != 0 || rawImage w) && regFld d (hxOff v.hx 2) 5 5 == 1 && regFld d (hxOff v.hx 2) 3 0 == chanPart d ch

/-- Takes the command that waits in CHN.CMD if it has an op: its argument is applied as a pair, the command with it, and
`f` acts on the convoy index and the argument (14 R451); while the channel's firmware does not run it waits (18 R556). -/
def chnCmd (d : Dev) (ch op : Nat) (f : Dev → Nat → Nat → Dev) : Dev :=
  let o := chnOff ch 2
  let e := loadCmd d o
  if !fwRuns d ch then d else if !cmdPending e o then e else if fld (bufferedVal e o) 16 13 != op then d else
  let d := applyField (applyPair e (chnOff ch 3)) o (BitVec.allOnes 32)
  f d (regFld d o 12 0) (reg64 d (chnOff ch 3)).toNat

/-- CHN.CMD OPEN (14 R434, R439; 18 R559). -/
def execChnOpen (ch : Nat) (s : State) : Out := act s fun d =>
  chnCmd d ch 0x0 fun d idx arg =>
    if !argOk d (chanPart d ch) arg 128 32 then cmdDone d ch 2 else
    let w := fun i => valAt d (arg + 8 * i) 8
    if d.evac || !openOk d ch idx w then cmdDone d ch 1 else
    let v := convoyFrom d ch w
    let v := if idx = 0 then { v with st := .open_, rto := 0, cwnd := 0 } else v
    cmdDone (setConvoy d ch idx v) ch 0

/-- CHN.CMD CLOSE (14 R434, R436); of a convoy that is CLOSED or in ERROR it gives STATE (log entry 25). -/
def execChnClose (ch : Nat) (s : State) : Out := act s fun d =>
  chnCmd d ch 0x1 fun d idx _ =>
    let v := convoyOf d ch idx
    if v.st = .closed ∨ v.st = .error then cmdDone d ch 1
    else if idx = 0 then cmdDone (closeConvoy d ch idx) ch 0
    else cmdDone (setConvoy d ch idx { v with st := .closing, tries := 0 }) ch 0

/-- CHN.CMD RESET (14 R436). -/
def execChnReset (ch : Nat) (s : State) : Out := act s fun d =>
  chnCmd d ch 0x2 fun d idx _ => cmdDone (closeConvoy d ch idx) ch 0

/-- CHN.CMD READ (14 R433). -/
def execChnRead (ch : Nat) (s : State) : Out := act s fun d =>
  chnCmd d ch 0x3 fun d idx arg =>
    if !argOk d (chanPart d ch) arg 128 32 then cmdDone d ch 2
    else cmdDone (writeAt d arg ((convoyImage (convoyOf d ch idx)).flatMap (leBytes 8)) false) ch 0

/-- CHN.CMD RETX (14 R432). -/
def execChnRetx (ch : Nat) (s : State) : Out := act s fun d =>
  chnCmd d ch 0x4 fun d idx arg =>
    let d := retransmit d ch idx (arg % psnMod)
    let v := convoyOf d ch idx
    cmdDone (setConvoy d ch idx { v with askedTo := false, askedNak := false }) ch 0

/-- CHN.CMD SETWIN (14 R432, R452). -/
def execChnSetwin (ch : Nat) (s : State) : Out := act s fun d =>
  chnCmd d ch 0x5 fun d idx arg =>
    let v := convoyOf d ch idx
    cmdDone (setConvoy d ch idx { v with cwnd := arg % 2 ^ 24, askedEcn := false }) ch 0

/-- CHN.CMD SPILL (14 R445): as in hardware mode. -/
def execChnSpill (ch : Nat) (s : State) : Out := act s fun d =>
  chnCmd d ch 0x6 fun d idx _ =>
    let x := chanOf d ch
    let d := setChannel d ch { x with convoys := x.convoys.map fun v => (v.1, { v.2 with askedRec := false }) }
    if (convoyOf d ch idx).recs.all (·.spilled) then cmdDone d ch 0
    else match spillConvoy d ch idx with
      | some e => cmdDone e ch 0
      | none => cmdDone (setFlag d (chnOff ch 5) 6) ch 0

/-- CHN.CMD RING_HEAD (14 R440): ring lines are free, and messages that waited for them proceed. -/
def execChnRingHead (ch : Nat) (s : State) : Out := act s fun d =>
  chnCmd d ch 0x7 fun d idx arg =>
    let v := convoyOf d ch idx
    let d := setConvoy d ch idx { v with ringHead := arg % psnMod }
    cmdDone (drainHeld (v.held.length + 1) d ch idx) ch 0

/-- CHN.CMD RED_DONE (14 R446). -/
def execChnRedDone (ch : Nat) (s : State) : Out := act s fun d =>
  chnCmd d ch 0x8 fun d idx arg => cmdDone (reduceDone d ch idx (arg % psnMod)) ch 0

/-- CHN.CMD HREQ_HEAD (14 R444). -/
def execChnHreqHead (ch : Nat) (s : State) : Out := act s fun d =>
  chnCmd d ch 0x9 fun d _ arg =>
    let x := chanOf d ch
    let d := setChannel d ch { x with hreqHead := arg % psnMod }
    cmdDone (flushHreq (x.hreqWait.length + 1) d ch) ch 0

/-- CHN.CMD PROBE (14 R438): it completes when the response comes or the wait for it ends; on a convoy that is not OPEN
it gives STATE (log entry 25). -/
def execChnProbe (ch : Nat) (s : State) : Out := act s fun d =>
  chnCmd d ch 0xA fun d idx arg =>
    let v := convoyOf d ch idx
    if !argOk d (chanPart d ch) arg 32 32 then cmdDone d ch 2
    else if v.st ≠ .open_ ∨ idx = 0 then cmdDone d ch 1
    else
      let now := reg64 d hdAcntOff
      let d := setChannel d ch { chanOf d ch with probe := some ⟨idx, arg, now⟩ }
      sendMessage d ch idx (control ch idx v.peer 0x14 0 now 0)

end Sys2Proof.Machine
end

