-- ==== Sys2Proof/Machine/Endings.lean ====
section
/-! DEFINITION. How the commands of SVC, ATT and PEAL end (18 R555, R566; 19 R598 to R600), and what is no command of them. -/

namespace Sys2Proof.Machine

open Parts

/-- A register of SVC. -/
def svcOff (reg : Nat) : Nat := regOff 5 0x27 0 reg

/-- The code of a RESULT message for a result of SVC.CMD (19 R587). -/
def resultCode (r : Nat) : Nat :=
  match r with
  | 2 => 5
  | 3 => 7
  | 4 => 8
  | r => r

/-- An SVC command ends (18 R555, R566): 0 OK, 1 STATE, 2 BADSIG, 3 FLOOR, 4 REVERTED; `cmd` is the management command that
brought it. -/
def svcEnd (d : Dev) (result : Nat) (cmd : Option Nat) : Dev :=
  let d := setRegFld (setRegFld d (svcOff 0) 13 11 result) (svcOff 0) 10 10 0
  let d := setRegFld d (svcOff 3) 1 0 0
  let d := raiseChime (setFlag { d with sv := { d.sv with run := none } } (svcOff 4) 0) 4823
  match cmd with
  | some c => mgtQueue d (.result c (resultCode result) 0)
  | none => d

/-- A register of ATT. -/
def attOff (reg : Nat) : Nat := regOff 5 0x29 0 reg

/-- ATT.CMD ends (19 R599): 0 OK, 1 STATE, 2 NOID, 3 XLAT. -/
def attEnd (d : Dev) (result : Nat) : Dev := setRegFld (setRegFld d (attOff 0) 2 1 result) (attOff 0) 0 0 0

/-- PEAL.CMD ends (19 R600): 0 OK, 1 STATE, 2 XLAT. -/
def pealEnd (d : Dev) (slot result : Nat) : Dev := setRegFld (setRegFld d (pealOff slot 0) 5 4 result) (pealOff slot 0) 3 3 0

/-- Does a command register hold an op that is none (14 R451; 18 R566; 19 R600), with `go` 1? -/
def strayCmd (d : Dev) (off : Nat) : Bool :=
  let v := regVal d off
  match offUnit off, offReg off with
  | 0x19, 2 => bit v 17 && decide (0xA < fld v 16 13)
  | 0x27, 0 => bit v 10 && (fld v 3 0 == 0 || decide (5 < fld v 3 0))
  | 0x2A, 0 => bit v 3 && (fld v 2 0 == 0 || decide (5 < fld v 2 0))
  | _, _ => false

/-- May a command be taken: of a channel, only while its firmware runs (18 R556)? -/
def cmdMayRun (d : Dev) (off : Nat) : Bool := if offUnit off = 0x19 then fwRuns d (offInst off) else true

/-- A command with an op that is none gives STATE. -/
def refuseCmd (d : Dev) (off : Nat) : Dev :=
  match offUnit off with
  | 0x19 => cmdDone d (offInst off) 1
  | 0x27 => svcEnd d 1 none
  | _ => pealEnd d (offInst off) 1

end Sys2Proof.Machine
end

