-- ==== Sys2Proof/Machine/Home.lean ====
section
/-! DEFINITION. Operations at the home (10 R321 to R323) and the boundary of the well (10 R317 to R320). -/

namespace Sys2Proof.Machine

open Parts

/-! Atomics and reduce-writes. -/

/-- Counts an atomic or reduce-write performed on a line's CD (20 R616). -/
def countHome (d : Dev) (ln : Nat) : Dev := addCtr d (cntOff (homeOf d ln).1 8) 1

/-- The value an atomic leaves, and whether it was invalid (04 R140). -/
def atomResult (aop sz old v cmp : Nat) : Nat × Bool :=
  if aop = 0xA then (let r := fpAdd f32 .even old (v % 2 ^ 32); (r.bits, r.inv))
  else (atomicInt aop (8 * szBytes sz) old (v % 2 ^ (8 * szBytes sz)) (cmp % 2 ^ (8 * szBytes sz)), false)

/-- A thread's atomic performed on its line in DI (04 R140, R152; 10 R322, R323): the new package and what the lane
receives. -/
def atomPerform (d : Dev) (pa sz aop : Nat) (a : LaneAcc) (ecc : EccFound) : Dev × (Word64 × Bool × Bool) :=
  let ln := pa / 64
  let d := eccRead (homeFill d ln) ln ecc
  let old := valAt d pa (szBytes sz)
  if poisonAt d ln then (breakResv d ln, (BitVec.ofNat 64 old, true, false))
  else
    let r := atomResult aop sz old a.data.toNat a.cmp.toNat
    let d := countHome d ln
    let same := aop = 9 ∧ old ≠ a.cmp.toNat % 2 ^ (8 * szBytes sz) ∧ !a.poison
    let d := if same then breakResv d ln else putIn d pa (leBytes (szBytes sz) r.1) a.poison
    (d, (BitVec.ofNat 64 old, a.poison, r.2))

/-- An outstanding atomic with the result of one lane in. -/
def laneDone (d : Dev) (cd tile ord lane : Nat) (r : Word64 × Bool × Bool) : Dev :=
  let x := tileOf d cd tile
  setTile d cd tile { x with out := x.out.map fun q =>
    if q.ord = ord then { q with parts := q.parts.map fun b => if b.lane = lane then { b with done := some r } else b } else q }

/-- The atomic of one lane, once what it must follow is done, the tile's earlier stores to its line among it (11 R348, R350, R351),
and its line is in DI. -/
def homeAtomic (d : Dev) (cd tile ord lane : Nat) (ecc : EccFound) : Dev :=
  let x := tileOf d cd tile
  match x.out.find? fun o => o.ord == ord with
  | none => d
  | some o =>
    match o.aop, o.parts.find? fun a => a.lane == lane && a.done.isNone with
    | some aop, some a =>
      match a.chunks.head? with
      | none => d
      | some c =>
        let ln := c.pa / 64
        let stored := x.stores.any fun e => e.line == ln && e.by_.any fun b => decide (b.ord < ord)
        if earlierSameLine x o.slot ord lane [ln] || stored || (o.rel && !relDone d cd tile o.slot o.scope ord o.lanes) then d
        else if deadTo d cd ln then raiseStatus (laneDone d cd tile ord lane (0, true, false)) cd tile o.blk stPoison
        else match deviceLine d ln [0, cd, tile, ord, lane] with
          | (d, false) => d
          | (d, true) =>
            let (d, r) := atomPerform d c.pa o.sz aop a ecc
            laneDone d cd tile ord lane r
    | _, _ => d

/-- One element of a reduce-write: its new value and the status it raises (09 R276). -/
def redElement (red old v : Nat) : Nat × Nat :=
  let s := fun x => sextNat 32 x
  match red with
  | 1 =>
    let r := clampInt (-(2 ^ 31)) (2 ^ 31 - 1) (s old + s v)
    (wrapInt 32 r.v, if r.sat then stOvf else 0)
  | 2 => let r := fpAdd f32 .even old v; (r.bits, if r.inv then stInvalid else 0)
  | 3 => let r := fpAdd bf16 .even old v; (r.bits, if r.inv then stInvalid else 0)
  | 4 => (if s old ≤ s v then v else old, 0)
  | _ => (if s old ≤ s v then old else v, 0)

/-- The elements of a reduce-write applied to a line: the new line and the statuses. -/
def redLine (red : Nat) (old v : Line) (mask : BitVec 64) : Line × Nat :=
  let n := redSize red
  (upto (64 / n)).foldl (fun (acc : Line × Nat) i =>
    if bit mask (i * n) then
      let w := 8 * n
      let r := redElement red (fld old (w * i + w - 1) (w * i)) (fld v (w * i + w - 1) (w * i))
      (setFld acc.1 (w * i + w - 1) (w * i) r.1, acc.2 ||| r.2)
    else acc) (old, 0)

/-- A reduce-write is done: its move's status, or its message (09 R277, R280; 14 R425). -/
def redDone (d : Dev) (r : RedWrite) (st : Nat) : Dev :=
  let d := { d with reds := d.reds.filter fun q => q.id != r.id }
  match r.owner with
  | .move m => settleMove (moveStatus d m st) m
  | .msg ch idx psn =>
    let v := convoyOf d ch idx
    let d := if stHas st stPoison then
        setConvoy d ch idx { v with held := v.held.map fun h => if h.reduce ∧ h.rx.m.psn = psn then { h with pois := true } else h }
      else d
    if d.reds.any fun q => q.owner == r.owner then d else reduceDone d ch idx psn

/-- A reduce-write at its home (09 R276, R277; 10 R321 to R323). -/
def homeReduce (d : Dev) (id : Nat) (ecc : EccFound) : Dev :=
  match d.reds.find? fun r => r.id == id with
  | none => d
  | some r =>
    match deviceLine d r.line [1, id] with
    | (d, false) => d
    | (d, true) =>
      let d := eccRead (homeFill d r.line) r.line ecc
      let (old, p) := lineAt d r.line
      if p then redDone (breakResv d r.line) r stPoison
      else
        let (x, st) := redLine r.red old r.data r.mask
        let d := countHome (putLine d r.line x r.mask r.poison) r.line
        redDone d r (st ||| (if r.poison then stPoison else 0))

/-- The line that an operation at a home is for. -/
def homeOpLine (d : Dev) : HomeOp → Option Nat
  | .atomic cd tile ord lane =>
    ((tileOf d cd tile).out.find? fun o => o.ord == ord).bind fun o =>
      (o.parts.find? fun a => a.lane == lane && a.done.isNone).bind fun a => a.chunks.head?.map fun c => c.pa / 64
  | .reduce id => (d.reds.find? fun r => r.id == id).map (·.line)

/-- An operation of class P that finds no token at the atomic unit of its home (16 R488). -/
def homeOver (d : Dev) (op : HomeOp) (noToken : Bool) : Dev :=
  match homeOpLine d op with
  | some ln => flagIf noToken d (arbOff (homeOf d ln).1) 0
  | none => d

/-- An atomic or a reduce-write is performed at its home slice (10 R321 to R323); `ecc` is what its read finds (R310), `noToken` tells that
it was of class P and found no token at the unit (16 R488). -/
def execHomeAtomic (op : HomeOp) (ecc : EccFound) (noToken : Bool) (s : State) : Out := act s fun d0 =>
  let d := homeOver d0 op noToken
  match op with
  | .atomic cd tile ord lane => homeAtomic d cd tile ord lane ecc
  | .reduce id => homeReduce d id ecc

/-! The boundary of the well. -/

/-- A register of a well. -/
def wellOff (c reg : Nat) : Nat := regOff c 0x11 0 reg

/-- The target a well acts on (10 R317): the majority of `cache_slices` where it is one of 4 to 64, else the last one. -/
def wellTarget (d : Dev) (c : Nat) : Nat :=
  let t := regFld d (wellOff c 0) 6 0
  if 4 ≤ t ∧ t ≤ 64 then t else (wellOf d c).target

/-- The target is reached: the well's chime and `f_split`, once for each write (10 R317). -/
def settleWell (d : Dev) (c : Nat) : Dev :=
  let w := wellOf d c
  if w.announce ∧ w.step = .none ∧ w.current = wellTarget d c then
    setFlag (raiseChime (setWell d c { w with announce := false, target := wellTarget d c }) (4756 + c)) (ftOff c 8) 1
  else d

/-- A shrinking step starts (10 R318). -/
def execWellShrinkStep (cd : Nat) (s : State) : Out := act s fun d =>
  let w := wellOf d cd
  let t := wellTarget d cd
  if !cdFitted d.variant cd || w.step != .none || decide (w.current ≤ t) then d else
  let sl := w.current - 1
  setWell d cd { w with step := .shrink, stepSlice := sl, left := bucketsAt d cd sl, target := t }

/-- The lines of slice s in scratch mode. -/
def sliceBase (c sl : Nat) : Nat := windowBase c + sl * 0x800000

/-- Does a line number lie in a slice's window? -/
def inSlice (c sl ln : Nat) : Bool := decide (sliceBase c sl ≤ ln * 64 ∧ ln * 64 < sliceBase c sl + 0x800000)

/-- Is an access to a scratch slice open (10 R319): of a thread, of a move, or of a transfer of a channel? -/
def sliceOpen (d : Dev) (c sl : Nat) : Bool :=
  (d.tiles.any fun e =>
    (e.2.stores.any fun t => inSlice c sl t.line) ||
      e.2.out.any fun o => o.parts.any fun a => a.chunks.any fun k => inSlice c sl (k.pa / 64)) ||
  (d.drv.any fun e => e.2.moves.any fun m => m.phase == .moving && m.touch.contains (sliceKey c sl)) ||
  (d.ch.any fun x => x.2.convoys.any fun v =>
    (v.2.kept.any fun k => inSlice c sl (k.2 / 64)) || (v.2.sendq ++ v.2.recs).any fun r => r.src.any fun p => inSlice c sl (p.1 / 64))

/-- May a slice join the cache (10 R319)? -/
def mayJoin (d : Dev) (c sl : Nat) : Bool := sliceMode d c sl == 1 && slicePart d c sl == 0 && !sliceOpen d c sl

/-- Does a growing step wait (10 R319)? -/
def wellBlocked (d : Dev) (c : Nat) : Bool :=
  let w := wellOf d c
  w.step == .none && decide (w.current < wellTarget d c) && !mayJoin d c w.current

/-- A growing step starts (10 R319). -/
def execWellGrowStep (cd : Nat) (s : State) : Out := act s fun d =>
  let w := wellOf d cd
  let t := wellTarget d cd
  if !cdFitted d.variant cd || w.step != .none || decide (t ≤ w.current) || !mayJoin d cd w.current then d else
  let d := zeroRange d (sliceBase cd w.current) 0x800000
  setWell d cd { w with step := .grow, stepSlice := w.current, left := 256 / (w.current + 1), target := t }

/-- A step ends (10 R318, R319). -/
def endStep (d : Dev) (c : Nat) : Dev :=
  let w := wellOf d c
  match w.step with
  | .shrink =>
    settleWell (setWell (zeroRange d (sliceBase c w.stepSlice) 0x800000) c
      { w with step := .none, stepSlice := 0, left := 0, current := w.stepSlice }) c
  | .grow => settleWell (setWell d c { w with step := .none, stepSlice := 0, left := 0, current := w.stepSlice + 1 }) c
  | .none => d

/-- One bucket of a step is transferred, once no transaction is open on a line of it (10 R318, R319); the last transfer
ends the step. It runs in class M (R320), and waits while the budget has no token (16 R490), as `waits` tells. -/
def execBucketTransfer (cd : Nat) (waits : Bool) (s : State) : Out := act s fun d =>
  match nextTransfer d cd with
  | none => d
  | some (b, sl) =>
    if waits then setFlag d (arbOff cd) 1 else
    if d.coh.txns.any fun t => inBucket d cd b t.line || (t.victim.map (inBucket d cd b)).getD false then d else
    let lines := (d.mem.lines.map (·.1)).filter (inBucket d cd b)
    let d := lines.foldl evictLine d
    let w := wellOf d cd
    let d := setWell d cd { w with homes := Sparse.set bootHome w.homes b sl, left := w.left - 1 }
    if w.left ≤ 1 then endStep d cd else d

end Sys2Proof.Machine
end

