-- ==== Sys2Proof/Machine/StreamIssue.lean ====
section
/-! DEFINITION. Issue of an instruction by a stream (02 R37 to R40; 03 R68, R69, R74 to R76; 17 R529). -/

namespace Sys2Proof.Machine

open Parts

/-- Do dispatchers hold new `blk.launch` and `drv.*` (17 R529)? -/
def holdsNew (d : Dev) : Bool := pwrState d == 2 || pwrState d == 3 || pwrState d == 4

/-- The words of an instruction that follow its first one. -/
def wordsAfter (x : Queue) (w : Word64) : List Word64 := (x.words.drop (x.pos + 1)).take (wExt w)

/-- What stands at a queue's next instruction (03 R69): a decoded instruction with its first word and the words that
follow it; or none, ILLEGAL, where no instruction of a stream stands there or where its last word would fall on the
seal. -/
def streamWord (x : Queue) : Option (Op × Word64 × List Word64) :=
  let w := listGet 0 x.words x.pos
  if lastInstr x < x.pos + wExt w then none
  else match decodeStream w with
    | some o => if immOk o (wordsAfter x w) then some (o, w, wordsAfter x w) else none
    | none => none

/-- The trace of an instruction start (20 R609). -/
def traceStart (d : Dev) (q : Nat) (x : Queue) (w : Word64) : Dev :=
  trace d (queueCd q) 2 0 1 (some (qPart d q)) (some (qClass d q)) (q + x.gen * 2 ^ 12 + x.pos * 2 ^ 28) w.toNat

/-- A stream starts the instruction in hand, where it is one that `sel` takes; `f` gives its effect, from the queue, the
word, the words that follow and the number of words. -/
def issueStream (q : Nat) (sel : Op → Bool) (d : Dev) (f : Dev → Op → Word64 → List Word64 → Nat → Dev) : Dev :=
  if !canStart d q then d else
  match streamWord (queueOf d q) with
  | some (o, w, imms) =>
    if !sel o then d else
    let x := queueOf d q
    let e := f d o w imms (1 + wExt w)
    if queueOf e q = x then e else traceStart e q x w
  | none => d

end Sys2Proof.Machine
end

