-- ==== Sys2Proof/Machine/Drover.lean ====
section
/-! DEFINITION. Drovers (09 R267 to R281, R634): issue, descriptor fetch, checks, execution, completion. -/

namespace Sys2Proof.Machine

open Parts

/-! Issue. -/

/-- The key of a CD's stream drover. -/
def streamDrover (c : Nat) : Nat := c * 1024 + 0x3FF

/-- A register of a drover. -/
def drvOff (k reg : Nat) : Nat := regOff (k / 1024) 0x0D (k % 1024) reg

/-- Instructions in a drover's queue, and moves in flight (09 R267). -/
def drvQueued (x : Drover) : Nat := (x.moves.filter fun m => m.phase == .queued).length
/-- Moves in flight. -/
def drvInFlight (x : Drover) : Nat := x.moves.length - drvQueued x

/-- Moves a drover may have in flight (09 R267). -/
def drvCap (k : Nat) : Nat := if k % 1024 = 0x3FF then 64 else 16

/-- A move put at the end of a drover's queue. -/
def pushMove (d : Dev) (k : Nat) (m : Move) : Dev :=
  let x := droverOf d k
  setDrover d k { moves := x.moves ++ [{ m with id := x.next }], next := x.next + 1 }

/-- The class a move carries (02 R53): the lower of its issuer's and the one it names. -/
def drvClass (cls : Nat) (w : Word64) : Nat := if bit w 41 then max cls (fld w 40 39) else cls

/-- A move at its issue. -/
def newMove (fill : Bool) (w : Word64) (addr : Option Nat) (words : List Word64) (cls queue part : Nat) (sp : Space)
    (tile : Option (Nat × Nat)) (ord : Nat) : Move :=
  { id := 0, fill := fill, dim := fld w 49 48, addr := addr, words := words, cls := drvClass cls w, queue := queue,
    part := part, space := sp, tile := tile, ord := ord, phase := .queued, status := 0, side := 0, va := none,
    gongOk := false, msgs := 0, bytes := 0 }

/-- Is an operation a drover move of a kind? -/
def selDrv (fill : Bool) : Op → Bool
  | .drv f => f == fill
  | _ => false

/-- Issue of `drv.*` by a thread (09 R267 to R269): a full queue holds the path; a local descriptor is read now. -/
def drvThread (fill : Bool) (p : PathRef) (d : Dev) : Dev :=
  issueLeader p (selDrv fill) d fun d k _ =>
    let key := tileDrover k.c k.t
    let lane := leader k.p
    if 16 ≤ drvQueued (droverOf d key) then none else
    let m := fun addr words => newMove fill k.w addr words k.b.cls k.b.queue k.b.part k.b.space (some (k.c, k.t)) k.x.ord
    if bit k.w 47 then
      let u := fld k.w 46 42
      let off := (ureg k.g u).toNat
      if upoison k.g u then some (faultAt d k lane stPoison none)
      else if off % 64 ≠ 0 then some (faultAt d k lane stIllegal none)
      else if tileBytes ≤ off then some (faultAt d k lane stXlat (some (off % vaMod)))
      else
        let pa := tilePa k.c k.t off
        let words := (upto 8).map fun i => BitVec.ofNat 64 (valAt d (pa + 8 * i) 8)
        if poisonAt d (pa / 64) then
          some (pushMove d key { m none [] with status := stPoison, va := some off })
        else some (pushMove d key (m none words))
    else some (pushMove d key (m (some ((k.imms.headD 0).toNat % vaMod)) []))

/-- Issue of `drv.*` by a stream (02 R38; 09 R267; 17 R529): it retires when the drover takes it. -/
def drvStream (fill : Bool) (q : Nat) (d : Dev) : Dev :=
  issueStream q (selDrv fill) d fun d _ w imms n =>
    let key := streamDrover (queueCd q)
    if holdsNew d || decide (16 ≤ drvQueued (droverOf d key)) then d else
    let d := pushMove d key (newMove fill w (some ((imms.headD 0).toNat % vaMod)) [] (qClass d q) q (qPart d q)
      (queueSpace d q) none 0)
    retireInstr d q n

/-- `drv.move1d`, `drv.move2d`, `drv.move3d` (09 R268). -/
def execDrvMove (src : Issuer) (s : State) : Out := act s fun d =>
  match src with
  | .stream q => drvStream false q d
  | .thread p => drvThread false p d

/-- `drv.fill` (09 R270). -/
def execDrvFill (src : Issuer) (s : State) : Out := act s fun d =>
  match src with
  | .stream q => drvStream true q d
  | .thread p => drvThread true p d

/-! Descriptor fetch. -/

/-- The first-level TLB a move looks in. -/
def moveSel (k : Nat) (m : Move) : TlbSel :=
  match m.tile with
  | some (c, t) => .tile c t
  | none => .stream (k / 1024)

/-- A move ends before any byte moves, with a status, a side and an address. -/
def endMove (d : Dev) (id : MoveId) (st side : Nat) (va : Option Nat) : Dev :=
  updMove d id fun m => { m with phase := .moved, status := m.status ||| st, side := side, va := va }

/-- The bytes of a range with their physical addresses, translated line by line: a status with the address that fails, a
wait, or the ranges. -/
def drvRange (d : Dev) (sel : TlbSel) (sp : Space) (part : Nat) (acc : Access) :
    List (Nat × Nat) → List (Nat × Nat) → Dev × (Option (Nat × Nat) ⊕ List (Nat × Nat))
  | [], got => (d, .inr got)
  | (va, n) :: rest, got =>
    match translate d sel sp (va % vaMod) acc with
    | (d, .wait) => (d, .inl none)
    | (d, .cause _ st) => (d, .inl (some (st, va % vaMod)))
    | (d, .ok pa) =>
      let st := paCheck d part pa
      if st ≠ 0 then (d, .inl (some (st, va % vaMod))) else drvRange d sel sp part acc rest (got ++ [(pa, n)])

/-- A drover accepts the first move of its queue and reads its descriptor, or the fetch fails (09 R267, R269). -/
def execDrvDescriptorFetch (drover : Nat) (ecc : List (Nat × EccFound)) (s : State) : Out := act s fun d =>
  let x := droverOf d drover
  match x.moves.find? fun m => m.phase == .queued with
  | none => d
  | some m =>
    let id : MoveId := ⟨drover, m.id⟩
    if drvCap drover ≤ drvInFlight x then d else
    match m.addr with
    | none => updMove d id fun m => { m with phase := if m.status = 0 then .read else .moved }
    | some a =>
      match drvRange d (moveSel drover m) m.space m.part .read (rangeLines a 64) [] with
      | (_, .inl none) => d
      | (d, .inl (some (st, _))) => endMove d id st 0 (some a)
      | (d, .inr pas) =>
        let d := readLines d ecc (pas.map fun e => e.1 / 64)
        if pas.any fun e => poisonAt d (e.1 / 64) then endMove d id stPoison 0 (some a)
        else
          let bs := gather d pas
          let words := (upto 8).map fun i => BitVec.ofNat 64 (leNat ((bs.drop (8 * i)).take 8))
          updMove d id fun m => { m with phase := .read, words := words }

/-! The descriptor. -/

/-- A word of a descriptor. -/
def dw (m : Move) (i : Nat) : Word64 := listGet 0 m.words i

/-- The fields of a descriptor (09 R270). -/
structure Desc where
  src : Nat
  dst : Nat
  xlen : Nat
  ny : Nat
  nz : Nat
  sys : Int
  szs : Int
  dys : Int
  dzs : Int
  gong : Nat
  gv : Bool
  convoy : Nat
  rgong : Nat
  rgv : Bool
  ssp : Nat
  dsp : Nat
  red : Nat
  scope : Nat

/-- The descriptor of a move. -/
def descOf (m : Move) : Desc :=
  let s := fun i => sextNat 48 (fld (dw m i) 47 0)
  let w := dw m 7
  { src := (dw m 0).toNat, dst := (dw m 1).toNat, xlen := fld (dw m 2) 31 0, ny := fld (dw m 2) 47 32,
    nz := fld (dw m 2) 63 48, sys := s 3, szs := s 4, dys := s 5, dzs := s 6,
    gong := fld w 16 0, gv := bit w 17, convoy := fld w 36 18, rgong := fld w 53 37, rgv := bit w 54,
    ssp := fld w 56 55, dsp := fld w 58 57, red := fld w 61 59, scope := fld w 62 62 }

/-- Are bits [63:48] of a stride word copies of its bit 47? -/
def strideOk (w : Word64) : Bool := sextNat 64 w.toNat == sextNat 48 (fld w 47 0)

/-- Does a descriptor keep the rules of 09 R272? Those of its spaces hold for `drv.fill` too. -/
def descOk (m : Move) : Bool :=
  let e := descOf m
  let n : Nat := redSize e.red
  let fits := fun (x : Int) => decide (x % (n : Int) = 0)
  e.dsp != 3 && decide (e.red ≤ 5) && e.ssp != 3 &&
    e.xlen != 0 && e.ny != 0 && e.nz != 0 &&
    (m.dim == 2 || e.nz == 1) && (decide (1 ≤ m.dim) || e.ny == 1) &&
    (m.dim == 2 || (decide (e.szs = 0) && decide (e.dzs = 0))) && (decide (1 ≤ m.dim) || (decide (e.sys = 0) && decide (e.dys = 0))) &&
    [3, 4, 5, 6].all (fun i => strideOk (dw m i)) &&
    !(e.ssp == 2 && e.dsp == 2) && !(e.rgv && e.dsp != 2) && !(m.tile.isNone && (e.ssp == 1 || e.dsp == 1)) &&
    (e.red == 0 || (!m.fill && e.ssp != 2 && e.xlen % n == 0 && fits e.sys && fits e.szs && fits e.dys && fits e.dzs &&
      e.src % n == 0 && e.dst % n == 0))

/-- The row starts of one side of a move, in move order (09 R270). -/
def rowStarts (e : Desc) (base : Nat) (ys zs : Int) (space : Nat) : List Int :=
  (upto e.nz).flatMap fun (z : Nat) => (upto e.ny).map fun (y : Nat) =>
    let a : Int := (base : Int) + (y : Int) * ys + (z : Int) * zs
    if space = 1 then a else (wrapInt 57 a : Int)

/-- Pieces of a row that cross no line on either side: source, destination, length. `k` bounds their number. -/
def rowPieces : Nat → Int → Int → Nat → List (Int × Int × Nat)
  | 0, _, _, _ => []
  | k + 1, a, b, n =>
    if n = 0 then [] else
    let room := fun (x : Int) => 64 - (x % 64).toNat
    let m := min n (min (room a) (room b))
    (a, b, m) :: rowPieces k (a + m) (b + m) (n - m)

/-- The pieces of a move, in move order. For a fill the source side runs with the destination. -/
def movePieces (m : Move) (e : Desc) : List (Int × Int × Nat) :=
  let dst := rowStarts e e.dst e.dys e.dzs e.dsp
  let src := if m.fill then dst else rowStarts e e.src e.sys e.szs e.ssp
  (src.zip dst).flatMap fun r => rowPieces (e.xlen / 32 + 3) r.1 r.2 e.xlen

/-- What one side of one piece gives: nothing to check, a physical address, a failure with its address, or a wait. -/
inductive SideRes where
  | none
  | pa (a : Nat)
  | bad (st va : Nat)
  | wait

/-- Translates and checks one side of a piece (09 R273). -/
def sidePiece (d : Dev) (sel : TlbSel) (m : Move) (space : Nat) (a : Int) (acc : Access) (red : Bool) : Dev × SideRes :=
  if space = 2 then (d, .none)
  else if space = 1 then
    match m.tile with
    | some (c, t) => if 0 ≤ a ∧ a < (tileBytes : Int) then
        (if red then (d, .bad stNoatomic (wrapInt 57 a)) else (d, .pa (tilePa c t a.toNat)))
      else (d, .bad stXlat (wrapInt 57 a))
    | none => (d, .bad stIllegal (wrapInt 57 a))
  else
    let va := wrapInt 57 a
    match translate d sel m.space va acc with
    | (d, .wait) => (d, .wait)
    | (d, .cause _ st) => (d, .bad st va)
    | (d, .ok pa) =>
      let st := paCheck d m.part pa
      if st ≠ 0 then (d, .bad st va)
      else if red && (farLine? d (pa / 64)).isNone then (d, .bad stNoatomic va)
      else (d, .pa pa)

/-- A piece with its physical addresses: source (none where the move has none here), destination, length, and the
destination address of the move. -/
structure Piece where
  src : Option Nat
  dst : Option Nat
  n : Nat
  at_ : Int

/-- The checks of every byte of a move in move order, source before destination (09 R273): a failure with its status,
side and address; a wait (none); or the pieces. -/
def checkPieces (d : Dev) (sel : TlbSel) (m : Move) (e : Desc) :
    List (Int × Int × Nat) → List Piece → Dev × (Option (Nat × Nat × Nat) ⊕ List Piece)
  | [], got => (d, .inr got)
  | (a, b, n) :: rest, got =>
    let (d, s) := if m.fill then (d, SideRes.none) else sidePiece d sel m e.ssp a .read false
    match s with
    | .wait => (d, .inl none)
    | .bad st va => (d, .inl (some (st, 0, va)))
    | _ =>
      let src := match s with
        | .pa x => some x
        | _ => none
      match sidePiece d sel m e.dsp b .write (e.red != 0) with
      | (d, .wait) => (d, .inl none)
      | (d, .bad st va) => (d, .inl (some (st, 1, va)))
      | (d, .pa x) => checkPieces d sel m e rest (got ++ [⟨src, some x, n, b⟩])
      | (d, .none) => checkPieces d sel m e rest (got ++ [⟨src, none, n, b⟩])

/-- The tiles and the scratch slices whose windows some pieces read or write. -/
def pieceUnits (d : Dev) (ps : List Piece) : List Nat :=
  (ps.flatMap fun p => (p.src.toList ++ p.dst.toList).filterMap fun a => match paKind d a with
    | .tile c t => some (tileKey c t)
    | .scratch c sl => some (sliceKey c sl)
    | _ => none).eraseDups

/-! Execution. -/

/-- The bytes of a fill's pattern from a destination address (09 R270). -/
def fillBytes (m : Move) (e : Desc) (at_ : Int) (n : Nat) : List Byte :=
  (upto n).map fun (i : Nat) => lineByte ((dw m 0).setWidth 512) ((at_ + (i : Int) - (e.dst : Int)) % 8).toNat

/-- The CD of a move's drover. -/
def moveCd (m : Move) : Nat :=
  match m.tile with
  | some (c, _) => c
  | none => queueCd m.queue

/-- The bytes of a piece and the poison of its source line; a source out of reach is poisoned (18 R544). -/
def pieceBytes (d : Dev) (m : Move) (e : Desc) (p : Piece) : List Byte × Bool :=
  match p.src with
  | some a => (seenBytes d m.hidden a p.n, seenPoison d m.hidden (a / 64) || deadTo d (moveCd m) (a / 64))
  | none => (fillBytes m e p.at_ p.n, false)

/-- The byte that a destination takes where several of a move's bytes share it: which one is not defined (09 R275; log
entry 11). -/
def sharedAt (draw : Nat) (cands : List (Nat × Byte)) (pa : Nat) : Byte :=
  let c := (cands.filter fun e => e.1 == pa).map (·.2)
  listGet 0 c (Config.sharedByte draw pa c.length % c.length)

/-- A line write with every byte chosen among the bytes that share its place. -/
def sharedWrite (draw : Nat) (cands : List (Nat × Byte)) (w : LineWrite) : LineWrite :=
  { w with data := BitVec.ofNat 512 (leNat ((upto 64).map fun i =>
      if bit w.mask i then sharedAt draw cands (w.line * 64 + i) else 0)) }

/-- The line writes of a local copy or fill. -/
def copyWrites (d : Dev) (m : Move) (e : Desc) (ps : List Piece) : List LineWrite :=
  let bs := ps.filterMap fun p => p.dst.map fun a => (a, pieceBytes d m e p)
  let ws : List LineWrite := bs.foldl (fun ws b => addWrite b.1 b.2.1 b.2.2 ws) []
  let total : Nat := (bs.map fun b => b.2.1.length).foldl (· + ·) 0
  let kept : Nat := (ws.map fun w => popcount w.mask).foldl (· + ·) 0
  if total = kept then ws
  else
    let cands := bs.flatMap fun b => (enumFrom 0 b.2.1).map fun x => (b.1 + x.1, x.2)
    ws.map (sharedWrite d.fresh cands)

/-- A local copy or fill: all its bytes move (09 R275, R277, R278); what goes to a CD out of reach is lost, with POISON
(18 R544). -/
def moveLocal (d : Dev) (id : MoveId) (m : Move) (e : Desc) (ps : List Piece) (ecc : List (Nat × EccFound)) : Dev :=
  let d := readLines d ecc (ps.filterMap fun p => p.src.map (· / 64))
  let ws := copyWrites d m e ps
  let bad := (ps.any fun p => (pieceBytes d m e p).2) || ws.any fun w => deadTo d (moveCd m) w.line
  let d := writeLines { d with fresh := d.fresh + 1 } (ws.filter fun w => !deadTo d (moveCd m) w.line)
  updMove d id fun m => { m with phase := .moved, status := m.status ||| (if bad then stPoison else 0) }

/-- A local reduction: its elements become reduce-writes (09 R276). -/
def moveReduce (d : Dev) (id : MoveId) (m : Move) (e : Desc) (ps : List Piece) (ecc : List (Nat × EccFound)) : Dev :=
  let d := readLines d ecc (ps.filterMap fun p => p.src.map (· / 64))
  let n := redSize e.red
  let es := ps.flatMap fun p =>
    match p.dst with
    | none => []
    | some a =>
      let b := pieceBytes d m e p
      (enumFrom 0 (chunksOf n (b.1.length / n + 1) b.1)).map fun x => (a + x.1 * n, x.2, b.2)
  addElements (updMove d id fun m => { m with phase := .moving }) (.move id) e.red es

/-- The geometry payload of a remote side (14 R428). -/
def geometryBytes (va : Nat) (m : Move) (ys zs : Word64) : List Byte :=
  leBytes 8 va ++ leBytes 8 (dw m 2).toNat ++ leBytes 8 ys.toNat ++ leBytes 8 zs.toNat

/-- A row cut at remote addresses that are multiples of n (14 R423): remote address and length. -/
def cutAt : Nat → Nat → Nat → Nat → List (Nat × Nat)
  | 0, _, _, _ => []
  | k + 1, n, va, len =>
    if len = 0 then [] else
    let m := min len (n - va % n)
    (va, m) :: cutAt k n (va + m) (len - m)

/-- The messages of a move to a remote destination (14 R423, R428; 09 R281): a CHECK where there is more than one, the
writes or reduce-writes, and the update of `rgong`. -/
def writeMsgs (d : Dev) (ch idx : Nat) (id : MoveId) (m : Move) (e : Desc) (ps : List Piece) : List TxRec :=
  let n := mtuOf d ch
  let v := convoyOf d ch idx
  let base := { control ch idx v.peer 0x02 0 0 0 with cls := m.cls }
  let srcs := ps.map fun p => (p.src.getD 0, p.n)
  let rows := (rowStarts e e.dst e.dys e.dzs 0).flatMap fun r => cutAt (e.xlen / n + 2) n r.toNat e.xlen
  let starts := rows.foldl (fun (a : List (Nat × Nat × Nat) × Nat) r => (a.1 ++ [(r.1, r.2, a.2)], a.2 + r.2)) ([], 0)
  let data := starts.1.map fun r =>
    let msg := { base with typ := if e.red = 0 then 0x02 else 0x05, w2 := BitVec.ofNat 64 (r.1 % vaMod + (if e.red = 0 then 0 else e.red * 2 ^ 57)) }
    if m.fill then
      let row := r.2.2 / e.xlen
      let at_ : Int := (e.dst : Int) + ((row % e.ny : Nat) : Int) * e.dys + ((row / e.ny : Nat) : Int) * e.dzs + ((r.2.2 % e.xlen : Nat) : Int)
      { msg := { msg with data := fillBytes m e at_ r.2.1 }, owner := .move id, src := [] : TxRec }
    else { msg := { msg with data := List.replicate r.2.1 0 }, owner := .move id, src := rangeAt srcs r.2.2 r.2.1 }
  let data := (enumFrom 0 data).map fun x => if x.1 + 1 = data.length then { x.2 with msg := { x.2.msg with last := true } } else x.2
  let check : TxRec := { msg := { base with typ := 0x08, w2 := BitVec.ofNat 64 (id.id % 2 ^ 32), data := geometryBytes e.dst m (dw m 5) (dw m 6) }, owner := .move id, src := [] }
  let gong : TxRec := { msg := { base with typ := 0x06, last := true, w2 := BitVec.ofNat 64 e.rgong, w3 := 1 }, owner := .move id, src := [] }
  (if data.length ≤ 1 then [] else [check]) ++ data ++ (if e.rgv then [gong] else [])

/-- The one message of a move from a remote source (14 R428, R430). -/
def readMsg (d : Dev) (ch idx : Nat) (id : MoveId) (m : Move) (e : Desc) (ps : List Piece) : TxRec :=
  let total := e.xlen * e.ny * e.nz
  let v := convoyOf d ch idx
  { msg := { control ch idx v.peer 0x03 0 (BitVec.ofNat 64 (id.id % 2 ^ 32)) 0 with
      cls := m.cls, last := true, data := geometryBytes e.src m (dw m 3) (dw m 4) },
    owner := .move id, src := ps.map fun p => (p.dst.getD 0, p.n), left := total,
    resv := ceilDiv total 64 + ceilDiv total (mtuOf d ch) }

/-- A move with a remote side goes to its convoy (09 R274; 14 R423, R428). -/
def moveRemote (d : Dev) (id : MoveId) (m : Move) (e : Desc) (ps : List Piece) : Dev :=
  let ch := e.convoy / 8192
  let idx := e.convoy % 8192
  let v := convoyOf d ch idx
  if idx = 0 ∨ (v.st ≠ .open_ ∧ v.st ≠ .opening) ∨ chanPart d ch ≠ m.part then
    endMove d id stLink (if e.dsp = 2 then 1 else 0) none
  else
    let rs := if e.dsp = 2 then writeMsgs d ch idx id m e ps else [readMsg d ch idx id m e ps]
    let bytes := if e.dsp = 2 then 0 else e.xlen * e.ny * e.nz
    enqueueTx (updMove d id fun m => { m with phase := .moving, msgs := rs.length, bytes := bytes }) ch idx rs

/-- The check of a move's local gong (09 R634): right; a failure with its status; or a wait (none). -/
def moveGong (d : Dev) (sel : TlbSel) (m : Move) (e : Desc) : Dev × Option Nat :=
  if !e.gv then (d, some 0)
  else if !cdFitted d.variant (gongCd e.gong) then (d, some stAbsent)
  else match gongRight d sel m.space e.gong with
    | (d, .ok _) => (d, some 0)
    | (d, .cause _ st) => (d, some st)
    | (d, .wait) => (d, none)

/-- A drover checks every byte of a move whose descriptor it has read, before any moves, and then moves them, hands their
reductions to their homes, or gives the move's messages to its convoy (09 R272 to R277, R634). -/
def execDrvMoveStart (drover id : Nat) (ecc : List (Nat × EccFound)) (s : State) : Out := act s fun d =>
  let mid : MoveId := ⟨drover, id⟩
  match moveOf d mid with
  | none => d
  | some m =>
    if m.phase ≠ .read then d else
    let e := descOf m
    let sel := moveSel drover m
    let remote := e.dsp == 2 || (!m.fill && e.ssp == 2)
    match moveGong d sel m e with
    | (_, none) => d
    | (d, some gst) =>
      let ok := fun (d : Dev) => updMove d mid fun m => { m with gongOk := e.gv && gst == 0 }
      if !descOk m then endMove (ok d) mid stIllegal 0 none
      else if gst ≠ 0 then endMove d mid gst 1 (some (gongWindow + 64 * e.gong))
      else if remote ∧ 48 ≤ e.convoy / 8192 then endMove (ok d) mid stAbsent (if e.dsp = 2 then 1 else 0) none
      else match checkPieces d sel m e (movePieces m e) [] with
        | (_, .inl none) => d
        | (d, .inl (some (st, side, va))) => endMove (ok d) mid st side (some va)
        | (d, .inr ps) =>
          let d := updMove (ok d) mid fun m => { m with touch := pieceUnits d ps }
          if remote then moveRemote d mid m e ps
          else if e.red = 0 then moveLocal d mid m e ps ecc
          else moveReduce d mid m e ps ecc

/-! Completion. -/

/-- The failures of a move that set `f_fault` (09 R301). -/
def moveFault (m : Move) : Bool :=
  stHas m.status (stIllegal + stXlat + stAbsent + stState + stNoatomic + stLink) || (m.words == [] && stHas m.status stPoison)

/-- The bytes that a move moved. -/
def moveBytes (m : Move) (e : Desc) : Nat :=
  if moveFault m then 0 else ((movePieces m e).map fun p => p.2.2).foldl (· + ·) 0

/-- A move completes (09 R280, R281, R301): its status, its flags and fault record, its local gong. -/
def execDrvMoveComplete (drover id : Nat) (s : State) : Out := act s fun d =>
  let mid : MoveId := ⟨drover, id⟩
  match moveOf d mid with
  | none => d
  | some m =>
    if m.phase ≠ .moved then d else
    let d := accumulate d m.queue m.status
    let fl := drvOff drover 1
    let first := !flag d fl 0
    let d := flagIf (m.words != [] && stHas m.status stPoison) d fl 1
    let d := if !moveFault m then d else
      let d := setFlag d fl 0
      if !first then d else
      let d := setReg d (drvOff drover 2) (BitVec.ofNat 32 (drvCode m.status + m.side * 8 + m.queue * 16))
      match m.va with
      | some a => setVaRegs d (drvOff drover 3) a
      | none => d
    let x := droverOf d drover
    let d := setDrover d drover { x with moves := x.moves.filter fun v => v.id != id }
    let e := descOf m
    let d := trace d (drover / 1024) 0x0D (drover % 1024) 4 (some m.part) (some m.cls)
      (m.queue + (if m.status = 0 then 0 else drvCode m.status) * 2 ^ 12) (moveBytes m e)
    let who := if m.tile.isNone then Who.queue m.queue else .drover
    if m.gongOk then sendUpdate d ⟨e.gong, .add, 1, 2 + e.scope, who, 0⟩ else d

end Sys2Proof.Machine
end

