-- ==== Sys2Proof/Machine/Gong.lean ====
section
/-! DEFINITION. Gong operations, waits, host accesses to gong space, chime messages, fences of streams (09 R282 to R296;
11 R354 to R356). -/

namespace Sys2Proof.Machine

open Parts

/-- The gong, operand and poison of a thread's gong operation (09 R286). -/
def gongArgs (k : Ctx) : Nat × Word64 × Bool :=
  let us := fld k.w 6 2
  let gu := bit k.w 1
  let uses := gu || wExt k.w == 0
  (if gu then fld (ureg k.g us) 16 0 else fld k.w 23 7,
    if wExt k.w = 1 then k.imms.headD 0 else ureg k.g us, uses && upoison k.g us)

/-- The function of a word's `fn` (09 R287). -/
def gongFn (w : Word64) : GongFn :=
  match fld w 49 46 with
  | 0 => .add
  | 1 => .set
  | 2 => .max
  | 3 => .arm (fld w 36 24)
  | _ => .disarm

/-- An update handed to a convoy (09 R292). A disarm goes with the reserved code, which a receiver rejects (14 R422; log
entry 57). -/
def convoyUpdate (d : Dev) (convoy cls : Nat) (u : GongUpd) : Dev :=
  let ch := convoy / 8192
  let idx := convoy % 8192
  let v := convoyOf d ch idx
  let code := match u.fn with
    | .add => 0
    | .set => 1
    | .max => 2
    | _ => 3
  let msg := { control ch idx v.peer 0x06 0 (BitVec.ofNat 64 (u.gong + code * 2 ^ 17)) u.operand with cls := cls, last := true }
  let d := { d with gg := { d.gg with cv := d.gg.cv ++ [⟨convoy, u, none⟩] } }
  enqueueTx d ch idx [{ msg := msg, owner := .gong u, src := [] }]

/-- What becomes of a gong operation before it acts (09 R285; 00 R13): it may; a status that ends it without effect; a
fault; or a wait for its translation. -/
inductive GongGo where
  | go
  | ends (st : Nat)
  | fault (st va : Nat)
  | wait

/-- The checks of a gong operation on gong g. -/
def gongCheck (d : Dev) (sel : TlbSel) (sp : Space) (g : Nat) : Dev × GongGo :=
  if !cdFitted d.variant (gongCd g) then (d, .ends stAbsent)
  else match gongRight d sel sp g with
    | (d, .ok _) => (d, .go)
    | (d, .cause _ st) => (d, .fault st (gongWindow + 64 * g))
    | (d, .wait) => (d, .wait)

/-- The checks of an update that a convoy carries (00 R13; 09 R274, R292): the gong is checked at the peer. -/
def convoyCheck (d : Dev) (part convoy : Nat) : GongGo :=
  if 48 ≤ convoy / 8192 then .ends stAbsent
  else if chanPart d (convoy / 8192) ≠ part then .ends stLink
  else .go

/-- The checks of an update by its word: at its own gong unit, or on its convoy. -/
def updateCheck (d : Dev) (sel : TlbSel) (sp : Space) (part g : Nat) (w : Word64) : Dev × GongGo :=
  if bit w 43 then (d, convoyCheck d part (fld w 42 24)) else gongCheck d sel sp g

/-- An update that passed its checks is on its way. -/
def launchUpdate (d : Dev) (w : Word64) (cls : Nat) (u : GongUpd) : Dev :=
  if bit w 43 then convoyUpdate d (fld w 42 24) cls u else sendUpdate d u

/-- Is an operation a gong update of a function? -/
def selGong (fn : Nat) : Op → Bool
  | .gong f => f == fn
  | _ => false

/-- Is an operation a gong wait of a kind? -/
def selWait (eq : Bool) : Op → Bool
  | .gwait e => e == eq
  | _ => false

/-- A gong update by a thread (09 R285 to R287). -/
def gongThread (fn : Nat) (p : PathRef) (d : Dev) : Dev :=
  issueLeader p (selGong fn) d fun d k _ =>
    let (g, v, pois) := gongArgs k
    if pois then some (faultAt d k (leader k.p) stPoison none)
    else match updateCheck d (.tile k.c k.t) k.b.space k.b.part g k.w with
      | (_, .wait) => none
      | (d, .fault st va) => some (faultAt d k (leader k.p) st (some va))
      | (d, .ends st) => some (raiseStatus d k.c k.t k.b.id st)
      | (d, .go) =>
        some (launchUpdate d k.w k.b.cls ⟨g, gongFn k.w, v, fld k.w 45 44, .path k.c k.t k.slot k.p.lanes.toNat, k.x.ord⟩)

/-- The order of a queue's next update among those of the queue under way. -/
def streamOrd (d : Dev) (q : Nat) : Nat :=
  ((d.gg.upd ++ d.gg.cv.map (·.upd)).filter fun u => u.who == .queue q).foldl (fun n u => max n (u.ord + 1)) 0

/-- Has a queue an update under way that has not reached its gong unit? -/
def postedUpdates (d : Dev) (q : Nat) : Bool := d.gg.upd.any fun u => u.who == .queue q

/-- A gong update by a stream (09 R285 to R287): a status goes to the queue's accumulator. -/
def gongStream (fn q : Nat) (d : Dev) : Dev :=
  issueStream q (selGong fn) d fun d _ w imms n =>
    let g := fld w 23 7
    match updateCheck d (.stream (queueCd q)) (queueSpace d q) (qPart d q) g w with
    | (_, .wait) => d
    | (d, .fault st _) => retireWith d q n st
    | (d, .ends st) => retireWith d q n st
    | (d, .go) => retireInstr (launchUpdate d w (qClass d q) ⟨g, gongFn w, imms.headD 0, fld w 45 44, .queue q, streamOrd d q⟩) q n

/-- A gong update by its issuer. -/
def gongUpdate (fn : Nat) (src : Issuer) (s : State) : Out := act s fun d =>
  match src with
  | .stream q => gongStream fn q d
  | .thread p => gongThread fn p d

/-- `gong.add` (09 R287). -/
def execGongAdd (src : Issuer) (s : State) : Out := gongUpdate 0 src s
/-- `gong.set` (09 R287). -/
def execGongSet (src : Issuer) (s : State) : Out := gongUpdate 1 src s
/-- `gong.max` (09 R287). -/
def execGongMax (src : Issuer) (s : State) : Out := gongUpdate 2 src s
/-- `gong.arm` (09 R287). -/
def execGongArm (src : Issuer) (s : State) : Out := gongUpdate 3 src s
/-- `gong.disarm` (09 R287). -/
def execGongDisarm (src : Issuer) (s : State) : Out := gongUpdate 4 src s

/-- A wait sent to its gong unit. -/
def sendWait (d : Dev) (w : Waiter) : Dev := { d with gg := { d.gg with wait := d.gg.wait ++ [w] } }

/-- A gong wait by a thread (09 R289, R290). -/
def waitThread (eq : Bool) (p : PathRef) (d : Dev) : Dev :=
  issueLeader p (selWait eq) d fun d k _ =>
    let (g, v, pois) := gongArgs k
    if pois then some (faultAt d k (leader k.p) stPoison none)
    else match gongCheck d (.tile k.c k.t) k.b.space g with
      | (_, .wait) => none
      | (d, .fault st va) => some (faultAt d k (leader k.p) st (some va))
      | (d, .ends st) => some (raiseStatus d k.c k.t k.b.id st)
      | (d, .go) =>
        let d := updPath d k fun q => { q with st := .gong }
        some (sendWait d ⟨g, eq, v, fld k.w 45 44, .path k.c k.t k.slot k.p.lanes.toNat, false, .none, (reg64 d hdPcntOff).toNat, k.pc⟩)

/-- A gong wait by a stream (02 R38, R40; 09 R289). -/
def waitStream (eq : Bool) (q : Nat) (d : Dev) : Dev :=
  issueStream q (selWait eq) d fun d _ w imms n =>
    let g := fld w 23 7
    match gongCheck d (.stream (queueCd q)) (queueSpace d q) g with
    | (_, .wait) => d
    | (d, .fault st _) => retireWith d q n st
    | (d, .ends st) => retireWith d q n st
    | (d, .go) =>
      let d := setQueue d q { queueOf d q with state := .wait, wait := .gong }
      sendWait d ⟨g, eq, imms.headD 0, fld w 45 44, .queue q, false, .none, (reg64 d hdPcntOff).toNat, 0⟩

/-- `gong.wait.ge` (09 R287). -/
def execGongWaitGe (src : Issuer) (s : State) : Out := act s fun d =>
  match src with
  | .stream q => waitStream false q d
  | .thread p => waitThread false p d

/-- `gong.wait.eq` (09 R287). -/
def execGongWaitEq (src : Issuer) (s : State) : Out := act s fun d =>
  match src with
  | .stream q => waitStream true q d
  | .thread p => waitThread true p d

/-- Is CD k out of reach for the issuer of a gong operation (18 R544)? -/
def whoDead (d : Dev) (w : Who) (k : Nat) : Bool :=
  match w with
  | .queue q => cdDead d (queueCd q) k
  | .path c _ _ _ => cdDead d c k
  | _ => d.mem.lost.contains k

/-- A status raised by a gong operation. -/
def whoStatus (d : Dev) (w : Who) (st : Nat) : Dev :=
  match w with
  | .queue q => accumulate d q st
  | .path c t slot _ =>
    match blockAt d c t slot with
    | some b => raiseStatus d c t b st
    | none => d
  | _ => d

/-- A wait on a gong of a die declared down ends (18 R546): the block faults with POISON, the queue goes to HELD. -/
def poisonWait (d : Dev) (w : Waiter) : Dev :=
  let d := retryWaits (dropWait d w)
  match w.who with
  | .queue q => holdQueue d q 3
  | .path c t slot lanes =>
    match groupAt (tileOf d c t) slot with
    | some g => blockFault d c t g.blk slot (lowestBit (BitVec.ofNat 32 lanes)) w.pc stPoison none
    | none => d
  | _ => d

/-- The gong unit performs the update that stands at a place among those under way, once what it releases has been
performed (09 R287 to R289; 11 R350, R352). -/
def execGongUpdatePerformed (i : Nat) (s : State) : Out := act s fun d =>
  match d.gg.upd[i]? with
  | none => d
  | some u =>
    if !updReady d u then d
    else if whoDead d u.who (gongCd u.gong) then
      whoStatus { d with gg := { d.gg with upd := d.gg.upd.eraseIdx i } } u.who stPoison
    else settleChimes (performUpdate { d with gg := { d.gg with upd := d.gg.upd.eraseIdx i } } u.gong u.fn u.operand
      (u.who == .peer) (some u))

/-- Is an update that a wait's issuer sent to the same gong unit before it still under way (04 R126)? -/
def updateAhead (d : Dev) (w : Waiter) : Bool :=
  d.gg.upd.any fun u => gongCd u.gong == gongCd w.gong && (match w.who, u.who with
    | .path c t slot lanes, .path c' t' slot' lanes' =>
      c == c' && t == t' && slot == slot' && BitVec.ofNat 32 lanes &&& BitVec.ofNat 32 lanes' != 0
    | .queue q, .queue q' => q == q'
    | _, _ => false)

/-- The wait that stands at a place among the waits reaches its gong unit (09 R288, R290), after what its issuer sent there before
it. -/
def execGongWaitArrival (i : Nat) (s : State) : Out := act s fun d =>
  match d.gg.wait[i]? with
  | none => d
  | some w =>
    if w.arrived || updateAhead d w then d
    else if whoDead d w.who (gongCd w.gong) then poisonWait d w
    else arriveWait d w

/-! Host accesses to gong space. -/

/-- The gong and operation of an aligned 64-bit host access to gong space (09 R283); none for any other access. -/
def gongAddr (addr bytes : Nat) : Option (Nat × Nat) :=
  if bytes = 8 ∧ addr % 8 = 0 ∧ gongSpace ≤ addr ∧ addr < gongSpace + 2 ^ 23 then
    some (addr / 64 % 2 ^ 17, addr / 8 % 8) else none

/-- A host store of an operation to gong space (09 R283, R284): an update at system scope; any other access is ignored. `after` names the
core after whose cache-block operations a FENCE orders the store (11 R358). -/
def hostGong (op : Nat) (fn : GongFn) (addr bytes : Nat) (v : Word64) (after : Option Nat) (d : Dev) : Dev :=
  if heldByCbo d after then d else
  match gongAddr addr bytes with
  | some (g, o) => if o = op ∧ cdFitted d.variant (gongCd g) then sendUpdate d ⟨g, fn, v, 3, .host, 0⟩ else d
  | none => d

/-- A host store to the value operation. -/
def execHostGongStoreSet (addr bytes : Nat) (v : Word64) (after : Option Nat) (s : State) : Out := act s fun d =>
  hostGong 0 .set addr bytes v after d
/-- A host store to the add operation. -/
def execHostGongStoreAdd (addr bytes : Nat) (v : Word64) (after : Option Nat) (s : State) : Out := act s fun d =>
  hostGong 1 .add addr bytes v after d
/-- A host store to the max operation. -/
def execHostGongStoreMax (addr bytes : Nat) (v : Word64) (after : Option Nat) (s : State) : Out := act s fun d =>
  hostGong 2 .max addr bytes v after d

/-- A host load from gong space (09 R283): the value, from any of the three operations; any other access reads zero. One that a FENCE orders
after cache-block operations waits for them (11 R358). -/
def execHostGongLoad (core addr bytes : Nat) (fenced : Bool) (s : State) : Out := act s fun d =>
  if fenced && cboOpen d core then d else
  let v := match gongAddr addr bytes with
    | some (g, o) => if o ≤ 2 ∧ cdFitted d.variant (gongCd g) then (gongOf d g).value.toNat else 0
    | none => 0
  hostSees d (.value core v false)

/-- Is a core's firmware being updated (18 R558)? -/
def coreUpdating (d : Dev) (core : Nat) : Bool :=
  match d.sv.run with
  | some r => r.op == .core && r.target == core
  | none => false

/-- The message of a raised chime is written to its hart's interrupt file (09 R295, R296): the one that stands at a place
among those due. One written to a core during its update is lost (18 R558). -/
def execChimeMessageWrite (i : Nat) (s : State) : Out := act s fun d =>
  match d.gg.chimeDue[i]? with
  | none => d
  | some m =>
    let out := if coreUpdating d m.hart then d.gg.chimeOut else d.gg.chimeOut ++ [m]
    { d with gg := { d.gg with chimeDue := d.gg.chimeDue.eraseIdx i, chimeOut := out } }

/-! Fences. -/

/-- Is an operation a fence of a scope? -/
def selFence (scope : Nat) : Op → Bool
  | .fence f => f == scope
  | _ => false

/-- A fence of a stream: it waits (11 R356). -/
def fenceStream (scope q : Nat) (d : Dev) : Dev :=
  issueStream q (selFence scope) d fun d _ _ _ _ =>
    setQueue d q { queueOf d q with wait := .fence, fenceSys := scope == 3 }

/-- `fence.g` (11 R355). -/
def execFenceG (p : PathRef) (s : State) : Out := act s fun d => fenceThread 0 p d
/-- `fence.b` (11 R355). -/
def execFenceB (p : PathRef) (s : State) : Out := act s fun d => fenceThread 1 p d
/-- `fence.d` (11 R355, R356). -/
def execFenceD (src : Issuer) (s : State) : Out := act s fun d =>
  match src with
  | .stream q => fenceStream 2 q d
  | .thread p => fenceThread 2 p d
/-- `fence.s` (11 R355, R356). -/
def execFenceS (src : Issuer) (s : State) : Out := act s fun d =>
  match src with
  | .stream q => fenceStream 3 q d
  | .thread p => fenceThread 3 p d

/-- Is everything done that a fence of a queue waits for (11 R356)? -/
def streamFenceDone (d : Dev) (q : Nat) : Bool :=
  (droverOf d (streamDrover (queueCd q))).moves.all (fun m => m.queue != q) &&
    d.gg.upd.all (fun u => u.who != .queue q) &&
    (!(queueOf d q).fenceSys || d.gg.cv.all fun c => c.upd.who != .queue q)

/-- A stream fence retires (11 R356). -/
def execStreamFenceRetire (q : Nat) (s : State) : Out := act s fun d =>
  if (queueOf d q).wait == .fence && (queueOf d q).state == .run && streamFenceDone d q then retireInstr d q 1 else d

end Sys2Proof.Machine
end

