-- ==== Sys2Proof/Machine/Stream.lean ====
section
/-! DEFINITION. Streams (02 R37 to R54; 03 R66 to R80; 09 R297 to R299): reading records, the control class, launches, queue
actions, doorbells. -/

namespace Sys2Proof.Machine

open Parts

/-! Records. -/

/-- The lines of the record that a queue reads next. -/
def recordLines (d : Dev) (q : Nat) : List Nat :=
  let x := queueOf d q
  let n := fld ((lineWords (lineAt d (ringLine d q x.line)).1).headD 0) 5 0 + 1
  (upto n).map fun i => ringLine d q (x.line + i)

/-- Has a queue a record to read and none in hand (03 R70)? -/
def wantsRecord (x : Queue) : Bool := x.state == .run && x.words == [] && x.fetched != x.count

/-- A read of the next record of a queue, with `reads` reads of it found unsealed so far (03 R68, R72). -/
def readNext (q reads : Nat) (d : Dev) : Dev :=
  let d := fillLines d (recordLines d q)
  let (ws, pois) := readRecord d q (queueOf d q).line
  if sealed ws pois (((queueOf d q).fetched + 1) % 0x10000) then
    let d := takeRecord d q ws
    if reads = 0 then d else setFlag d (qOff q 5) 22
  else if reads = 8 then holdQueue (setQueue d q { queueOf d q with reads := 0 }) q (if pois then 3 else 2)
  else setQueue d q { queueOf d q with reads := reads + 1 }

/-- A fetched record returns for the first time; `noToken` tells that its queue, one of class P, found no token at the dispatcher or on the
way (16 R488). -/
def execRecordRead (q : Nat) (noToken : Bool) (s : State) : Out := act s fun d =>
  let x := queueOf d q
  if wantsRecord x && x.reads == 0 then readNext q 0 (flagIf (noToken && qClass d q == 0) d (arbOff (queueCd q)) 0) else d

/-- A re-read of an unsealed record returns. -/
def execRecordReread (q : Nat) (s : State) : Out := act s fun d =>
  let x := queueOf d q
  if wantsRecord x && x.reads != 0 then readNext q x.reads d else d

/-! The control class. -/

/-- `ctl.nop` (04 R117). -/
def execCtlNop (q : Nat) (s : State) : Out := act s fun d =>
  issueStream q (· == .ctlNop) d fun d _ _ _ n => retireInstr d q n

/-- The bytes of a completion record (09 R298). -/
def completionBytes (d : Dev) (q scope : Nat) : List Byte :=
  let x := queueOf d q
  leBytes 8 (x.gen + q * 2 ^ 16 + scope * 2 ^ 28 + x.accum * 2 ^ 32) ++ leBytes 8 (x.seq + 1) ++
    leBytes 8 (reg64 d (regOff (queueCd q) 0x1A 0 2)).toNat ++ leBytes 8 0

/-- May a completion record be written at a physical address (09 R297; 02 R50, R61)? -/
def recordTarget (d : Dev) (q pa : Nat) : Bool :=
  match paKind d pa with
  | .far _ _ => paCheck d (qPart d q) pa == 0
  | .scratch _ _ => paCheck d (qPart d q) pa == 0
  | _ => false

/-- `ctl.complete` (09 R297 to R299): the record is written, the accumulator cleared, and a chime may be raised. -/
def execCtlComplete (q : Nat) (s : State) : Out := act s fun d =>
  issueStream q (· == .ctlComplete) d fun d _ w imms n =>
    let va := (imms.headD 0).toNat
    if va % 32 ≠ 0 then refuseState d q n else
    match translate d (.stream (queueCd q)) (queueSpace d q) (va % vaMod) .write with
    | (_, .wait) => d
    | (d, .cause _ _) => refuseState d q n
    | (d, .ok pa) =>
      if !recordTarget d q pa then refuseState d q n else
      let d := writeAt d pa (completionBytes d q (fld w 42 42)) false
      let x := queueOf d q
      let d := setQueue d q { x with accum := 0, seq := x.seq + 1 }
      let d := if bit w 0 then raiseChime d q else d
      retireInstr d q n

/-- `cfg.fence` (02 R38, R40): the queue waits for its writes. -/
def execCfgFence (q : Nat) (s : State) : Out := act s fun d =>
  issueStream q (· == .cfgFence) d fun d _ _ _ _ =>
    setQueue d q { queueOf d q with state := .wait, wait := .cfgFence }

/-- Has a `cfg.set` write been applied, and its command bits read 0 again (02 R38)? A write of WELL.SPLIT counts as applied
once its target is reached (10 R317). -/
def cfgApplied (d : Dev) (c : CfgWrite) : Bool :=
  (regBuf d c.off).mask &&& c.mask == 0 && regVal d c.off &&& c.mask &&& cmdBits c.off == 0 &&
    !(offUnit c.off == 0x11 && offReg c.off == 0 && (wellOf d (offDie c.off)).announce)

/-- A waiting `cfg.fence` retires (02 R40). -/
def execCfgFenceRetire (q : Nat) (s : State) : Out := act s fun d =>
  let x := queueOf d q
  if x.wait == .cfgFence && x.state == .wait && x.cfg.all (cfgApplied d) then retireInstr (setQueue d q { x with cfg := [] }) q 1 else d

/-- The blocks of a launch whose tiles are all the tiles that FIXED placement names. -/
def namedTiles (l : Launch) : List Nat := (upto (min l.blocks 180)).map (fixedTile l)

/-- The launch that `blk.launch` describes (02 R41, R53; 04 R118). -/
def launchOf (d : Dev) (q : Nat) (w : Word64) (imms : List Word64) : Launch :=
  { id := (dispOf d (queueCd q)).nextLaunch, prog := (imms.headD 0).toNat, groups := fld w 47 45 + 1, blocks := fld w 23 0 + 1,
    arg := listGet 0 imms 1, gong := fld (listGet 0 imms 2) 16 0, fixed := bit w 44, first := fld w 43 36,
    stride := fld w 35 28, cls := workClass d q (bit w 27) (fld w 26 25), next := 0, ahead := [] }

/-- May a FIXED launch name a tile (02 R43; 18 R553)? -/
def mayName (d : Dev) (q t : Nat) : Bool :=
  tilePart d (queueCd q) t == qPart d q && !tileRetired d (queueCd q) t

/-- `blk.launch` (02 R41 to R43; 00 R13; 17 R529): the launch starts to place its blocks, once the updates that its queue posted
have been performed, which it releases at device scope (11 R353). -/
def execBlkLaunch (q : Nat) (s : State) : Out := act s fun d =>
  issueStream q (· == .launch) d fun d _ w imms n =>
    if holdsNew d || postedUpdates d q then d else
    let l := launchOf d q w imms
    if !cdFitted d.variant (gongCd l.gong) then retireWith d q n stAbsent
    else if l.fixed && !(namedTiles l).all (mayName d q) then refuseState d q n
    else
      let p := dispOf d (queueCd q)
      let d := setDisp d (queueCd q) { p with nextLaunch := p.nextLaunch + 1 }
      setQueue d q { queueOf d q with wait := .launch, launch := some l }

/-- A reserved or malformed encoding is met (03 R69, R76; 04 R109, R119). -/
def execReservedOpcode (src : Issuer) (s : State) : Out := act s fun d =>
  match src with
  | .thread p => issueBad p d
  | .stream q => if canStart d q && (streamWord (queueOf d q)).isNone then holdQueue d q 4 else d

/-! Doorbells and actions. -/

/-- A write of Q.DOORBELL through the register window (03 R70, R71, R97). `after` names the core after whose cache-block operations a
FENCE orders the write (11 R358, R359): it waits for them. -/
def execQDoorbell (q count : Nat) (after : Option Nat) (s : State) : Out := act s fun d =>
  if heldByCbo d after then d else if cdFitted d.variant (queueCd q) then doorbell d q .window (count % 0x10000) else d

/-- May Q.ACTION be applied (03 R80): at an instruction start, or at once in EMPTY, WAIT, HELD and PAUSED? -/
def actionReady (x : Queue) : Bool :=
  match x.state with
  | .disabled => false
  | .run => x.wait == .none
  | _ => true

/-- Does bit i of Q.ACTION wait? -/
def actionBit (d : Dev) (q i : Nat) : Bool := bit (regBuf d (qOff q 6)).mask i && bit (regBuf d (qOff q 6)).value i

/-- The actions of a management write come to Q.ACTION when they may be applied (18 R561). -/
def readyAction (d : Dev) (q : Nat) : Dev := if actionReady (queueOf d q) then loadCmd d (qOff q 6) else d

/-- Takes `line` and some action bits of Q.ACTION out of its buffer: the bits read 0 once applied (03 R80, R84, R100). -/
def takeAction (d : Dev) (q : Nat) (bits : Word32) : Dev :=
  let d := applyField d (qOff q 6) (bits ||| 0xFFFF0000)
  setReg d (qOff q 6) (regRaw d (qOff q 6) &&& ~~~ (15 : Word32))

/-- A queue that has something to do goes to RUN, one that has not to EMPTY; while its dispatcher is not in RUN it shows
PAUSED (03, queue states). -/
def wakeQueue (d : Dev) (q : Nat) : Dev :=
  let x := queueOf d q
  let st : QState := if x.words != [] || x.fetched != x.count then .run else .empty
  if (dispOf d (queueCd q)).state = 0 then setQueue (if st = .run then workArrives d else d) q { x with state := st }
  else setQueue d q { x with state := .paused, before := st }

/-- Q.ACTION `flush` (03 R80). -/
def execQFlush (q : Nat) (s : State) : Out := act s fun d =>
  let d := readyAction d q
  if !actionReady (queueOf d q) || !actionBit d q 3 then d else
  let d := takeAction d q 8
  let x := queueOf d q
  let d := dropWaits d q
  let d := setQueue d q { x with
    fetched := x.count, retired := x.count, gen := x.count, words := [], pos := 0, reads := 0, wait := .none, launch := none
    line := regFld d (qOff q 6) 31 16 }
  wakeQueue d q

/-- Q.ACTION `hold` (03 R80); a `resume` or `skip` of the same write is dropped. -/
def execQHold (q : Nat) (s : State) : Out := act s fun d =>
  let d := readyAction d q
  if !actionReady (queueOf d q) || actionBit d q 3 || !actionBit d q 2 then d
  else holdQueue (takeAction d q 7) q 5

/-- Is a queue HELD, or was it when its dispatcher paused? -/
def heldNow (x : Queue) : Bool := x.state == .held || (x.state == .paused && x.before == .held)

/-- A HELD queue goes on; after TORN or POISON the record is read again with a fresh count (03 R80): the next read is a first
read, which may be followed by 8 re-reads and sets no `f_retry` (DESIGN CHOICE, log entry 64). -/
def resumeQueue (d : Dev) (q : Nat) : Dev :=
  let x := queueOf d q
  if heldNow x then wakeQueue (setQueue d q { x with reads := 0 }) q else d

/-- Q.ACTION `resume` (03 R80). -/
def execQResume (q : Nat) (s : State) : Out := act s fun d =>
  let d := readyAction d q
  if !actionReady (queueOf d q) || actionBit d q 3 || actionBit d q 2 || !actionBit d q 0 then d
  else resumeQueue (takeAction d q 1) q

/-- Q.ACTION `skip` (03 R80): a STATE or ILLEGAL refused instruction retires without effect. -/
def execQSkip (q : Nat) (s : State) : Out := act s fun d =>
  let d := readyAction d q
  if !actionReady (queueOf d q) || actionBit d q 3 || actionBit d q 2 || !actionBit d q 1 then d else
  let d := takeAction d q 2
  let x := queueOf d q
  if heldNow x ∧ (x.reason = 1 ∨ x.reason = 4) ∧ x.words ≠ [] then
    let d := setQueue d q { x with state := .run }
    wakeQueue (retireInstr d q (1 + wExt (listGet 0 x.words x.pos))) q
  else resumeQueue d q

end Sys2Proof.Machine
end

