-- ==== Sys2Proof/Machine/Boundary.lean ====
section
/-! DEFINITION. Natural boundaries (02 R47 to R58; 03 R84 to R96; 18 R560, R561): buffered writes and management writes are
applied, with what follows from them. -/

namespace Sys2Proof.Machine

open Parts

/-- A whole register. -/
def allBits : Word32 := BitVec.allOnes 32

/-! What follows from a change of an applied value. -/

/-- A channel's transport mode passes to its convoys (02 R60). -/
def convoysMode (d : Dev) (ch : Nat) : Dev :=
  let x := chanOf d ch
  let h := chanMode d ch 2
  setChannel d ch { x with convoys := x.convoys.map fun v => (v.1, if v.2.st = .closed then v.2 else { v.2 with host := h }) }

/-- A channel that is enabled counts the records of its host request ring from 0 (14 R444). -/
def startHreq (d : Dev) (ch : Nat) : Dev := setChannel d ch { chanOf d ch with hreqTail := 0, hreqHead := 0, hreqWait := [] }

/-- The consequences of a register's new applied value: a well takes a new target (10 R317); a channel retrains (14 R420) or
changes its transport mode (02 R56); a slice that changes partition is zeroed (02 R47). `old` is the package before. -/
def settled (old d : Dev) (off : Nat) : Dev :=
  let c := offDie off
  let i := offInst off
  let changed := regVal old off ^^^ regVal d off
  if offUnit off = 0x11 ∧ offReg off = 0 then settleWell (setWell d c { wellOf d c with announce := true }) c
  else if offUnit off = 0x19 ∧ offReg off = 0 then
    (if changed &&& 0x87 = 0 then d
     else setLink (if regFld old off 0 0 = 0 ∧ regFld d off 0 0 = 1 then startHreq d i else d) i 0)
  else if offUnit off = 3 ∧ c = 4 then convoysMode d i
  else if strayCmd d off then refuseCmd d off
  else if offUnit off = 0x12 ∧ offReg off = 0 ∧ changed ≠ 0 ∧ sliceMode d c i = 1 then zeroRange d (sliceBase c i) 0x800000
  else d

/-- Applies buffered bits of one register. -/
def applyReg (d : Dev) (off : Nat) (bits : Word32) : Dev := settled d (applyBuf d off bits) off

/-- Applies the bits that `dom` names of a register whose buffer is ready. -/
def applyIn (dom : Dev → Nat → Word32) (d : Dev) (off : Nat) : Dev :=
  let bits := dom d off
  if bufReady d off && (regBuf d off).mask &&& bits != 0 then applyReg d off bits else d

/-- Has a voted field of one of these registers changed? -/
def votedDiffer (d e : Dev) (offs : List Nat) : Bool := offs.any fun o => (regVal d o ^^^ regVal e o) &&& votedBits o != 0

/-- One management write at its boundary (18 R561). -/
def mgmtApply (dom : Dev → Nat → Word32) (d : Dev) (w : MgmtWrite) : Dev :=
  let bits := dom d w.off
  if w.gen ≠ regFld d (genOff w.off) 15 0 then staleMgmt d w
  else mgmtTook d (settled d (mgmtWrite d w bits) w.off) w bits

/-- Is a management write one that a boundary takes: it names bits of `dom`, or none that it could change? One that starts a
command waits for the row that takes it. -/
def mgmtTaken (dom : Dev → Nat → Word32) (d : Dev) (inst : Nat) (w : MgmtWrite) : Bool :=
  offInstance w.off == inst && !mgmtStarts w && dom d w.off != 0 &&
    (mgmtBits w (dom d w.off) != 0 || mgmtBits w (BitVec.allOnes 32) == 0)

/-- A boundary of an instance (18 R561): buffered writes from streams and the window first, in order of offset, with one
step of the generation; then the management writes, in the order in which the waystation buffered them. -/
def boundary (d : Dev) (inst : Nat) (dom : Dev → Nat → Word32) : Dev :=
  let offs := bufferedIn d inst
  let e := offs.foldl (applyIn dom) d
  let e := if votedDiffer d e offs then bumpGen e (inst * 0x1000) else e
  (e.rg.mgmt.filter (mgmtTaken dom d inst)).foldl (mgmtApply dom) e

/-! The boundaries that have no row of their own. -/

/-- Is a reduce-write open at the homes of a CD (02 R56)? -/
def reducesOpen (d : Dev) (c : Nat) : Bool := d.reds.any fun r => match farLine? d r.line with
  | some (k, _) => k == c
  | none => false

/-- The bits of FN.MODE that apply at a boundary with no row of its own (02 R56): of a CD `xlat`, and `collective` while no
reduce-write is open at its homes; of a channel `xlat`, `spill`, `transport` and `peal`. -/
def modeBits (d : Dev) (off : Nat) : Word32 :=
  if offDie off < 4 then 1 ||| (if reducesOpen d (offDie off) then 0 else 8)
  else if offDie off = 4 then 0x107 else 0

/-- The bits of a register that BUFFERED_WRITE_APPLY may apply now. A queue, a tile, a port, the power unit, wear and the
other bits of FN.MODE have boundaries of their own; a command waits for the row that takes it, and one that no op names is
refused here; a slice waits while an access to it is open, a channel's partition while a convoy is open, HX.SATP while its space is enabled (02 R47, R48; 13 R412). -/
def genericBits (d : Dev) (off : Nat) : Word32 :=
  let u := offUnit off
  let i := offInst off
  if cmdBits off ≠ 0 ∧ cmdPending d off then (if strayCmd (applyBuf d off allBits) off ∧ cmdMayRun d off then allBits else 0)
  else if u = 1 ∨ u = 4 ∨ u = 7 ∨ u = 0x17 ∨ u = 0x1F ∨ u = 0x25 ∨ (u = 6 ∧ offReg off = 1) then 0
  else if u = 3 then modeBits d off
  else if u = 0x12 then (if sliceMode d (offDie off) i = 1 ∧ sliceOpen d (offDie off) i then 0 else allBits)
  else if u = 0x19 ∧ offReg off = 0x18 then (if (chanOf d i).convoys.any fun v => v.2.st != .closed then 0 else allBits)
  else if u = 0x18 ∧ offReg off < 2 then (if regFld d (off - 4 * offReg off + 8) 5 5 = 1 then 0 else allBits)
  else allBits

/-- A management write with an op that is none comes to its register's buffer, to be refused there. -/
def loadStray (d : Dev) (w : MgmtWrite) : Dev :=
  let e := loadCmd d w.off
  if strayCmd (applyBuf e w.off allBits) w.off ∧ cmdMayRun d w.off then e else d

/-- The natural boundary of an instance whose boundary has no row of its own (03 R84; 18 R561). -/
def execBufferedWriteApply (die unit inst : Nat) (s : State) : Out := act s fun d =>
  let i := offInstance (regOff die unit inst 0)
  boundary ((d.rg.mgmt.filter fun w => offInstance w.off == i && mgmtStarts w).foldl loadStray d) i genericBits

/-- Every 65,536 P-cycles each voted register's copies take their majority (03 R87 to R89); of the registers of `same` a
boundary application fell in the same P-cycle, and no disagreement is counted. Then the upsets named in `upsets` (register,
copy, bits) strike, which the next pass finds. -/
def execVotedScrub (same : List Nat) (upsets : List (Nat × Nat × Word32)) (s : State) : Out := act s fun d =>
  if !powered d then d else
  let d := d.rg.votes.foldl (scrubReg same) d
  upsets.foldl (fun d u => upset d u.1 u.2.1 u.2.2) d

/-! Queues. -/

/-- The bits of a queue's registers that apply now (03 R94; 13 R409): Q.BASE, `size` and QX only while the queue is
DISABLED; of Q.ACTION a `line` written without an action, unless the queue is DISABLED (03 R80). -/
def queueBits (q : Nat) (d : Dev) (off : Nat) : Word32 :=
  let off0 := (queueOf d q).state == .disabled
  if offReg off = 6 ∧ offUnit off = 1 then (if off0 || cmdPending d off then 0 else 0xFFFF0000)
  else if off0 then allBits
  else if offUnit off = 0x17 ∨ offReg off < 2 then 0
  else if offReg off = 2 then ~~~ (0x1F00 : Word32) else allBits

/-- A queue is enabled (03 R63, R94 to R96): refused with STATE where its ring is not allowed. The refusal goes into the
queue's own status accumulator and sets its `f_state` (DESIGN CHOICE, log entry 64). -/
def enableQueue (d : Dev) (q : Nat) : Dev :=
  if !ringOk d q then
    setFlag (accumulate (setRegFld d (qOff q 2) 0 0 0) q stState) (qOff q 5) 16
  else
    let x := queueOf d q
    wakeQueue (setQueue d q { x with fetched := 0, retired := 0, count := 0, line := 0, seq := 0, words := [], pos := 0, reads := 0 }) q

/-- A queue is disabled: what it had in hand is gone. -/
def disableQueue (d : Dev) (q : Nat) : Dev :=
  let x := queueOf d q
  setQueue d q { x with state := .disabled, words := [], pos := 0, reads := 0, wait := .none, launch := none, cfg := [] }

/-- A queue reaches DISABLED, EMPTY or HELD (03 R94 to R96; 02 R47): its buffered fields apply, a queue that changes
partition loses its accumulator, and `enable` acts. -/
def execQueueBoundary (q : Nat) (s : State) : Out := act s fun d =>
  let st := (queueOf d q).state
  if !cdFitted d.variant (queueCd q) || (st != .disabled && st != .empty && st != .held) then d else
  let e := boundary d (offInstance (qOff q 0)) (queueBits q)
  let e := boundary e (offInstance (regOff (queueCd q) 0x17 (q % 1024) 0)) (queueBits q)
  let e := if qPart e q = qPart d q then e else setQueue e q { queueOf e q with accum := 0 }
  if qEnable e q && st == .disabled then enableQueue e q
  else if !qEnable e q && st != .disabled then disableQueue e q
  else e

/-! Tiles. -/

/-- The bits of a tile's registers that apply at its block boundary (02 R47, R49): all but its partition, which waits for
moves (09 R279). -/
def tileBits (_ : Dev) (off : Nat) : Word32 := if offReg off = 7 then 0 else allBits

/-- FN.MODE `split` of a CD is applied once every tile has had its block boundary since it was buffered (02 R49, R56). -/
def settleSplit (d : Dev) (c : Nat) : Dev :=
  if (upto 180).all fun t => (regBuf d (fnOff c)).tiles.contains t then applyField d (fnOff c) 0x10 else d

/-- A tile takes the `split` mode that its CD has buffered (02 R49, R56). -/
def takeSplit (d : Dev) (c t : Nat) : Dev :=
  match splitBuffered d c with
  | none => d
  | some v =>
    let b := regBuf d (fnOff c)
    let d := setBuf d (fnOff c) { b with tiles := if b.tiles.contains t then b.tiles else b.tiles ++ [t] }
    settleSplit (setTile d c t { tileOf d c t with split := v }) c

/-- A tile's first A-cycle with no resident block (02 R49): its buffered fields and the CD's `split` apply to it. -/
def execTileBlockBoundary (cd tile : Nat) (s : State) : Out := act s fun d =>
  if !cdFitted d.variant cd || decide (180 ≤ tile) || (tileOf d cd tile).blocks != [] then d else
  takeSplit (loadMgmt (boundary d (offInstance (tgOff cd tile 0)) tileBits) (fnOff cd) 0x10) cd tile

/-- Does a physical address lie in a tile's window? -/
def inTile (c t pa : Nat) : Bool := decide (tilePa c t 0 ≤ pa ∧ pa < tilePa c t 0 + tileBytes)

/-- Has a move in flight a side in a tile's window, or may it have one once it starts, while its translations are awaited? -/
def moveMeets (d : Dev) (drover : Nat) (m : Move) (c t : Nat) : Bool :=
  m.touch.contains (tileKey c t) || (m.phase == .read &&
    match checkPieces d (moveSel drover m) m (descOf m) (movePieces m (descOf m)) [] with
    | (_, .inr ps) => ps.any fun p => (p.src.any (inTile c t)) || (p.dst.any (inTile c t))
    | (_, .inl none) => true
    | (_, .inl (some _)) => false)

/-- Is a move in flight that a tile's drover issued, or that reads or writes the tile's window: one of this package, or a
transfer of a peer that has been checked (09 R279; 14 R428)? -/
def movesTouch (d : Dev) (c t : Nat) : Bool :=
  (droverOf d (tileDrover c t)).moves != [] ||
    d.drv.any (fun e => e.2.moves.any fun m => moveMeets d e.1 m c t) ||
    d.ch.any fun x => x.2.convoys.any fun v =>
      (v.2.kept.any fun k => inTile c t k.2) || (v.2.sendq ++ v.2.recs).any fun r => r.src.any fun p => inTile c t p.1

/-- The state of a tile that has nothing in it but its modes. -/
def clearedTile (x : Tile) : Tile :=
  { draining := x.draining, split := x.split, retired := x.retired, retention := x.retention, gated := x.gated,
    nextBlk := x.nextBlk, ord := x.ord }

/-- The bits of TG.PART. -/
def tilePartBits (_ : Dev) (off : Nat) : Word32 := if offReg off = 7 then allBits else 0

/-- Empties a tile's TLB. -/
def emptyTlb (d : Dev) (c t : Nat) : Dev := { d with xl := { d.xl with tile := Sparse.erase d.xl.tile (tileKey c t) } }

/-- The 64-bit counters of a tile's units that a change of partition zeroes: MX.BUSY and MX.STALL, XS.SATCNT, SP.PASS, VX.BUSY (05
R186; 06 R213; 07 R239; 08 R266). -/
def tileCounters (c t : Nat) : List Nat :=
  [regOff c 8 t 2, regOff c 8 t 4, regOff c 0x0A t 3, regOff c 0x0B t 2, regOff c 0x0C t 2]

/-- Zeroes a 64-bit counter. -/
def zeroCtr (d : Dev) (off : Nat) : Dev := setReg64 d off 0

/-- A buffered partition of a tile applies (02 R47; 13 R400): its memory, state and counters are zeroed, its TLB emptied. -/
def partitionMove (d : Dev) (c t : Nat) : Dev :=
  let e := boundary d (offInstance (tgOff c t 0)) tilePartBits
  if tilePart e c t = tilePart d c t then e else
  let e := zeroRange e (tilePa c t 0) tileBytes
  (tileCounters c t).foldl zeroCtr (emptyTlb (setTile e c t (clearedTile (tileOf e c t))) c t)

/-- Is a tile free of blocks and of moves (09 R279)? -/
def tileFree (d : Dev) (c t : Nat) : Bool := (tileOf d c t).blocks == [] && !movesTouch d c t

/-- A tile's partition move (02 R47; 09 R279; 13 R400). -/
def execTilePartitionMove (cd tile : Nat) (s : State) : Out := act s fun d =>
  if !cdFitted d.variant cd || decide (180 ≤ tile) || !tileFree d cd tile || (tileOf d cd tile).retired then d
  else partitionMove d cd tile

end Sys2Proof.Machine
end

