-- ==== Sys2Proof/Machine/Loss.lean ====
section
/-! DEFINITION. The loss of a die or of an edge (01 R22; 12 R382; 18 R546, R547). -/

namespace Sys2Proof.Machine

open Parts

/-- A register of the sentry of a port. -/
def sentOff (die inst reg : Nat) : Nat := regOff die 0x24 inst reg

/-! What a declaration brings about. -/

/-- The lines that something is kept for in the coherence state, homed on a CD. -/
def lineOn (d : Dev) (c ln : Nat) : Bool :=
  match farLine? d ln with
  | some (k, _) => k == c
  | none => false

/-- Ends all coherence under way on the lines of a CD: messages, transactions, waiting requests, reservations, its
directory. -/
def dropHomes (d : Dev) (c : Nat) : Dev :=
  let keep := fun ln => !lineOn d c ln
  { d with coh := { d.coh with
      dir := d.coh.dir.filter fun e => keep e.1
      txns := d.coh.txns.filter fun t => keep t.line
      waiting := d.coh.waiting.filter fun w => keep w.1
      net := d.coh.net.filter fun m => keep m.line
      resv := d.coh.resv.filter fun r => keep r.2
      crossed := d.coh.crossed.filter fun r => keep r.2
      defer := d.coh.defer.filter fun r => keep r.2 } }

/-- The host side of the loss of a CD (12 R382; 18 R547): copies are invalidated without write-back, requests complete with
poisoned data, WBs are dropped. -/
def dropCopies (d : Dev) (c : Nat) : Dev :=
  let lost := d.coh.mshr.filter fun m => lineOn d c m.line
  let d := { d with coh := { d.coh with
      l2 := d.coh.l2.filter fun e => !lineOn d c (e.1 / 64)
      mshr := d.coh.mshr.filter fun m => !lineOn d c m.line
      wbs := d.coh.wbs.filter fun w => !lineOn d c w.line
      sent := d.coh.sent.filter fun e => !lineOn d c (e.1 / 64) } }
  lost.foldl (fun d m => lostReply d m.core m.kind) d

/-- The waits that a loss releases (18 R546). -/
def releaseLost (d : Dev) (f : Waiter → Bool) : Dev := (d.gg.wait.filter f).foldl poisonWait d

/-- Is a waiter one of a CD's own? -/
def waiterOf (c : Nat) (w : Waiter) : Bool :=
  match w.who with
  | .queue q => queueCd q == c
  | .path k _ _ _ => k == c
  | _ => false

/-- The HD declares a CD down (18 R544, R546, R547; 12 R382): what the CD held is lost, and nobody reaches it. -/
def loseCd (d : Dev) (c : Nat) : Dev :=
  let d := dropHomes (dropCopies d c) c
  let d := { d with mem := { d.mem with
      lines := d.mem.lines.filter fun e => !lineOn d c e.1
      lost := d.mem.lost ++ [c] } }
  releaseLost d fun w => gongCd w.gong == c && !waiterOf c w

/-- The N-port of CD c declares its neighbour down (18 R546, R547). -/
def cutCd (d : Dev) (c : Nat) : Dev :=
  let d := { d with mem := { d.mem with cut := d.mem.cut ++ [c] } }
  releaseLost d fun w => gongCd w.gong == c ^^^ 1 && waiterOf c w

/-- The H-port of CD c declares the HD down (12 R382): its homes drop every host copy, poison the lines whose entry was DE or
DO, end their transactions and set `f_lost`. -/
def loseHd (d : Dev) (c : Nat) : Dev :=
  let owned := (d.coh.dir.filter fun e => lineOn d c e.1 && hasOwner e.2).map (·.1)
  let d := owned.foldl (fun d ln =>
    let (x, _) := lineAt d ln
    writeLine d ln x fullMask true) d
  let d := dropHomes d c
  ((upto 64).filter fun sl => sliceMode d c sl != 1).foldl (fun d sl => setFlag d (regOff c 0x15 sl 1) 3) d

end Sys2Proof.Machine
end

