-- ==== Sys2Proof/Machine/Ports.lean ====
section
/-! DEFINITION. Die-to-die ports: training, markers, wire repair, loop-back (01 R16 to R30; 15 R461, R466). -/

namespace Sys2Proof.Machine

open Parts

/-- A port of which nothing has been recorded. -/
def noPort (_ : Nat) : Port := {}

/-- The key of a port: a CD's H-port (0) and N-port (1), the HD's HP0 to HP3. -/
def portKey (die inst : Nat) : Nat := die * 4 + inst

/-- Does a port exist? -/
def isPort (d : Dev) (die inst : Nat) : Bool :=
  (die == 4 && decide (inst < 4)) || (cdFitted d.variant die && decide (inst < 2))

/-- A port. -/
def portOf (d : Dev) (die inst : Nat) : Port := Sparse.get noPort d.ports (portKey die inst)

/-- Stores a port. -/
def setPort (d : Dev) (die inst : Nat) (p : Port) : Dev :=
  { d with ports := Sparse.set noPort d.ports (portKey die inst) p }

/-- A register of a port. -/
def d2dOff (die inst reg : Nat) : Nat := regOff die 4 inst reg

/-- The port that a port faces: die and instance (01, port connections). -/
def peerPort (die inst : Nat) : Nat × Nat := if die = 4 then (inst, 0) else if inst = 0 then (4, die) else (die ^^^ 1, 1)

/-- The chime entry of a port (09 R294). -/
def portChime (die inst : Nat) : Nat := if die = 4 then 4748 + inst else 4740 + 2 * die + inst

/-- The wires of a bundle of a port: numbers below this (01 R30). -/
def bundleWires (die inst : Nat) : Nat := if die < 4 ∧ inst = 1 then 138 else 106

/-- Does a port find no die (01 R25 and the discovery at boot)? A port of the HD, by the presence strap of its site; the
N-port of a CD, where its neighbour has no power. -/
def facesEmpty (d : Dev) (die inst : Nat) : Bool :=
  let p := peerPort die inst
  p.1 != 4 && !(if die = 4 then d.straps.testBit p.1 else cdPowered d p.1)

/-- Is a port in traffic: UP or DEGRADED? -/
def portUp (d : Dev) (die inst : Nat) : Bool := (portOf d die inst).state == 2 || (portOf d die inst).state == 3

/-- No spare is in use, no wire has mismatched. -/
def zeroOf (_ : Nat) : Nat := 0

/-- The spares of a bundle in use, as a mask. -/
def sparesUsed (p : Port) (b : Nat) : Nat := Sparse.get zeroOf p.spares b

/-- The spare that replaces a wire: the nearest one if it is unused, else the lowest unused one. -/
def pickSpare (used nearest : Nat) : Nat :=
  if nearest < 8 ∧ !used.testBit nearest then nearest else lowNat 8 (255 - used % 256)

/-- A spare is put into a bundle. -/
def useSpare (p : Port) (b s : Nat) : Port :=
  { p with spares := Sparse.set zeroOf p.spares b (sparesUsed p b ||| 1 <<< s) }

/-- A bundle leaves service (01 R20). Its wires that wait for their steering go on waiting (DESIGN CHOICE, log entry 63). -/
def dropBundle (p : Port) (b : Nat) : Port := { p with good := p.good &&& (255 - 1 <<< b) }

/-- Spares of a bundle in use or already promised to an agreed steering. -/
def sparesTaken (p : Port) (b : Nat) : Nat :=
  p.todo.foldl (fun m t => if t.1 = b then m ||| 1 <<< t.2.2 else m) (sparesUsed p b)

/-- A wire is retired in training (01 R20, R24): a spare takes its place at once; a ninth wire costs the bundle. -/
def retireNow (p : Port) (e : Nat × Nat × Nat) : Port :=
  let used := sparesUsed p e.1
  if used = 255 then dropBundle p e.1 else useSpare p e.1 (pickSpare used e.2.2)

/-- The wires of a bundle that have been retired and await the host's steering. -/
def waitingOf (p : Port) (b : Nat) : Nat := (p.waiting.filter fun e => e.1 == b).length

/-- A wire that mismatched four times is retired (01 R17, R20, R30): steered by hardware, or recorded for the host; the ninth
wire of a bundle takes the bundle out of service. `taken` are the spares that the peer has promised besides. A wire whose
steering is agreed, or that awaits the host's, is retired already. -/
def retireWire (auto : Bool) (taken : Nat → Nat) (p : Port) (e : Nat × Nat × Nat) : Port :=
  let p := { p with miss := Sparse.set zeroOf p.miss (e.1 * 256 + e.2.1) 0 }
  let used := sparesTaken p e.1 ||| taken e.1
  if p.todo.any (fun t => t.1 == e.1 && t.2.1 == e.2.1) || (!auto && p.waiting.contains (e.1, e.2.1)) then p
  else if 8 ≤ popNat 8 used + (if auto then 0 else waitingOf p e.1) then dropBundle p e.1
  else if auto then { p with todo := p.todo ++ [(e.1, e.2.1, pickSpare used e.2.2)] }
  else { p with waiting := p.waiting ++ [(e.1, e.2.1)] }

/-- The bundles that the two ends of an edge hold out of service by `bundle_off` (01 R29). -/
def heldOut (d : Dev) (die inst : Nat) : Nat :=
  let p := peerPort die inst
  regFld d (d2dOff die inst 1) 11 4 ||| regFld d (d2dOff p.1 p.2 1) 11 4

/-- The sound bundles of a port that has trained, as its other end counts them: all where the port is not in traffic, unless
it has FAILED. -/
def soundFor (p : Port) : Nat := if p.state = 2 ∨ p.state = 3 ∨ p.state = 6 then p.good else 255

/-- The bundles in service: those sound at both ends that `bundle_off` does not hold out (01 R20, R29). -/
def bundlesUp (d : Dev) (die inst : Nat) : Nat :=
  let p := peerPort die inst
  (portOf d die inst).good &&& soundFor (portOf d p.1 p.2) &&& (255 - heldOut d die inst)

/-- A port in traffic with fewer than four bundles is FAILED, with fewer than eight DEGRADED (01 R20 to R22). -/
def settleEnd (d : Dev) (die inst : Nat) : Dev :=
  let p := portOf d die inst
  let up := bundlesUp d die inst
  if !portUp d die inst then d
  else if popNat 8 up < 4 then setPort d die inst { p with state := 6, version := 0 }
  else if up ≠ 255 then setPort d die inst { p with state := 3 }
  else d

/-- The two ends of an edge after its bundles have changed. -/
def settleEnds (d : Dev) (die inst : Nat) : Dev :=
  let p := peerPort die inst
  settleEnd (settleEnd d die inst) p.1 p.2

/-- A port that goes to FAILED or VERSION treats its die as lost on that edge (01 R22, R23): the HD loses the CD, a CD the HD.
C–C traffic whose N-port fails goes through the HD (01 R36), and nothing is lost. -/
def loseEdge (d : Dev) (die inst : Nat) : Dev :=
  let st := (portOf d die inst).state
  if st ≠ 6 ∧ st ≠ 7 then d else
  let d := setRegFld d (sentOff die inst 0) 0 0 0
  if die = 4 then (if d.mem.lost.contains inst then d else loseCd d inst) else if inst = 0 then loseHd d die else d

/-- The state of the ports of an edge after its bundles have changed, with what follows. -/
def settlePort (d : Dev) (die inst : Nat) : Dev :=
  let p := peerPort die inst
  let e := settleEnds d die inst
  let e := if portUp d die inst then loseEdge e die inst else e
  if portUp d p.1 p.2 then loseEdge e p.1 p.2 else e

/-- The wires of a marker compare, with the counts of consecutive mismatches (01 R17). -/
def countMiss (p : Port) (bad : List (Nat × Nat × Nat)) : Port :=
  { p with miss := bad.foldl (fun m e =>
      let k := e.1 * 256 + e.2.1
      Sparse.set zeroOf m k (Sparse.get zeroOf p.miss k + 1)) [] }

/-- The agreed steerings that switch at a marker: the first of each bundle (01 R18, R19). -/
def dueSteers (p : Port) : List (Nat × Nat × Nat) :=
  p.todo.foldl (fun l t => if l.any (fun u => u.1 == t.1) then l else l ++ [t]) []

/-- The agreed steerings switch (01 R18, R19): the wires wait no more, and their bundles carry no data for an interval. -/
def switchSpares (p : Port) : Port :=
  let now := dueSteers p
  let p := now.foldl (fun p t => useSpare p t.1 t.2.2) p
  { p with todo := p.todo.filter (fun t => !now.contains t), quiet := now.map (·.1)
           waiting := p.waiting.filter fun e => !now.any fun t => t.1 == e.1 && t.2.1 == e.2 }

/-- The other end of an edge switches with the port that agreed on steerings with it (01 R18). -/
def followSpares (q : Port) (now : List (Nat × Nat × Nat)) : Port :=
  let q := now.foldl (fun q t => useSpare q t.1 t.2.2) q
  { q with quiet := q.quiet ++ now.map (·.1) }

/-- Stores a port that has switched steerings; its other end, in traffic, switches at the same marker (01 R18). -/
def setBothEnds (d : Dev) (die inst : Nat) (p : Port) (now : List (Nat × Nat × Nat)) : Dev :=
  let o := peerPort die inst
  let d := setPort d die inst p
  if portUp d o.1 o.2 then setPort d o.1 o.2 (followSpares (portOf d o.1 o.2) now) else d

/-- Is a steering of a port pending: agreed, in its quiet interval, or accepted from the host and not yet applied? -/
def steerPending (d : Dev) (die inst : Nat) : Bool :=
  let p := portOf d die inst
  p.todo != [] || p.quiet != [] || cmdWaits d (d2dOff die inst 3)

/-- Does a port keep the cadence count (01 R28)? Both ends of its edge take part in a steering (01 R18). -/
def cadenceOk (d : Dev) (die inst : Nat) : Bool :=
  let p := portOf d die inst
  let o := peerPort die inst
  p.state == 2 && bundlesUp d die inst == 255 && !steerPending d die inst && !(portUp d o.1 o.2 && steerPending d o.1 o.2) && p.relOk

/-- Cadence misses of a die, counted on one flag of CAD.FLAGS (15 R466, R479). -/
def cadMisses : Nat → Dev → Nat → Nat → Dev
  | 0, d, _, _ => d
  | n + 1, d, die, b => cadMisses n (cadMiss d die b) die b

/-- Bits of D2D.PORT_CTRL, for its boundary. -/
def ctrlBits (die inst : Nat) (bits : Word32) (_ : Dev) (off : Nat) : Word32 := if off = d2dOff die inst 1 then bits else 0

/-- Bits of D2D.PORT_CTRL apply: buffered ones, then those of management writes (18 R561). -/
def applyCtrl (d : Dev) (die inst : Nat) (bits : Word32) : Dev := boundary d (offInstance (d2dOff die inst 1)) (ctrlBits die inst bits)

/-- Do bits of D2D.PORT_CTRL wait for their boundary? -/
def ctrlWaits (d : Dev) (die inst : Nat) (bits : Word32) : Bool :=
  (regBuf d (d2dOff die inst 1)).mask &&& bits != 0 || (mgmtFor d (d2dOff die inst 1) bits).isSome

/-- A chime entry is raised n times: once for each wire that a port records (01 R17). -/
def raiseChimes : Nat → Dev → Nat → Dev
  | 0, d, _ => d
  | n + 1, d, e => raiseChimes n (raiseChime d e) e

/-- A marker beat is received (01 R17 to R20; 15 R461, R466): agreed steerings switch, `auto_repair` and `bundle_off` apply,
the wires named in `bad` (bundle, wire, the spare nearest to it) mismatch, `relOk` tells whether the release point holds,
and `late` cadence deliveries have missed their count in the interval that ends. -/
def execMarkerBeat (die inst : Nat) (bad : List (Nat × Nat × Nat)) (relOk : Bool) (late : Nat) (s : State) : Out :=
  act s fun d =>
    let p := portOf d die inst
    if !isPort d die inst || (p.state != 2 && p.state != 3) then d else
    let d := if cadenceOk d die inst ∧ regFld d (regOff die 0x1A 0 0) 3 3 = 0 then d else cadMisses late d die 0
    let d := setBothEnds d die inst (switchSpares p) (dueSteers p)
    let d := applyCtrl d die inst 0xFF8
    let p := portOf d die inst
    let up := bundlesUp d die inst
    let bad := bad.filter fun e => up.testBit e.1 && decide (e.1 < 8 ∧ e.2.1 < bundleWires die inst)
    let p := countMiss p bad
    let auto := regFld d (d2dOff die inst 1) 3 3 == 1
    let gone := bad.filter fun e => decide (4 ≤ Sparse.get zeroOf p.miss (e.1 * 256 + e.2.1))
    let o := peerPort die inst
    let q := gone.foldl (retireWire auto (sparesTaken (portOf d o.1 o.2))) p
    let d := setPort d die inst { q with relOk := relOk }
    settlePort (raiseChimes (q.waiting.length - p.waiting.length) d (portChime die inst)) die inst

/-- A beat fails its check and is replayed (01 R16); on a cadence path the delivery at the other end is a miss. -/
def execBeatReplay (die inst : Nat) (cadence : Bool) (s : State) : Out := act s fun d =>
  let p := portOf d die inst
  if !isPort d die inst || (p.state != 2 && p.state != 3) then d else
  let d := setPort d die inst { p with replays := p.replays + 1 }
  if cadence then cadMiss d (peerPort die inst).1 0 else d

/-- A bundle loses its forwarded clock pair (01 R20, R22). -/
def execBundleClockLoss (die inst bundle : Nat) (s : State) : Out := act s fun d =>
  let p := portOf d die inst
  if !isPort d die inst || decide (8 ≤ bundle) || (p.state != 2 && p.state != 3) then d
  else settlePort (setPort d die inst (dropBundle p bundle)) die inst

/-! Training. -/

/-- A port goes into training, with its first attempt; one that finds no die goes to NODIE without training (01 R25). -/
def startTraining (d : Dev) (die inst : Nat) : Dev :=
  let p := portOf d die inst
  if facesEmpty d die inst then setPort d die inst { p with state := 5 }
  else setPort d die inst { state := 1, attempts := 1, errs := p.errs, replays := p.replays }

/-- A die whose clocks had stopped relocks (15 R456, R475; 20 R605): its counters and its trace sequence start afresh, and its
ports are down. -/
def relock (d : Dev) (die : Nat) : Dev :=
  if !d.pw.stopped.contains die || regFld d (regOff die 0x1A 0 0) 2 2 == 1 then d else
  let d := setRegFld d (regOff die 0x1A 0 0) 2 2 1
  let d := setReg64 (setReg64 d (regOff die 0x1A 0 2) 0) (regOff die 0x1A 0 4) 0
  let d := setTrace d die {}
  let d := { d with pw := { d.pw with phase := Sparse.set zeroOf d.pw.phase die 0 } }
  ((upto 4).filter (isPort d die)).foldl (fun d i => setPort d die i {}) d

/-- A port starts to train once its die's PLL is locked, or relocked; a port that faces an empty site goes to NODIE (01 R24,
R25; 15 R456). -/
def execPortTraining (die inst : Nat) (s : State) : Out := act s fun d =>
  let d := relock d die
  let p := portOf d die inst
  if !isPort d die inst || p.state != 0 || regFld d (regOff die 0x1A 0 0) 2 2 == 0 then d
  else startTraining d die inst

/-- Does a port face one in LOOPBACK (01 R27)? -/
def facesLoop (d : Dev) (die inst : Nat) : Bool :=
  let p := peerPort die inst
  (portOf d p.1 p.2).state == 4

/-- A port whose training has reached identity words (01 R20, R23, R24): VERSION where no version governs, else UP with the
bundles of `clocks`, the wires retired one by one. -/
def trainedPort (p : Port) (ident : Ident) (wires : List (Nat × Nat × Nat)) (clocks : Nat) (relOk : Bool) : Port :=
  let v := min ident.hi ident.peerHi
  if v < ident.lo ∨ v < ident.peerLo then { p with state := 7, attempts := 0, peerKind := ident.kind }
  else wires.foldl retireNow
    { state := 2, good := clocks % 256, version := v, peerKind := ident.kind, replays := p.replays, relOk := relOk }

/-- Training ends (01 R17, R23, R24; 15 R461): `bad` wires failed and `clocks` is the mask of bundles with their clock
pair; wires that showed errors in loop-back are retired too. A
port in LOOPBACK answers no training, so the port that faces it stays in TRAINING (01 R27). -/
def execPortTrained (die inst : Nat) (ident : Ident) (bad : List (Nat × Nat × Nat)) (clocks : Nat) (relOk : Bool)
    (s : State) : Out := act s fun d =>
  let p := portOf d die inst
  if !isPort d die inst || p.state != 1 || facesLoop d die inst then d else
  let wires := p.errs.map (fun e => (e.1, e.2, 8)) ++ bad.filter fun e => !p.errs.contains (e.1, e.2.1)
  let d := setPort d die inst (trainedPort p ident wires clocks relOk)
  loseEdge (settlePort d die inst) die inst

/-- A training attempt exceeds its limit (01 R24, R27). -/
def execTrainingAttemptTimeout (die inst : Nat) (s : State) : Out := act s fun d =>
  let p := portOf d die inst
  if !isPort d die inst || p.state != 1 then d
  else if p.attempts < 3 then setPort d die inst { p with attempts := p.attempts + 1 }
  else if facesLoop d die inst then d
  else loseEdge (setPort d die inst { p with state := 6, attempts := 0 }) die inst

/-- A port that faces one in LOOPBACK restarts its count of attempts (01 R27). -/
def execLoopbackPeerRetry (die inst : Nat) (s : State) : Out := act s fun d =>
  let p := portOf d die inst
  if isPort d die inst && p.state == 1 && facesLoop d die inst then setPort d die inst { p with attempts := 1 } else d

/-- Internal loop-back is selected or released at the port's boundary (01 R26, R27); `errs` are the wires that showed
errors in it. A reserved value of `loop` is taken and selects no loop-back: it releases one (DESIGN CHOICE, log entry 63). -/
def execD2dLoopback (die inst : Nat) (errs : List (Nat × Nat)) (s : State) : Out := act s fun d =>
  let o := d2dOff die inst 1
  if !isPort d die inst || !ctrlWaits d die inst 3 then d else
  let d := applyCtrl d die inst 3
  let p := portOf d die inst
  if regFld d o 1 0 = 1 then
    if p.state = 0 ∨ p.state = 5 ∨ p.state = 6 ∨ p.state = 7 then setPort d die inst { state := 4, replays := p.replays } else d
  else if p.state = 4 then setPort d die inst { state := 0, errs := errs, replays := p.replays }
  else d

/-- The `retrain` bit takes the port down and trains it again; it reads 0 once training starts (01 R21, R29). In
LOOPBACK and in NODIE the bit is cleared and nothing trains (DESIGN CHOICE, log entry 63). -/
def execD2dRetrain (die inst : Nat) (s : State) : Out := act s fun d =>
  let o := d2dOff die inst 1
  if !isPort d die inst || !ctrlWaits d die inst 4 then d else
  let d := applyCtrl d die inst 4
  let go := regFld d o 2 2
  let d := setRegFld d o 2 2 0
  let p := portOf d die inst
  if go = 1 ∧ p.state ≠ 4 ∧ p.state ≠ 5 then startTraining d die inst else d

/-- D2D.STEER applies at a marker beat (01 R18, R30): its fields, and with `go` the steering that the host names, at both
ends. -/
def execD2dSteer (die inst : Nat) (s : State) : Out := act s fun d =>
  let o := d2dOff die inst 3
  if !isPort d die inst then d else
  let d := loadMgmt d o (BitVec.allOnes 32)
  if (regBuf d o).mask == 0 then d else
  let go := cmdPending d o
  let d := setRegFld (applyField d o (BitVec.allOnes 32)) o 14 14 0
  let p := portOf d die inst
  let b := regFld d o 2 0
  let w := regFld d o 10 3
  if !go then d else
  setBothEnds d die inst (useSpare { p with
    waiting := p.waiting.filter (fun e => e != (b, w)), quiet := p.quiet ++ [b]
    miss := Sparse.set zeroOf p.miss (b * 256 + w) 0 } b (regFld d o 13 11)) [(b, w, regFld d o 13 11)]

/-- May D2D.STEER be written with `go` (01 R30)? A bundle is already steering while a steering of it is agreed or accepted and
not yet applied, or its quiet interval runs. -/
def steerOk (d : Dev) (die inst : Nat) (v : Word32) : Bool :=
  let p := portOf d die inst
  let q := peerPort die inst
  let b := fld v 2 0
  let o := d2dOff die inst 3
  let x := regBuf d o
  regFld d (d2dOff die inst 1) 3 3 == 0 && decide (fld v 10 3 < bundleWires die inst) &&
    !((sparesTaken p b ||| sparesTaken (portOf d q.1 q.2) b)).testBit (fld v 13 11) && !p.quiet.contains b &&
    (p.todo.all fun t => t.1 != b) && !(cmdPending d o && fld (mergeMask (regVal d o) x.value x.mask) 2 0 == b)

end Sys2Proof.Machine
end

