-- ==== Sys2Proof/Machine/Settings.lean ====
section
/-! DEFINITION. Writes to registers (03 R82 to R86, R93): what a write is refused for, `cfg.set`, the register window, reads
that clear. -/

namespace Sys2Proof.Machine

open Parts

/-! Refusals. -/

/-- A write as it is checked: the register, the value it would have with everything buffered, and the bits written. -/
structure Attempt where
  off : Nat
  v : Word32
  mask : Word32

/-- Does a write touch bits [hi:lo]? -/
def Attempt.hits (a : Attempt) (hi lo : Nat) : Bool := fld a.mask hi lo != 0

/-- Is a field that a write touches outside a range? -/
def Attempt.outside (a : Attempt) (hi lo least most : Nat) : Bool :=
  a.hits hi lo && (decide (fld a.v hi lo < least) || decide (most < fld a.v hi lo))

/-- Is a command bit written 1? -/
def Attempt.starts (a : Attempt) (b : Nat) : Bool := a.hits b b && bit a.v b

/-- Q.CTRL (02 R54). -/
def refuseQctrl (d : Dev) (a : Attempt) : Bool :=
  let part := regOff 5 6 (fld a.v 6 3) 0
  let c := offDie a.off
  let old := regFld d a.off 2 1
  a.hits 2 1 &&
    ((fld a.v 2 1 == 0 && (regFld d part 1 1 == 0 || (old != 0 && decide (64 ≤ pQueuesCd d c)))) ||
      (fld a.v 2 1 == 3 && regFld d part 2 2 == 0))

/-- Does a partition own a tile, a slice in scratch mode, a queue or a channel (02 R52; 10 R337)? -/
def partOwns (d : Dev) (p : Nat) : Bool :=
  ((upto 4).any fun c => cdFitted d.variant c && (((upto 180).any fun t => tilePart d c t == p) ||
    ((upto 64).any fun s => sliceMode d c s == 1 && slicePart d c s == p) || (upto 1024).any fun i => qPart d (c * 1024 + i) == p)) ||
    (upto 48).any fun ch => chanPart d ch == p

/-- PART.CTRL (02 R52). -/
def refusePart (d : Dev) (a : Attempt) : Bool :=
  let p := offInst a.off
  (a.hits 0 0 && !bit a.v 0 && (p == 0 || partOwns d p)) ||
    (a.hits 1 1 && !bit a.v 1 && pQueuesPart d p != 0)

/-- D2D.PORT_CTRL and D2D.STEER (01 R26, R29, R30): `bundle_off` may not take bundles in service so that fewer than four stay. -/
def refusePort (d : Dev) (a : Attempt) : Bool :=
  let die := offDie a.off
  let i := offInst a.off
  let p := portOf d die i
  if offReg a.off = 1 then
    (a.hits 1 0 && fld a.v 1 0 == 1 && !(p.state == 0 || p.state == 5 || p.state == 6 || p.state == 7)) ||
      (a.hits 11 4 && bundlesUp d die i &&& fld a.v 11 4 != 0 && decide (popNat 8 (bundlesUp d die i &&& (255 - fld a.v 11 4)) < 4))
  else if offReg a.off = 3 then a.starts 14 && !steerOk d die i a.v
  else false

/-- FT.MAPOUT and FT.SCRUB (10 R331, R332): STATE. -/
def refuseFt (d : Dev) (a : Attempt) : Bool :=
  let c := offDie a.off
  if offReg a.off = 0 then a.outside 4 0 0 16
  else if offReg a.off = 1 then a.starts 16 && !mapoutOk d c (fld a.v 6 0) (fld a.v 13 7)
  else if offReg a.off = 2 then a.starts 21 && (regFld d (fnOff c) 5 5 == 0 || (ftOf d c).scrub.isSome)
  else false

/-- HX.CTRL (13 R412). -/
def refuseHx (d : Dev) (a : Attempt) : Bool :=
  let lo := a.off - 4 * offReg a.off
  let hi := regVal d (lo + 4)
  offReg a.off == 2 && a.starts 5 && !((fld hi 31 28 == 9 || fld hi 31 28 == 10) && fld hi 11 4 == 0)

/-- CHN registers (02 R48; 14 R420, R447, R450 to R452; 19 R575). -/
def refuseChn (d : Dev) (a : Attempt) : Bool :=
  let ch := offInst a.off
  let x := chanOf d ch
  let changed := (a.v ^^^ regVal d a.off) &&& a.mask
  let zeroAddr := (regVal d (chnOff ch 6) == 0 && regVal d (chnOff ch 7) == 0) ||
    (upto 4).all fun i => regVal d (chnOff ch (8 + i)) == 0
  match offReg a.off with
  | 0 =>
    (changed &&& 0x87 != 0 && x.convoys.any fun v => v.1 != 0 && v.2.st != .closed) ||
      (a.hits 4 1 && bit a.v 1 && fld a.v 4 3 != 0) || (a.hits 6 5 && fld a.v 6 5 == 3) ||
      (a.hits 1 0 && bit a.v 0 && (!x.fw || (!bit a.v 1 && zeroAddr)))
  | 2 => a.starts 17 && (regFld d a.off 17 17 == 1 || cmdWaits d a.off)
  | 0xE => !(decide (fld a.v 14 10 ≤ fld a.v 4 0) && decide (fld a.v 4 0 ≤ fld a.v 9 5) && decide (fld a.v 9 5 ≤ 23))
  | 0x18 => changed != 0 && x.convoys.any fun v => v.2.st != .closed
  | _ => false

/-- LVL.CTRL (16 R505). -/
def refuseLvl (d : Dev) (a : Attempt) : Bool :=
  offReg a.off == 0 && decide (1024 < fld a.v 10 0 +
    (((upto 4).filter (· != offInst a.off)).map fun i => fld (bufferedVal d (lvlOff i 0)) 10 0).foldl (· + ·) 0)

/-- PWR registers (17 R511, R529, R535). -/
def refusePwr (a : Attempt) : Bool :=
  match offReg a.off with
  | 0 => a.outside 12 0 900 4200
  | 1 => a.outside 1 0 0 2
  | 2 => a.outside 6 2 1 16
  | 3 => a.outside 12 0 900 4200 || a.outside 19 15 1 16 || a.outside 29 28 0 2
  | 4 => a.outside 6 0 70 105 || a.outside 13 7 70 95 || a.outside 20 14 20 80
  | _ => false

/-- A register of WEAR. -/
def wearOff (c reg : Nat) : Nat := regOff c 0x25 0 reg

/-- WEAR.TILE of a physical tile. -/
def wearTile (c p : Nat) : Nat := wearOff c (0x100 + p)

/-- WEAR registers (18 R551, R565). -/
def refuseWear (d : Dev) (a : Attempt) : Bool :=
  let c := offDie a.off
  if offReg a.off = 0 then a.outside 7 0 1 255 || a.outside 15 8 1 255 || a.outside 23 16 10 255
  else offReg a.off == 2 && a.starts 16 &&
    (regFld d (fnOff c) 9 9 == 0 || decide (192 ≤ fld a.v 15 8) || regFld d (wearTile c (fld a.v 15 8)) 25 24 != 1 ||
      decide (180 ≤ fld a.v 7 0))

/-- May an SVC command start (18 R555; 19 R576): none runs, no brace, Run or Idle, boot over? -/
def svcFree (d : Dev) : Bool :=
  d.sv.run.isNone && d.pw.brace.isNone && decide (pwrState d ≤ 1) && regFld d (regOff 5 0x28 0 0) 3 0 == 11

/-- TRC registers (20 R614, R617). -/
def refuseTrc (d : Dev) (a : Attempt) : Bool :=
  match offReg a.off with
  | 0 =>
    let base := fld (bufferedVal d (trcOff 4)) 15 0 * 2 ^ 32 + fld (bufferedVal d (trcOff 3)) 31 16 * 65536
    let e := fld (bufferedVal d (trcOff 3)) 5 0
    a.outside 7 3 10 30 || a.outside 12 8 10 30 || a.outside 16 13 1 15 ||
      (a.hits 1 0 && bit a.v 1 && !(base % 2 ^ e == 0 && plainPa d 0 base && plainPa d 0 (base + 2 ^ e - 1)))
  | 3 => a.outside 5 0 16 34
  | _ => false

/-- Is a write refused with STATE by what it would set, by unit? A companion has nothing to write. -/
def writeRefused (d : Dev) (a : Attempt) : Bool :=
  if 0x200 ≤ offReg a.off then false else
  match offUnit a.off with
  | 0x01 => offReg a.off == 2 && refuseQctrl d a
  | 0x04 => refusePort d a
  | 0x06 => if offReg a.off = 0 then refusePart d a else a.hits 12 0 && fld a.v 12 0 != 0 && a.outside 12 0 50 4200
  | 0x07 => offReg a.off == 0 && a.outside 4 0 16 31
  | 0x11 => a.outside 6 0 4 64
  | 0x13 => refuseFt d a
  | 0x16 => offReg a.off == 0 && a.starts 0 && (fld a.v 3 2 == 3 || (offDie a.off != 5 && bit a.v 1 == decide (offDie a.off < 4)))
  | 0x18 => refuseHx d a
  | 0x19 => refuseChn d a
  | 0x1D => a.outside 3 0 1 15 || a.outside 7 4 1 15 || a.outside 11 8 1 15
  | 0x1E => refuseLvl d a
  | 0x1F => refusePwr a
  | 0x25 => refuseWear d a
  | 0x27 => offReg a.off == 0 && a.starts 10 && (!svcFree d || cmdWaits d a.off)
  | 0x29 => offReg a.off == 0 && a.starts 0 && d.id.report.isSome
  | 0x2B => offReg a.off == 0 && a.outside 10 0 10 2000
  | 0x2C => refuseTrc d a
  | _ => false

/-- Is a unit absent from the variant (00 R3 to R5; 02, variants): a CD that is not fitted, a splitter of a CDb? -/
def unitAbsent (d : Dev) (off : Nat) : Bool :=
  decide (offDie off < 4) && (!cdFitted d.variant (offDie off) || (offUnit off == 0x0B && !cdFull d (offDie off)))

/-- Is the tile that a register belongs to retired (18 R553)? -/
def regRetired (d : Dev) (off : Nat) : Bool :=
  decide (offDie off < 4) && decide (offInst off < 180) &&
    ((decide (7 ≤ offUnit off) && decide (offUnit off ≤ 0x0D)) || offUnit off == 0x10) && tileRetired d (offDie off) (offInst off)

/-- Is an offset that of a companion (03 R89)? -/
def isCompanion (off : Nat) : Bool :=
  decide (0x200 ≤ offReg off) && off % 4 == 0 && (match regRow? (off - 0x800) with
    | some row => row.rwb ||| row.rov != 0
    | none => false)

/-- Does an address name no register of the variant (00 R5; 03 R82)? -/
def regAbsent (d : Dev) (off : Nat) : Bool := ((regRow? off).isNone && !isCompanion off) || unitAbsent d off

/-- Does a write name hardware that is absent (00 R3, R4; 10 R332): an absent unit or no register, the hardware mode of
`split` on a CDb, a map-out or a scrub of a channel whose stack the variant lacks (00 R6)? -/
def writeAbsent (d : Dev) (a : Attempt) : Bool :=
  let c := offDie a.off
  regAbsent d a.off ||
    (offUnit a.off == 3 && decide (c < 4) && !cdFull d c && a.hits 4 4 && !bit a.v 4) ||
    (offUnit a.off == 0x13 && offReg a.off == 1 && a.starts 16 && decide (ftCount d.variant ≤ fld a.v 6 0)) ||
    (offUnit a.off == 0x13 && offReg a.off == 2 && a.starts 21 && decide (ftCount d.variant ≤ fld a.v 6 0))

/-- The attempt that a write makes. -/
def attempt (d : Dev) (off : Nat) (value mask : Word32) : Attempt := ⟨off, mergeMask (bufferedVal d off) value mask, mask⟩

/-- Does a register belong to a partition's resources (03 R83): a well slice does while it is in scratch mode? -/
def regOwnedBy (d : Dev) (off p : Nat) : Bool :=
  offPart d off == some p

/-- Is an offset Q.DOORBELL of a queue? -/
def isDoorbell (off : Nat) : Bool := offUnit off == 1 && offReg off == 3 && decide (offDie off < 4) && off % 4 == 0

/-- The queue of a Q register. -/
def offQueue (off : Nat) : Nat := offDie off * 1024 + offInst off

/-! Writers. -/

/-- What a write of RW bits brings about: a chime entry that is enabled while its flag is set writes one message (09 R296). -/
def wroteNow (old d : Dev) (off : Nat) : Dev :=
  if offUnit off = 0x0F ∧ offReg off % 4 = 0 ∧ regFld old off 0 0 = 0 ∧ regFld d off 0 0 = 1 ∧ regFld d (off + 4) 0 0 = 1 then
    chimeMessage d (offInst off * 64 + offReg off / 4)
  else d

/-- A write reaches its register. -/
def storeReg (d : Dev) (off : Nat) (value mask : Word32) : Dev := wroteNow d (writeReg d off value mask) off

/-- Would a write open a convoy on a channel of another partition than the queue's (02 R50)? -/
def opensForeign (d : Dev) (q : Nat) (a : Attempt) : Bool :=
  offUnit a.off == 0x19 && offReg a.off == 2 && a.starts 17 && fld a.v 16 13 == 0 && chanPart d (offInst a.off) != qPart d q

/-- `cfg.set` (02 R38, R48 to R54; 03 R71, R82 to R86, R74; 00 R3, R4): ABSENT where it names no register or absent hardware;
STATE where the register is not its partition's or the write is refused; else it retires when it is buffered.
A doorbell of a queue that is not its partition's is refused before it is looked at as a doorbell (DESIGN CHOICE, log entry
64). A W1C-S bit of `keep` is set by hardware in the same A-cycle and stays set (03 R92). -/
def execCfgSet (q : Nat) (keep : Word32) (s : State) : Out := act s fun d =>
  issueStream q (· == .cfgSet) d fun d _ w imms n =>
    let off := fld w 31 0
    let value : Word32 := (imms.headD 0).setWidth 32
    let mask : Word32 := ((imms.headD 0) >>> 32).setWidth 32
    let a := attempt d off value mask
    if writeAbsent d a then retireWith d q n stAbsent
    else if qPart d q ≠ 0 ∧ !regOwnedBy d off (qPart d q) then refuseState d q n
    else if opensForeign d q a then refuseState d q n
    else if isDoorbell off then retireInstr (doorbell d (offQueue off) .stream (fld value 15 0)) q n
    else if regRetired d off || writeRefused d a then refuseState d q n
    else
      let d := storeReg d off value (mask &&& ~~~ (keep &&& clearable off))
      let x := queueOf d q
      let bits := mask &&& (match regRow? off with
        | some r => BitVec.ofNat 32 (r.rwb ||| r.rov)
        | none => 0)
      let d := if bits = 0 then d else setQueue d q { x with cfg := x.cfg ++ [⟨off, bits⟩] }
      retireInstr d q n

/-- A write through the register window (03 R82, R85, R86; 10 R332): a write that its register refuses is ignored. A
W1C-S bit of `keep` is set by hardware in the same A-cycle and stays set (03 R92). `after` names the core after whose cache-block
operations a FENCE orders the write (11 R358): it waits for them. -/
def execRegisterWrite (off : Nat) (value keep : Word32) (after : Option Nat) (s : State) : Out := act s fun d =>
  if heldByCbo d after then d else
  if isDoorbell off then
    (if unitAbsent d off then d else doorbell d (offQueue off) .window (fld value 15 0))
  else
    let mask := windowMask off &&& ~~~ (cmdBits off &&& ~~~ value)
    let a := attempt d off value mask
    if (regRow? off).isNone || unitAbsent d off || regRetired d off then d
    else if offUnit off = 0x13 ∧ offReg off = 1 ∧ (writeAbsent d a ∨ writeRefused d a) then setFlag d (ftOff (offDie off) 8) 2
    else if writeAbsent d a || writeRefused d a then d
    else storeReg d off value (mask &&& ~~~ (keep &&& clearable off))

/-- The RC bits of a register (03 R93). -/
def rcBits (off : Nat) : Word32 :=
  match regRow? off with
  | none => 0
  | some r => BitVec.ofNat 32 r.rc

/-- A read of a register whose reading clears counters: an RC register, or the companion of a register with buffered or voted
bits (03 R89, R93; 20 R617); zero where the unit is absent or its tile retired (00 R5; 18 R553). -/
def clearingRead (d : Dev) (off : Nat) : Dev × Word32 :=
  if unitAbsent d off || regRetired d off then (d, 0)
  else if 0x200 ≤ offReg off then
    let r := off - 0x800
    match regRow? r with
    | none => (d, 0)
    | some row =>
      if row.rwb ||| row.rov = 0 then (d, 0) else
      let x := Sparse.get noDis d.rg.dis r
      ({ d with rg := { d.rg with dis := Sparse.set noDis d.rg.dis r { x with count := 0 } } },
        BitVec.ofNat 32 (b2n (companionPending d r) + x.lastBit * 2 ^ 8 + x.count * 2 ^ 16))
  else (setReg d off (regVal d off &&& ~~~ rcBits off), regVal d off)

/-- Does a read of a register clear something: has it RC bits, or is it where companions are? -/
def readClears (off : Nat) : Bool := decide (0x200 ≤ offReg off) || rcBits off != 0

/-- A read by a host core that clears (03 R89, R93; 20 R617); one that a FENCE orders after cache-block operations waits for them (11
R358). -/
def execReadToClear (core off : Nat) (fenced : Bool) (s : State) : Out := act s fun d =>
  if !readClears off || (fenced && cboOpen d core) then d else hostSees (clearingRead d off).1 (.value core (clearingRead d off).2.toNat false)

/-! Host accesses to CD windows and to the host-private range. -/

/-- How a byte answers a host access outside the cacheable far tier (01 R35; 02 R61; 10 R307 to R309; 18 R553): it is memory; it
is absent, reads zero and takes no write; the access faults; or it is no window of this kind. -/
inductive HostByte where
  | memory
  | absent
  | bad
  | other
  deriving DecidableEq, Repr

/-- What a physical address is to a host access through a window. -/
def hostByte (d : Dev) (pa : Nat) : HostByte :=
  match paKind d pa with
  | .tile c t => if tileRetired d c t then .bad else .memory
  | .scratch c sl => if sliceMode d c sl = 1 then .memory else .bad
  | .noCd => .absent
  | .unfitted => .absent
  | .hole => .bad
  | _ => .other

/-- A host access of n bytes to a CD window or to unfitted far tier (10 R307 to R310; 01 R35; 02 R61; 18 R547, R553): an AMO, LR or
SC to a window, and an access with a byte in a hole, in a slice that is not in scratch mode or in a retired tile, raise an access
fault and write nothing. An AMO or LR to unfitted far tier reads zero. One that a FENCE orders after cache-block operations waits for
them (11 R358). -/
def execHostWindowAccess (core pa n : Nat) (op : HostOp) (fenced : Bool) (ecc : List (Nat × EccFound)) (s : State) : Out :=
  act s fun d =>
  if n = 0 ∨ 8 < n ∨ (fenced && cboOpen d core) then d else
  let ks := (upto n).map fun i => hostByte d (pa + i)
  if ks.contains .bad then hartFault d core
  else if ks.contains .other then d
  else
    let lines := [pa / 64, (pa + n - 1) / 64]
    match op with
    | .load =>
      if ks.contains .absent then hostSees d (.value core 0 false)
      else
        let d := eccLines d ecc lines
        hostSees d (.value core (valAt d pa n) (poisonIn d pa n))
    | .store v => if ks.contains .absent then d else writeAt d pa (leBytes n v) false
    | .atomic => if paKind d pa = .unfitted then hostSees d (.value core 0 false) else hartFault d core

end Sys2Proof.Machine
end

