-- ==== Sys2Proof/Machine/Power.lean ====
section
/-! DEFINITION. Power as shared operations (17; 15 R470, R471): limits, settings, reasons, changes of operating point, brace,
stop. -/

namespace Sys2Proof.Machine

open Parts

/-- A PWR register. -/
def pwrOff (reg : Nat) : Nat := regOff 5 0x1F 0 reg

/-- A CLK register of a die. -/
def clkOff (die reg : Nat) : Nat := regOff die 0x1A 0 reg

/-- The dies of the package that have power: the CDs and the HD. -/
def dies (d : Dev) : List Nat := (upto 4).filter (cdPowered d) ++ [4]

/-- Changes power state. -/
def setPw (d : Dev) (f : Power → Power) : Dev := { d with pw := f d.pw }

/-! Rails (01, base layer; R32). -/

/-- Phases, reserve and rated limit of a rail. -/
def railTable (r : Nat) : Nat × Nat × Nat :=
  match r with
  | 4 => (7, 2, 250)
  | 5 => (5, 2, 150)
  | 6 => (12, 2, 480)
  | 7 => (4, 2, 60)
  | 8 => (12, 2, 480)
  | 9 => (6, 2, 180)
  | 10 => (2, 1, 20)
  | 11 => (2, 1, 10)
  | _ => (24, 2, 1100)

/-- No phase is lost. -/
def railLost (d : Dev) (r : Nat) : Nat := Sparse.get zeroCnt d.pw.lost r

/-- The present current limit of a rail in A (01 R32). -/
def railLimit (d : Dev) (r : Nat) : Nat :=
  let (p, res, l) := railTable r
  min l (50 * (p - res - (railLost d r - res)))

/-- A RAIL register. -/
def railOff (r reg : Nat) : Nat := regOff 5 0x20 r reg

/-! Settings: an operating point and a rest level. -/

/-- The rank of a setting: greater is slower (17 R513). -/
def rank (s : Nat × Nat) : Nat := s.1 * 16 + (16 - s.2)

/-- The slower of two settings. -/
def slower (a b : Nat × Nat) : Nat × Nat := if rank a < rank b then b else a

/-- The next faster setting (17 R513). -/
def raised (s : Nat × Nat) : Nat × Nat := if s.2 < 16 then (s.1, s.2 + 1) else (s.1 - 1, s.2)

/-- The next slower setting. -/
def lowered (s : Nat × Nat) : Nat × Nat := if s.1 < 3 then (s.1 + 1, s.2) else (s.1, max 1 (s.2 - 1))

/-- The setting last decided: what waits, what a change leads to, or what is applied. -/
def present (d : Dev) : Nat × Nat :=
  match d.pw.next, d.pw.change with
  | some s, _ => s
  | none, some c => (c.op, c.k)
  | none, none => (d.pw.op, d.pw.k)

/-- Starts a change of operating point (17 R510): a faster one raises the voltage first. -/
def startChange (d : Dev) (s : Nat × Nat) : Dev :=
  setPw d fun p => { p with change := some ⟨s.1, s.2, if s.1 < p.op then .rising else .ready⟩, next := none }

/-- Applies a decision (17 R510, R512): at once where only the rest level changes, by a change of operating point else; at
most one change runs, and a later decision waits for its end. -/
def pwDecide (d : Dev) (s : Nat × Nat) : Dev :=
  if s = present d then d
  else if d.pw.change.isSome then setPw d fun p => { p with next := some s }
  else if s.1 = d.pw.op then setPw d fun p => { p with k := s.2 }
  else startChange d s

/-! Reasons (17 R522). -/

/-- The level at which a partition's tiles run, for the part that its cap sets (17 R515, R535). -/
def partLevel (d : Dev) (p : Nat) : Nat := regFld d (regOff 5 6 p 1) 20 16

/-- No detector has tripped. -/
def droopOf (d : Dev) (die : Nat) : Nat := Sparse.get zeroCnt d.pw.droop die

/-- No rest. -/
def noRest (_ : Nat) : Nat := 16

/-- The level in force on a CD (17 R512). -/
def levelOf (d : Dev) (c : Nat) : Nat := Sparse.get noRest d.pw.level c

/-- Has a partition a tile of the CDs fitted? -/
def hasTile (d : Dev) (p : Nat) : Bool :=
  (upto 4).any fun c => cdFitted d.variant c && (upto 180).any fun t => tilePart d c t == p

/-- Does any tile run at a rest level below 16 (17 R512, R515, R522)? -/
def resting (d : Dev) : Bool :=
  ((upto 4).any fun c => cdFitted d.variant c && decide (levelOf d c < 16)) ||
    (upto 16).any fun p => decide (partLevel d p < 16) && hasTile d p

/-- The active throttle reasons: those the governor set, and DROOP, EDC, HOLDUP and REST as they hold. -/
def reasons (d : Dev) : Nat :=
  d.pw.why ||| (if d.pw.edc = [] then 0 else 2) ||| (if d.pw.droop = [] then 0 else 8) |||
    (if d.pw.brace.isSome then 16 else 0) ||| (if resting d then 64 else 0)

/-- Traces a change of the reasons (20 R609). -/
def withReasons (d e : Dev) : Dev :=
  if reasons e = reasons d then e else trace e 4 0x1F 0 0x0A none none (reasons e) 0

/-- Raises a PWR.ALERT flag (17 R537). -/
def alertFlag (d : Dev) (b : Nat) : Dev := setFlag d (pwrOff 7) b

/-- The level of ALERT#: asserted while a flag and its enable are set (17 R537); high impedance without AUX or power (21 R625,
R626). -/
def alertPin (d : Dev) : Bool :=
  let v := regVal d (pwrOff 7)
  d.pw.aux && d.pw.vpm && fld v 5 0 &&& fld v 13 8 != 0

/-! Stopping (17 R526). -/

/-- Every rail goes off: all volatile content is lost; the flash, the operator record and the pins stay, and the wake circuit
latches the cause while AUX is present (21 R625). What has left the package has left it. -/
def stop (d : Dev) (cause : Nat) : Dev :=
  let z := Dev.dark d.variant d.fl
  { z with
    straps := d.straps, full := d.full
    mg := { z.mg with operator := d.mg.operator, sent := d.mg.sent }
    tr := { z.tr with out := d.tr.out }
    coh := { z.coh with out := d.coh.out }
    pw := { z.pw with
      aux := d.pw.aux, holdup := d.pw.holdup, vin := d.pw.vin
      cause := if d.pw.aux then cause else 0 }
    fresh := d.fresh }

/-! Brace (17 R524, R525). -/

/-- Has boot reached its last step (19 R574)? -/
def booted (d : Dev) : Bool := regFld d (regOff 5 0x28 0 0) 3 0 == 11

/-- Enters brace: the cap, the setting of PWR.BRACE unless the present one is slower or the package is in Rest, the chime, the
flag, the health event, and the checkpoint window. During boot the chime waits for the ready chime (17 R525). -/
def enterBrace (d : Dev) (holdup : Bool) : Dev :=
  if d.pw.brace.isSome then d else
  let v := regVal d (pwrOff 3)
  let d := setPw d fun p => { p with brace := some ⟨holdup, !holdup, fld v 27 20 != 0⟩ }
  let d := if pwrState d = 2 then d else pwDecide d (slower (present d) (fld v 14 13, fld v 19 15))
  let d := alertFlag d 4
  healthEvent (if booted d then raiseChime d 4737 else d) 0x0F 5 0 0

/-- A brace ends (17 R525). -/
def endBrace (d : Dev) : Dev := raiseChime (setPw d fun p => { p with brace := none }) 4816

/-- Sets `PWR.STATE.current`. -/
def setPwrState (d : Dev) (s : Nat) : Dev := setRegFld d (pwrOff 1) 6 4 s

/-- Rest is entered from Run or Idle; during LEAVING_REST it is acted on when RUN is reached (17 R529). -/
def enterRest (d : Dev) : Dev :=
  if pwrState d ≤ 1 then setPwrState d 3
  else if pwrState d = 4 then setPw d fun p => { p with restLater := true }
  else d

/-! Temperatures (17 R520, R521; 18 R541). -/

/-- A THM register. -/
def thmOff (die sensor : Nat) : Nat := regOff die 0x23 sensor 0

/-- A source that can be believed: die, sensor, temperature in 0.125 °C. -/
def sources (d : Dev) : List (Nat × Nat × Int) :=
  (dies d).flatMap fun c => ((upto 20).filter fun i => regFld d (thmOff c i) 12 12 == 1).map fun i =>
    (c, i, sextNat 12 (regFld d (thmOff c i) 11 0))

/-- The THERM limit of a source in °C. -/
def thermLimit (d : Dev) (i : Nat) : Int := if i < 16 then regFld d (pwrOff 4) 6 0 else regFld d (pwrOff 4) 13 7

/-- Is some source at or above its THERM limit? -/
def anyHot (d : Dev) : Bool := (sources d).any fun s => decide (8 * thermLimit d s.2.1 ≤ s.2.2)

/-- Is every source some degrees below its THERM limit? -/
def allCool (d : Dev) (by_ : Int) : Bool := (sources d).all fun s => decide (s.2.2 ≤ 8 * (thermLimit d s.2.1 - by_))

/-- The hottest source in °C, 0 to 255: junctions, stacks and the phases of the base layer (17 R520, R536). -/
def hottest (d : Dev) : Nat :=
  (upto 12).foldl (fun m r => max m (regFld d (railOff r 0) 31 24))
    ((sources d).foldl (fun m s => max m (min 255 (s.2.2 / 8).toNat)) 0)

end Sys2Proof.Machine
end

