-- ==== Sys2Proof/Machine/Governor.lean ====
section
/-! DEFINITION. The control step of the power unit (17 R511 to R525) and the changes of operating point (17 R510; 15 R470,
R471). -/

namespace Sys2Proof.Machine

open Parts

/-! The governor. -/

/-- The effective package cap in W (17 R511). -/
def effectiveCap (d : Dev) : Nat :=
  let c := min 4200 (regFld d (pwrOff 0) 12 0)
  if d.pw.brace.isSome then min c (regFld d (pwrOff 3) 12 0) else c

/-- A prediction in W. -/
def predOf (l : StepLoad) (s : Nat × Nat) : Nat := listGet 0 l.pred (16 * s.1 + s.2 - 1)

/-- The setting of a lowering, and whether it is the floor (17 R513). -/
def lowering (cap : Nat) (l : StepLoad) : (Nat × Nat) × Bool :=
  let fits := fun s => decide (predOf l s ≤ cap)
  match [(0, 16), (1, 16), (2, 16), (3, 16)].find? fits with
  | some s => (s, false)
  | none =>
    match ((upto 15).map fun i => ((3 : Nat), 15 - i)).find? fits with
    | some s => (s, false)
    | none => ((3, 1), true)

/-- What the governor chooses for a cap: the setting, whether the cap constrains it, whether it is the floor (17 R513, R514).
`floor` tells that CAPFLOOR is set. -/
def governed (d : Dev) (l : StepLoad) (cap : Nat) (floor : Bool) : (Nat × Nat) × Bool × Bool :=
  let now := present d
  if floor && decide (cap < predOf l (3, 1)) then ((3, 1), true, true)
  else if cap < predOf l now then (let (s, f) := lowering cap l; (s, true, f))
  else if now = (0, 16) then (now, false, false)
  else
    let up := raised now
    if l.mean ≤ cap ∧ 100 * predOf l up ≤ 97 * cap then (up, false, false) else (now, true, false)

/-- The rails of which a limit is watched for current (17 R518). -/
def edcRails : List Nat := [0, 1, 2, 3, 4]

/-- The calibrated current of a rail at this step. -/
def ampsOf (l : StepLoad) (r : Nat) : Nat := ((l.amps.find? fun e => e.1 == r).map (·.2)).getD 0

/-- Counts steps above 90% of a rail's limit (17 R518). -/
def edcCount (d : Dev) (l : StepLoad) (r : Nat) : Nat :=
  if 90 * railLimit d r < 100 * ampsOf l r then Sparse.get zeroCnt d.pw.edcRun r + 1 else 0

/-- Does VRTEMP hold: a phase at 125 °C or more, or a rail whose limit is below its load (17 R519; 01 R33)? -/
def vrTemp (d : Dev) (l : StepLoad) : Bool :=
  (upto 12).any fun r => decide (125 ≤ regFld d (railOff r 0) 31 24) || decide (railLimit d r < ampsOf l r)

/-- A limit on the setting: one that is not to be exceeded, its reason, and whether the reason is set also where the setting asked for
is as slow. -/
structure Limit where
  bound : Nat × Nat
  why : Nat
  always : Bool
  deriving DecidableEq, Repr

/-- The limits of a step (17 R513, R518 to R521; 19 R575). While EDC, THERM or VRTEMP lowers the setting its reason is set, whatever is
asked for (R518, R519, R521). -/
def limits (d : Dev) (l : StepLoad) (edc : Bool) : List Limit :=
  let now := present d
  (if edc then [⟨(min 3 (now.1 + 1), now.2), 2, true⟩] else []) ++
    (if anyHot d then [⟨lowered now, 4, true⟩] else if d.pw.thermHold then [⟨now, 4, false⟩] else []) ++
    (if vrTemp d l then [⟨lowered now, 0x20, true⟩] else []) ++
    (if d.pw.crit then [⟨(3, 1), 4, true⟩] else []) ++
    (if regFld d (regOff 5 0x28 0 0) 3 0 == 11 && regFld d (regOff 5 0x28 0 0) 9 9 == 0 then [⟨(3, 16), 0, false⟩] else [])

/-- A setting under limits, and the reasons of those that constrain it or are set in any case. -/
def limited (s : Nat × Nat) (ls : List Limit) : (Nat × Nat) × Nat :=
  let r := ls.foldl (fun a e => slower a e.bound) s
  (r, (ls.filter fun e => e.always || decide (rank s < rank e.bound)).foldl (fun m e => m ||| e.why) 0)

/-- A partition's level (17 R515), and whether its cap constrains it. -/
def partStep (d : Dev) (x : PartLoad) : Nat × Bool :=
  let cap := regFld d (regOff 5 6 x.part 1) 12 0
  let k := partLevel d x.part
  let pred := fun k => listGet 0 x.pred (k - 1)
  if cap = 0 then (16, false)
  else if cap < x.rate then ((((upto 16).map (16 - ·)).find? fun k => decide (pred k ≤ cap)).getD 1, true)
  else if k = 16 then (16, false)
  else if 100 * pred (k + 1) ≤ 97 * cap then (k + 1, false) else (k, true)

/-- Writes the levels of the partitions; whether some cap constrains. -/
def partSteps (d : Dev) (l : StepLoad) : Dev × Bool :=
  (upto 16).foldl (fun a p =>
    let x := (l.parts.find? fun x => x.part == p).getD ⟨p, 0, []⟩
    let (k, c) := partStep d x
    (setRegFld a.1 (regOff 5 6 p 1) 20 16 k, a.2 || c)) (d, false)

/-- No partition cap is enforced in host-assisted mode: every partition's level is 16 (17 R515, R516). -/
def freeParts (d : Dev) : Dev := (upto 16).foldl (fun d p => setRegFld d (regOff 5 6 p 1) 20 16 16) d

/-- Stores the temperatures read (17 R520): `valid` keeps what calibration said of a source that is present. -/
def readTemps (d : Dev) (l : StepLoad) : Dev :=
  l.temps.foldl (fun d t =>
    let o := thmOff t.1 t.2.1
    let d := setRegFld d o 11 0 (wrapInt 12 t.2.2.1)
    if t.2.2.2 then d else setRegFld d o 12 12 0) d

/-- The PWR registers that apply at a control step (17 R534): all but STATE, whose target has rows of its own. -/
def pwrBits (_ : Dev) (off : Nat) : Word32 := if offReg off = 1 then 0 else allBits

/-- PART.CAP. -/
def capBits (_ : Dev) (off : Nat) : Word32 := if offReg off = 1 then allBits else 0

/-- FN.MODE `power` of the package. -/
def powerModeBits (_ : Dev) (_ : Nat) : Word32 := 0x40

/-- The boundaries that a control step is (17 R534; 02 R56). -/
def stepBoundary (d : Dev) : Dev :=
  let d := boundary d (offInstance (pwrOff 0)) pwrBits
  let d := (upto 16).foldl (fun d p => boundary d (offInstance (regOff 5 6 p 0)) capBits) d
  boundary d (offInstance (fnOff 5)) powerModeBits

/-- Is the package in host-assisted mode of `power`? -/
def hostPower (d : Dev) : Bool := regFld d (fnOff 5) 6 6 == 1

/-- The setting that a step asks for before limits, whether a cap constrains it, whether it is the floor. In host-assisted mode
it is that of PWR.OP; in a brace the governor works within the brace cap in either mode (17 R516, R524). -/
def asked (d : Dev) (l : StepLoad) : (Nat × Nat) × Bool × Bool :=
  let floor := d.pw.why.testBit 7
  let host := (regFld d (pwrOff 2) 1 0, regFld d (pwrOff 2) 6 2)
  if !hostPower d then governed d l (effectiveCap d) floor
  else if d.pw.brace.isSome then
    (let (s, c, f) := governed d l (min 4200 (regFld d (pwrOff 3) 12 0)) floor
     (slower s host, c, f))
  else (host, if l.windowEnd then decide (effectiveCap d < l.mean) else d.pw.why.testBit 0, false)

/-- CAPFLOOR is entered (17 R514). -/
def enterFloor (d : Dev) : Dev := healthEvent (raiseChime (alertFlag d 0) 4817) 0x0E 5 0 0

/-- The package as the governor finds it at a control step, and whether some rail has been above 90% for four steps: the
boundary, the readings, the end of a brace (17 R511, R518 to R521, R525). -/
def stepStart (d : Dev) (l : StepLoad) : Dev × Bool :=
  let d := stepBoundary d
  let d := setRegFld (readTemps d l) (pwrOff 6) 15 0 (min 0xFFFF l.estimate)
  let d := if d.pw.brace.isSome && !d.pw.holdup && (d.pw.vin == .normal || d.pw.vin == .high) && l.vinSteady then endBrace d else d
  let runs := edcRails.map fun r => (r, edcCount d l r)
  (setPw d fun p => { p with
    edcRun := runs.foldl (fun m e => Sparse.set zeroCnt m e.1 (if 4 ≤ e.2 then 0 else e.2)) p.edcRun
    thermHold := anyHot d || (p.thermHold && !allCool d 3)
    crit := p.crit && anyHot d }, runs.any fun e => decide (4 ≤ e.2))

/-- The governor's choice: what it asks for under the limits, the partitions' levels, the reasons (17 R511 to R524). -/
def governorActs (d : Dev) (l : StepLoad) (edc : Bool) : Dev :=
  let (s, cap, floor) := asked d l
  let (r, why) := limited s (limits d l edc)
  let (d, pcap) := if hostPower d then (freeParts d, false) else partSteps d l
  let above := hostPower d && l.windowEnd && decide (effectiveCap d < l.mean) && d.pw.brace.isNone
  let d := if above then raiseChime d 4480 else d
  let was := d.pw.why.testBit 7
  let d := setPw d fun p => { p with why := why ||| b2n (cap || pcap) ||| (if floor then 0x80 else 0) }
  let d := if floor && !was then enterFloor d else d
  pwDecide d r

/-- The control step of the power unit, every 2,125 P-cycles (17 R511 to R525). -/
def controlStep (d : Dev) (l : StepLoad) : Dev :=
  let (d, edc) := stepStart d l
  governorActs d l edc

/-- POWER_CONTROL_STEP. -/
def execPowerControlStep (load : StepLoad) (s : State) : Out := act s fun d => withReasons d (controlStep d load)

/-! Changes of operating point. -/

/-- Every VCD rail reports its new set point (17 R510). -/
def execVoltageSettled (s : State) : Out := act s fun d =>
  match d.pw.change with
  | some c => if c.stage = .rising then setPw d fun p => { p with change := some { c with stage := .ready } } else d
  | none => d

/-- The new divisor goes to every die, and the ports drain and go quiet (15 R470, R471). -/
def execDivisorChange (s : State) : Out := act s fun d =>
  match d.pw.change with
  | some c =>
    if c.stage ≠ .ready then d else
    (dies d).foldl (fun d c => setRegFld d (clkOff c 0) 4 4 1)
      (setPw d fun p => { p with change := some { c with stage := .gap } })
  | none => d

/-- The root periods of an A-cycle at a divisor code (15 R454, R478). -/
def divisorOf (code : Nat) : Nat :=
  match code with
  | 0 => 4
  | 1 => 5
  | 2 => 6
  | _ => 8

/-- The rest level of a tile: min(k, k_p) (17 R515). -/
def tileLevel (d : Dev) (c t : Nat) : Nat := min (levelOf d c) (partLevel d (tilePart d c t))

/-- Is tile t clocked in slot s at level k: (s − t) mod 16 < k (17 R512)? -/
def clocked (s t k : Nat) : Bool := decide ((s + 16 - t % 16) % 16 < k)

/-- Gates the tiles of a CD for a slot. -/
def gateTiles (d : Dev) (c s : Nat) : Dev :=
  (upto 180).foldl (fun d t =>
    let x := tileOf d c t
    setTile d c t { x with gated := !clocked s t (tileLevel d c t) }) d

/-- Each die has changed divisor and its ports resume (15 R470, R471; 17 R510, R512): `misses` names dies and the cadence
requests that were in flight to them across the gap. The new level takes effect, slots count afresh, and a decision that
waited is applied. -/
def execDivisorChangeComplete (misses : List (Nat × Nat)) (s : State) : Out := act s fun d =>
  match d.pw.change with
  | some c =>
    if c.stage ≠ .gap then d else
    let e := (dies d).foldl (fun d i =>
      let o := clkOff i 0
      setFlag (setRegFld (setRegFld d o 4 4 0) o 1 0 c.op) (clkOff i 1) 2) d
    let e := setPw e fun p => { p with
      op := c.op, k := c.k, change := none
      level := (upto 4).foldl (fun m i => Sparse.set noRest m i c.k) p.level, slot := [] }
    let e := ((upto 4).filter (cdFitted e.variant)).foldl (fun d c => gateTiles d c 0) e
    let e := misses.foldl (fun d m => cadMisses m.2 d m.1 3) e
    withReasons d (match e.pw.next with
      | some s => pwDecide (setPw e fun p => { p with next := none }) s
      | none => e)
  | none => d

/-- A forced-rest slot of a CD ends (17 R512): a new level takes effect, but for one that comes with a divisor change. -/
def execRestSlotBoundary (cd : Nat) (s : State) : Out := act s fun d0 =>
  let d := d0
  if !cdFitted d.variant cd then d else
  let n := (Sparse.get zeroCnt d.pw.slot cd + 1) % 16
  let k := d.pw.k
  let d := setPw d fun p => { p with slot := Sparse.set zeroCnt p.slot cd n, level := Sparse.set noRest p.level cd k }
  withReasons d0 (gateTiles d cd n)

end Sys2Proof.Machine
end

