-- ==== Sys2Proof/Machine/Clock.lean ====
section
/-! DEFINITION. Clocks, telemetry and limits (15 R455, R456, R468; 16 R500; 17 R506 to R521). -/

namespace Sys2Proof.Machine

open Parts

/-! Reference and locks. -/

/-- Eight ROOTCLK edges are missing (15 R455; 17 R537; 19 R589): every PLL goes into holdover and the links go down. -/
def execRootclkLoss (s : State) : Out := act s fun d =>
  if regFld d (clkOff 4 0) 3 3 = 1 then d else
  let d := (dies d).foldl (fun d c => setFlag (setRegFld (setRegFld d (clkOff c 0) 3 3 1) (clkOff c 0) 2 2 0) (clkOff c 1) 0) d
  let d := (upto 48).foldl (fun d ch => setLink d ch 0) d
  healthEvent (alertFlag d 2) 3 5 0 0

/-- A die's PLL declares lock (15 R454, R475; 20 R605): ACNT, PCNT and the trace sequence are zero, and every clock has an edge. -/
def declareLock (d : Dev) (die : Nat) : Dev :=
  let d := [2, 3, 4, 5].foldl (fun d r => setReg d (clkOff die r) 0) (setRegFld d (clkOff die 0) 2 2 1)
  let d := setTrace d die { traceOf d die with seq := 0 }
  setPw d fun p => { p with
    acnt := Sparse.set (fun _ => (0 : Word64)) p.acnt die 0
    phase := Sparse.set zeroCnt p.phase die 0 }

/-- ROOTCLK returns (15 R455, R475): the PLLs slew back to lock; channels train again by their own commands. -/
def execRootclkReturn (s : State) : Out := act s fun d =>
  (dies d).foldl (fun d c =>
    if regFld d (clkOff c 0) 3 3 = 0 then d
    else declareLock (setRegFld d (clkOff c 0) 3 3 0) c) d

/-- A die's PLL loses lock otherwise than by reference loss: every clock it derives stops (15 R456). -/
def execPllUnlock (die : Nat) (s : State) : Out := act s fun d =>
  if !(dies d).contains die || d.pw.stopped.contains die then d
  else setPw (setRegFld d (clkOff die 0) 2 2 0) fun p => { p with stopped := p.stopped ++ [die] }

/-- HOP.STATUS of a channel. -/
def hopOff (ch : Nat) : Nat := regOff 4 0x1C ch 0

/-- The flight of a direct link that is UP is measured (15 R468, R480). -/
def execFlightMeasurement (ch f : Nat) (s : State) : Out := act s fun d =>
  if (chanOf d ch).link != 2 || !isDirect d ch then d else
  let f := min 4095 f
  let above := decide (680 < f)
  setReg d (hopOff ch) (BitVec.ofNat 32 (f + 2 ^ 12 + b2n above * 2 ^ 13 + b2n (!above) * 2 ^ 14))

/-- A class has found no credit at a level for 256 HD A-cycles (16 R500): its `sat` bit, the flag and the chime. -/
def execLevelSaturation (level cls : Nat) (s : State) : Out := act s fun d =>
  let o := lvlOff level 1
  if 4 ≤ level ∨ 4 ≤ cls ∨ regFld d o cls cls = 1 then d
  else raiseChime (setFlag (setRegFld d o cls cls 1) (lvlOff level 2) 0) (4812 + level)

/-! Telemetry and estimates. -/

/-- Every 50 µs the base layer reports each rail and VIN (17 R506, R536). -/
def execRailTelemetry (samples : List RailSample) (s : State) : Out := act s fun d =>
  samples.foldl (fun d x =>
    if 13 ≤ x.rail then d else
    let d := setReg d (railOff x.rail 0) (BitVec.ofNat 32 (min 4095 x.volts + min 4095 x.amps * 2 ^ 12 + min 255 x.temp * 2 ^ 24))
    if x.rail = 12 then setRegFld d (pwrOff 6) 31 16 (min 0xFFFF (x.volts * x.amps / 100)) else d) d

/-- The rails that a die draws on (01, base layer): VCDc a CD, VHC the HD. -/
def railOfDie (die : Nat) : Nat := if die < 4 then die else 4

/-- Adds charges to toll counters (17 R531): `off` names the counter. -/
def chargeAll (off : Nat → Nat) (l : List (Nat × Nat)) (d : Dev) : Dev := l.foldl (fun d e => addCtr d (off e.1) e.2) d

/-- A TOLL counter of a queue; of a partition, 16 the shared one. -/
def tollQueue (q : Nat) : Nat := regOff (queueCd q) 0x21 (q % 1024) 0
/-- The counter of a partition. -/
def tollPart (p : Nat) : Nat := regOff 5 0x21 p 0

/-- Is a die stretching: for droop or for current (17 R517, R518)? -/
def settleStretch (d : Dev) (die : Nat) : Dev :=
  setRegFld d (clkOff die 0) 5 5 (b2n (droopOf d die != 0 || d.pw.edc.contains die))

/-- Every 256 A-cycles a die forms its estimates (17 R507, R518, R531): energy is charged to queues, to partitions and to the
shared counter; a calibrated current of `amps` above the limit of its rail stretches the die for the next 256 A-cycles. -/
def execEnergyEstimate (die : Nat) (charges : Charges) (amps : Nat) (s : State) : Out := act s fun d =>
  if !(dies d).contains die then d else
  let e := chargeAll tollQueue charges.queues d
  let e := chargeAll tollPart (charges.queues.map fun q => (qPart d q.1, q.2)) e
  let e := addCtr (chargeAll tollPart charges.parts e) (tollPart 16) charges.shared
  let above := decide (railLimit d (railOfDie die) < amps)
  let rest := e.pw.edc.filter (· != die)
  let e := setPw e fun p => { p with edc := if above then rest ++ [die] else rest }
  withReasons d (settleStretch e die)

/-- Every 10 ms gain and offset of each rail are fitted (17 R508): a fit that is not accepted leaves them and sets `f_cal`. -/
def execCalibrationFit (fits : List RailFit) (s : State) : Out := act s fun d =>
  if !powered d then d else
  fits.foldl (fun d x =>
    if 12 ≤ x.rail then d
    else if 12288 ≤ x.gain ∧ 100 * x.gain ≤ 133 * 16384 ∧ x.close then
      setReg d (railOff x.rail 1) (BitVec.ofNat 32 (x.gain + wrapInt 16 x.offset * 2 ^ 16))
    else setFlag d (pwrOff 8) 0) d

/-! Droop, temperature. -/

/-- The droop detectors of a die (17 R517). -/
def detectors (die : Nat) : Nat := if die < 4 then 8 else 4

/-- Stores the detectors that have tripped. -/
def setDroop (d : Dev) (die m : Nat) : Dev :=
  settleStretch (setPw d fun p => { p with droop := Sparse.set zeroCnt p.droop die m }) die

/-- A droop detector trips: its die begins to stretch (17 R517). -/
def execDroopTrip (die det : Nat) (s : State) : Out := act s fun d =>
  if !(dies d).contains die || decide (detectors die ≤ det) then d
  else withReasons d (setDroop d die (droopOf d die ||| 1 <<< det))

/-- A droop detector releases (17 R517). -/
def execDroopRelease (die det : Nat) (s : State) : Out := act s fun d =>
  if !(dies d).contains die || decide (detectors die ≤ det) then d
  else withReasons d (setDroop d die (droopOf d die &&& (255 - 1 <<< det)))

/-- A source reaches its critical temperature (17 R521; 19 R589): OP 3 with k = 1 at once. -/
def execThermalCritical (die sensor : Nat) (s : State) : Out := act s fun d =>
  if !(dies d).contains die then d else
  let e := setPw d fun p => { p with crit := true, why := p.why ||| 4 }
  let e := healthEvent (raiseChime (alertFlag e 1) 4818) 9 die sensor 0
  withReasons d (pwDecide e (3, 1))

/-- A source stays at its trip temperature for 1 ms: the package stops, after a health event (17 R521, R526). -/
def execThermtrip (die sensor : Nat) (s : State) : Out := act s fun d =>
  if powered d then stop (healthEvent d 9 die sensor 0) 4 else d

/-- A regulator phase is shed (01 R32; 17 R537; 19 R589). -/
def execPhaseShed (rail : Nat) (s : State) : Out := act s fun d =>
  if 12 ≤ rail ∨ (railTable rail).1 ≤ railLost d rail then d else
  let d := setPw d fun p => { p with lost := Sparse.set zeroCnt p.lost rail (railLost d rail + 1) }
  healthEvent (alertFlag d 3) 2 5 rail 0

end Sys2Proof.Machine
end

