-- ==== Sys2Proof/Machine/Supply.lean ====
section
/-! DEFINITION. Supply, brace, wake and power states (01 R31; 17 R523 to R530; 21 R625). -/

namespace Sys2Proof.Machine

open Parts

/-! Wake and AUX. -/

/-- The VPM stage is enabled, and the package waystation will boot (01 R31), with nothing left of what rails that were off might have
held (17 R526). -/
def wakeUp (d : Dev) : Dev := setPw (stop d d.pw.cause) fun p => { p with vpm := true, wakeHeld := false }

/-- WAKE is asserted for 1 ms (01 R31; 17 R530; 19 R576; 21 R625): ignored but in Dormant, and without AUX; held while VIN is
below 10.8 V. -/
def execWakeAssert (s : State) : Out := act s fun d =>
  if powered d || !d.pw.aux then d
  else if d.pw.vin == .normal || d.pw.vin == .high then wakeUp d
  else setPw d fun p => { p with wakeHeld := true }

/-- AUX is lost (21 R625): WAKE and HOLDUP# are not sensed, ALERT# floats, the latched cause is gone. -/
def execAuxLoss (s : State) : Out := act s fun d =>
  setPw d fun p => { p with aux := false, cause := 0, lastStop := p.lastStop, wakeHeld := false }

/-- 1 ms after AUX has returned (21 R625). -/
def execAuxReturn (s : State) : Out := act s fun d => setPw d fun p => { p with aux := true }

/-! VIN and HOLDUP#. -/

/-- VIN above 14.0 V for 10 µs (17 R523). -/
def execVinOver (s : State) : Out := act s fun d =>
  let d := setPw d fun p => { p with vin := .high }
  if powered d then stop d 3 else d

/-- VIN below 8.8 V for 10 µs, or below 10.2 V for 20 ms in total (17 R523). -/
def execVinUnder (s : State) : Out := act s fun d =>
  let d := setPw d fun p => { p with vin := .sag }
  if powered d then stop d 2 else d

/-- VIN below 10.2 V for 2 µs (17 R523, R524); where it was in its normal range it has left it (17 R537). -/
def execVinSag (s : State) : Out := act s fun d =>
  let e := setPw d fun p => { p with vin := .sag }
  let e := if powered d && d.pw.vin == .normal then alertFlag e 5 else e
  if d.pw.on then withReasons d (enterBrace e false) else e

/-- VIN reaches 10.8 V (01 R31; 17 R523): a WAKE that was held takes effect. -/
def execVinRise (s : State) : Out := act s fun d =>
  let d := setPw d fun p => { p with vin := .normal }
  if d.pw.wakeHeld && !powered d then wakeUp d else d

/-- VIN leaves its normal range without a brace (17 R523, R537): `high` tells which way. -/
def execVinLeavesNormalRange (high : Bool) (s : State) : Out := act s fun d =>
  let d := setPw d fun p => { p with vin := if high then .high else .low }
  if powered d then alertFlag d 5 else d

/-- HOLDUP# has been low for two P-cycles (17 R524, R525; 21 R625): ignored in Dormant and without AUX; during boot it holds
the rails; a new assertion during a brace changes nothing of it. -/
def execHoldupAssert (s : State) : Out := act s fun d =>
  if !d.pw.aux then d else
  let e := setPw d fun p => { p with holdup := true }
  if d.pw.on then withReasons d (enterBrace e true) else e

/-- HOLDUP# is deasserted (17 R525): a brace may end at a later control step, a boot that was held goes on. -/
def execHoldupDeassert (s : State) : Out := act s fun d => setPw d fun p => { p with holdup := false }

/-- The checkpoint window closes while the brace continues (17 R525, R526; 19 R589): the end action. -/
def execBraceWindowClose (s : State) : Out := act s fun d =>
  match d.pw.brace with
  | none => d
  | some b =>
    if !b.window then d else
    let e := setPw d fun p => { p with brace := some { b with window := false } }
    match regFld d (pwrOff 3) 29 28 with
    | 1 => enterRest e
    | 2 => stop (healthEvent e 0x0A 5 0 0) 5
    | _ => e

/-! Power states. -/

/-- PWR.STATE. -/
def stateBits (_ : Dev) (off : Nat) : Word32 := if offReg off = 1 then 3 else 0

/-- Does a write of PWR.STATE wait? -/
def targetWaits (d : Dev) : Bool := (regBuf d (pwrOff 1)).mask != 0 || d.rg.mgmt.any fun w => w.off == pwrOff 1

/-- A `target` that waits applies at a control step, if it is `t`; `f` acts on it (17 R529, R530). -/
def applyTarget (d : Dev) (t : Nat) (f : Dev → Dev) : Dev :=
  if !targetWaits d then d else
  let e := boundary d (offInstance (pwrOff 0)) stateBits
  if regFld e (pwrOff 1) 1 0 = t then f e else d

/-- Target RUN (17 R529): it leaves Rest through LEAVING_REST. -/
def execPwrStateRun (s : State) : Out := act s fun d =>
  applyTarget d 0 fun d =>
    let d := setPw d fun p => { p with restLater := false }
    if pwrState d = 2 ∨ pwrState d = 3 then setPwrState d 4 else d

/-- Target REST (17 R529). -/
def execPwrStateRest (s : State) : Out := act s fun d => applyTarget d 1 enterRest

/-- Target DORMANT (17 R530; 19 R589): a health event, and the links go down. -/
def execPwrStateDormant (s : State) : Out := act s fun d =>
  applyTarget d 2 fun d =>
    let d := setPwrState (healthEvent d 0x0A 5 0 0) 5
    (upto 48).foldl (fun d ch => setLink d ch 0) d

/-- The stop that follows ENTERING_DORMANT (17 R530). -/
def execDormantStop (s : State) : Out := act s fun d => if pwrState d = 5 then stop d 1 else d

/-- Changes every tile of the CDs fitted. -/
def mapTiles (d : Dev) (f : Tile → Tile) : Dev :=
  ((upto 4).filter (cdFitted d.variant)).foldl (fun d c =>
    (upto 180).foldl (fun d t => setTile d c t (f (tileOf d c t))) d) d

/-- Is every tile in retention that is not retired or lost with its CD? -/
def allRetained (d : Dev) : Bool :=
  ((upto 4).filter fun c => cdFitted d.variant c && !d.mem.lost.contains c).all fun c =>
    (upto 180).all fun t => (tileOf d c t).retention || tileRetired d c t

/-- An idle tile goes into retention on the way to Rest (17 R529); with the last one Rest is reached. -/
def execTileRetention (cd tile : Nat) (s : State) : Out := act s fun d =>
  let x := tileOf d cd tile
  if pwrState d != 3 || !cdFitted d.variant cd || decide (180 ≤ tile) || x.blocks != [] || movesTouch d cd tile then d else
  let d := setTile d cd tile { x with retention := true }
  if allRetained d then setPwrState d 2 else d

/-- Rest has not been reached in 100 ms (17 R529). -/
def execRestEntryTimeout (s : State) : Out := act s fun d =>
  if pwrState d ≠ 3 then d
  else setFlag (setPwrState (mapTiles d fun x => { x with retention := false }) 0) (pwrOff 8) 1

/-- Every tile is out of retention (17 R529): RUN, or Rest again where a target REST came meanwhile. -/
def execRetentionExitDone (s : State) : Out := act s fun d =>
  if pwrState d ≠ 4 then d else
  let d := mapTiles d fun x => { x with retention := false }
  let d := (upto 4).foldl (fun d c => setFt d c { ftOf d c with selfRefresh := [] }) d
  if d.pw.restLater then setPwrState (setPw d fun p => { p with restLater := false }) 3 else setPwrState d 0

/-- An HBM controller has had no access for 1 ms in Rest (17 R529). -/
def execSelfRefreshEntry (cd chan : Nat) (s : State) : Out := act s fun d =>
  let f := ftOf d cd
  if pwrState d != 2 || !cdFitted d.variant cd || decide (1 < chanState d cd chan) then d
  else setFt d cd { f with selfRefresh := Sparse.set hwScrub f.selfRefresh chan true }

/-- Is something to be done: a block resident, or a queue in RUN? -/
def busy (d : Dev) : Bool := (d.tiles.any fun e => e.2.blocks != []) || d.qs.any fun e => e.2.state == .run

/-- Every tile and dispatcher has been gated for 10 ms (17 R527). -/
def execIdleEntry (s : State) : Out := act s fun d => if pwrState d = 0 ∧ busy d = false then setPwrState d 1 else d

/-- Work ends Idle (17 R527). -/
def leaveIdle (d : Dev) : Dev := if pwrState d = 1 ∧ busy d then setPwrState d 0 else d

end Sys2Proof.Machine
end

