-- ==== Sys2Proof/Machine/Sentry.lean ====
section
/-! DEFINITION. Sentries, the loss of a die and its return (18 R543 to R549; 12 R382). -/

namespace Sys2Proof.Machine

open Parts

/-- Does a die send nothing: its clocks have stopped, or it has no power? -/
def silent (d : Dev) (die : Nat) : Bool := d.pw.stopped.contains die || !(dies d).contains die

/-- A heartbeat is due from a sentry (18 R543): its peer's sentry hears it, or misses one more period. -/
def execSentryHeartbeat (die inst : Nat) (s : State) : Out := act s fun d =>
  if !isPort d die inst then d else
  let p := peerPort die inst
  if !isPort d p.1 p.2 || silent d p.1 then d else
  let o := sentOff p.1 p.2 0
  if silent d die then setRegFld d o 5 1 (min 16 (regFld d o 5 1 + 1))
  else
    let st := (portOf d p.1 p.2).state
    let d := setRegFld d o 5 1 0
    if st = 2 ∨ st = 3 then setRegFld d o 0 0 1 else d

/-- A sentry declares its peer down (18 R543 to R547; 19 R589): the port goes to DOWN, flags and chime tell, accesses to the
peer end. -/
def declareDown (d : Dev) (die inst : Nat) (unacked : Bool) : Dev :=
  let p := peerPort die inst
  let hung := d.pw.stopped.contains p.1
  let x := portOf d die inst
  let d := setPort d die inst { x with state := 0, version := 0 }
  let o := sentOff die inst 0
  let d := setFlag (setRegFld d o 0 0 0) (o + 4) 0
  let d := flagIf hung (flagIf unacked d (o + 4) 1) (o + 4) 2
  let d := raiseChime d (portChime die inst)
  let known := d.mem.lost.contains p.1 || d.mem.cut.contains (p.1 ^^^ 1)
  let d := if p.1 < 4 ∧ known = false then healthEvent d 7 p.1 0 0 else d
  if die = 4 then loseCd d inst else if inst = 1 then cutCd d die else loseHd d die

/-- 4,096 A-cycles have passed without a heartbeat (18 R543). -/
def execHeartbeatSilenceExpiry (die inst : Nat) (s : State) : Out := act s fun d =>
  let o := sentOff die inst 0
  if isPort d die inst && regFld d o 5 1 == 16 && regFld d o 0 0 == 1 && !silent d die then declareDown d die inst false else d

/-- A beat has been unacknowledged for 16,384 A-cycles (18 R543). -/
def execUnackedBeatExpiry (die inst : Nat) (s : State) : Out := act s fun d =>
  if isPort d die inst && regFld d (sentOff die inst 0) 0 0 == 1 && !silent d die then declareDown d die inst true else d

/-! Return. -/

/-- The bit of a voted register that a rejoining CD does not get back: Q.CTRL `enable` (18 R548). -/
def keepShadow (off : Nat) (v : Word32) : Word32 := if offUnit off = 1 ∧ offReg off = 2 then v &&& 0xFFFFFFFE else v

/-- The reset value of a register as the waystation's shadow has it. -/
def shadowOf (d : Dev) (off : Nat) : Word32 := Sparse.get regReset d.sv.shadow off

/-- The registers of a CD after its reset (18 R548): reset values, the clock unit and the toll
counters (17 R531) as they are; the restoration of the voted fields from the shadow is buffered (03 R85). -/
def resetRegs (d : Dev) (c : Nat) : Dev :=
  let gone := fun off => offDie off == c && offUnit off != 0x1A && offUnit off != 0x21
  let d := { d with rg := { d.rg with
      val := d.rg.val.filter fun e => !gone e.1
      buf := d.rg.buf.filter fun e => !gone e.1
      votes := d.rg.votes.filter fun e => !gone e.1
      dis := d.rg.dis.filter fun e => !gone e.1 } }
  (d.sv.shadow.filter fun e => gone e.1).foldl (fun d e =>
    bufferWrite d e.1 0 (keepShadow e.1 e.2) (votedBits e.1)) d

/-- Has a valid repair map been applied at boot (19 R599)? -/
def repairOk (d : Dev) : Bool := regFld d (regOff 5 0x28 0 0) 8 8 == 1

/-- WEAR.TILE and the retirements of a CD from the repair map (18 R553, R565). -/
def loadTiles (d : Dev) (c : Nat) : Dev :=
  if !repairOk d then d else
  (d.fl.tiles.filter fun e => e.1 / 192 == c).foldl (fun d e =>
    let d := setReg d (wearTile c (e.1 % 192)) e.2
    if fld e.2 25 24 = 2 ∧ fld e.2 23 16 < 180 then
      setTile d c (fld e.2 23 16) { tileOf d c (fld e.2 23 16) with retired := true } else d) d

/-- Does a physical address belong to the windows of a CD? -/
def inWindows (c pa : Nat) : Bool := decide (windowBase c ≤ pa ∧ pa < windowBase c + 0x10000000000)

/-- Does a byte or a line of storage belong to a CD? -/
def ownedBy (d : Dev) (c pa : Nat) : Bool := inWindows c pa || lineOn d c (pa / 64)

/-- The storage of a CD that rejoins (18 R548): every sector poisoned, the well zeroed at its boot assignment, tile memory
empty; the repair map's far tier (10 R336). -/
def resetStorage (d : Dev) (c : Nat) : Dev :=
  let m := d.mem
  let d := { d with mem := { m with
      bytes := m.bytes.filter fun e => !ownedBy d c e.1
      poison := m.poison.filter fun e => !ownedBy d c (e.1 * 64)
      lines := m.lines.filter fun e => !lineOn d c e.1
      rewr := m.rewr.filter fun ln => !ownedBy d c (ln * 64)
      wells := m.wells.filter fun e => e.1 != c
      ft := m.ft.filter fun e => e.1 != c
      lost := m.lost.filter (· != c)
      stale := m.stale.filter (· != c) ++ [c]
      cut := m.cut.filter fun k => k != c && k != c ^^^ 1 } }
  if repairOk d then setFt d c (Sparse.get noFt d.fl.ft c) else d

/-- The units of a CD after its reset (18 R548): queues DISABLED, gongs zero, tiles, drovers, translation empty. -/
def resetUnits (d : Dev) (c : Nat) : Dev :=
  let d := { d with
    qs := d.qs.filter fun e => queueCd e.1 != c
    disp := d.disp.filter fun e => e.1 != c
    tiles := d.tiles.filter fun e => e.1 / 180 != c
    drv := d.drv.filter fun e => e.1 / 1024 != c
    reds := d.reds.filter fun r => !lineOn d c r.line && (match r.owner with
      | .move m => m.drover / 1024 != c
      | .msg _ _ _ => true) }
  let d := { d with xl := { d.xl with
      inst := d.xl.inst.filter fun e => e.1 != c
      stream := d.xl.stream.filter fun e => e.1 != c
      tile := d.xl.tile.filter fun e => e.1 / 180 != c } }
  let mine := fun (w : Who) => match w with
    | .queue q => queueCd q == c
    | .path k _ _ _ => k == c
    | _ => false
  { d with gg := { d.gg with
      val := d.gg.val.filter fun e => gongCd e.1 != c
      upd := d.gg.upd.filter fun u => gongCd u.gong != c && !mine u.who
      wait := d.gg.wait.filter fun w => gongCd w.gong != c && !mine w.who } }

/-- What a CD keeps of its background work is gone with it (18 R548): swaps under way, failures seen, retrains, calibrations,
trace records. -/
def resetService (d : Dev) (c : Nat) : Dev :=
  let v := d.sv
  let d := setTrace d c { traceOf d c with buf := [], dropped := 0 }
  { d with sv := { v with
      swaps := v.swaps.filter fun e => e.1 != c
      tries := v.tries.filter fun e => e.1 != c
      turn := v.turn.filter fun e => e.1 != c
      good := v.good.filter fun e => e.1 / 32 != c
      failed := v.failed.filter fun k => k / 192 != c } }

/-- Both sentries of a link declare each other up. -/
def declareUp (d : Dev) (die inst : Nat) : Dev :=
  let p := peerPort die inst
  if portUp d die inst && portUp d p.1 p.2 then setReg (setReg d (sentOff die inst 0) 1) (sentOff p.1 p.2 0) 1 else d

/-- A CD that was reset or lost its clock rejoins once its H-port has trained (18 R548; 19 R589). -/
def execCdRejoin (cd : Nat) (s : State) : Out := act s fun d =>
  if !cdFitted d.variant cd || !(d.pw.stopped.contains cd || d.mem.lost.contains cd) ||
    !portUp d cd 0 || !portUp d 4 cd then d else
  let was := d.pw.stopped.contains cd
  let d := resetUnits (resetStorage (dropHomes (dropCopies d cd) cd) cd) cd
  let d := loadTiles (resetRegs (resetService d cd) cd) cd
  let d := setPw d fun p => { p with stopped := p.stopped.filter (· != cd) }
  let d := if was && regFld d (clkOff cd 0) 2 2 == 0 then declareLock d cd else d
  let d := flagIf was d (clkOff cd 1) 1
  let d := declareUp (declareUp d cd 0) cd 1
  healthEvent (raiseChime d (4819 + cd)) 8 cd 0 0

/-- The HD is reset or loses its clock (18 R549): the CDs are reset with it, and boot goes on from its step 3. -/
def execHdReset (s : State) : Out := act s fun d =>
  if !powered d then d else
  let z := stop d 0
  let z := { z with pw := { z.pw with vpm := true, cause := d.pw.cause, lastStop := d.pw.lastStop } }
  let z := flagIf (d.pw.stopped.contains 4) z (clkOff 4 1) 1
  setReg z (regOff 5 0x28 0 0) 2

end Sys2Proof.Machine
end

