-- ==== Sys2Proof/Machine/Wear.lean ====
section
/-! DEFINITION. Wear and spare tiles (18 R550 to R553, R565). -/

namespace Sys2Proof.Machine

open Parts

/-- `WEAR.TILE.state` of a physical tile: 0 active, 1 spare, 2 failed. -/
def wearState (d : Dev) (c p : Nat) : Nat := regFld d (wearTile c p) 25 24

/-- `WEAR.TILE.drift`. -/
def wearDrift (d : Dev) (c p : Nat) : Nat := regFld d (wearTile c p) 15 0

/-- `WEAR.TILE.logical`. -/
def wearLogical (d : Dev) (c p : Nat) : Nat := regFld d (wearTile c p) 23 16

/-- The physical tiles of a CD in a state. -/
def tilesIn (d : Dev) (c st : Nat) : List Nat := (upto 192).filter fun p => wearState d c p == st

/-- The physical tile that holds a logical tile. -/
def holderOf (d : Dev) (c t : Nat) : Option Nat := (tilesIn d c 0).find? fun p => wearLogical d c p == t

/-- Sets what a physical tile holds and its state, and records both in the repair map (18 R553; log entry 29). -/
def placeTile (d : Dev) (c p logical st : Nat) : Dev :=
  let d := setRegFld (setRegFld d (wearTile c p) 23 16 logical) (wearTile c p) 25 24 st
  let key := c * 192 + p
  let v := regRaw d (wearTile c p) &&& 0x3FF0000
  if !idOk d then d else
  { d with fl := { d.fl with tiles := Sparse.set (fun k => regReset (wearTile (k / 192) (k % 192))) d.fl.tiles key v, writes := d.fl.writes + 1 } }

/-- No swap waits. -/
def noSwaps (_ : Nat) : List Swap := []

/-- The swaps of a CD that wait for their tiles. -/
def swapsOf (d : Dev) (c : Nat) : List Swap := Sparse.get noSwaps d.sv.swaps c

/-- Stores the swaps of a CD that wait. -/
def setSwaps (d : Dev) (c : Nat) (l : List Swap) : Dev :=
  { d with sv := { d.sv with swaps := Sparse.set noSwaps d.sv.swaps c l } }

/-- The spares of a CD that no waiting swap names. -/
def freeSpares (d : Dev) (c : Nat) : List Nat := (tilesIn d c 1).filter fun p => !(swapsOf d c).any fun w => w.spare == p

/-- Does a logical tile wait for a swap? -/
def swapWaits (d : Dev) (c t : Nat) : Bool := (swapsOf d c).any fun w => w.logical == t

/-- The tile of least drift in a list, the first among equals. -/
def leastDrift (d : Dev) (c : Nat) (ps : List Nat) : Option Nat :=
  ps.foldl (fun b p => match b with
    | none => some p
    | some q => if wearDrift d c p < wearDrift d c q then some p else some q) none

/-- The tile of greatest drift in a list, the first among equals. -/
def mostDrift (d : Dev) (c : Nat) (ps : List Nat) : Option Nat :=
  ps.foldl (fun b p => match b with
    | none => some p
    | some q => if wearDrift d c q < wearDrift d c p then some p else some q) none

/-- A swap is decided: no new block is placed on its tile (18 R552). -/
def decideSwap (d : Dev) (c t s : Nat) (failed : Bool) : Dev :=
  setSwaps (setTile d c t { tileOf d c t with draining := true }) c (swapsOf d c ++ [⟨t, s, failed⟩])

/-- Is `spare` of a CD host-assisted (02 R57)? -/
def hostSpare (d : Dev) (c : Nat) : Bool := regFld d (fnOff c) 9 9 == 1

/-- Stores the failed tiles that are not yet swapped. -/
def setFailed (d : Dev) (l : List Nat) : Dev := { d with sv := { d.sv with failed := l } }

/-! The measurement. -/

/-- A logical tile whose tile has failed with no spare left is retired (18 R553; 19 R589). -/
def retireTile (d : Dev) (c p : Nat) : Dev :=
  let t := wearLogical d c p
  let d := setFailed (placeTile d c p t 2) (d.sv.failed.filter (· != c * 192 + p))
  let d := setTile d c t { tileOf d c t with retired := true }
  healthEvent (setFlag d (wearOff c 3) 2) 6 c t 0

/-- Serves a failed tile in hardware mode (18 R551, R553): a swap that already waits for it takes it out of service; else the
spare of least drift replaces it; with no spare left it retires, unless a rotation that waits will free one. -/
def serveFailed (d : Dev) (c p : Nat) : Dev :=
  let t := wearLogical d c p
  if swapWaits d c t then
    setSwaps d c ((swapsOf d c).map fun w => if w.logical = t then { w with failed := true } else w)
  else match leastDrift d c (freeSpares d c) with
    | some s => decideSwap d c t s true
    | none => if (swapsOf d c).any fun w => !w.failed then d else retireTile d c p

/-- One monitor's measurement: its drift, and whether the active tile has failed (18 R550). -/
def measureTile (d : Dev) (c : Nat) (m : Drift) : Dev :=
  if 192 ≤ m.tile then d else
  let d := setRegFld d (wearTile c m.tile) 15 0 (min 0xFFFF m.drift)
  let key := c * 192 + m.tile
  let bad := wearState d c m.tile == 0 && (decide (10 * regFld d (wearOff c 0) 23 16 ≤ m.drift) || m.ue)
  if !bad || d.sv.failed.contains key then d else
  let d := setFlag (setFailed d (d.sv.failed ++ [key])) (wearOff c 3) 1
  if hostSpare d c then raiseChime d (4673 + c) else d

/-- Every 10 min the monitors of the powered tiles are read (18 R550, R551); `drifts` is what they show. -/
def execWearMeasurement (cd : Nat) (drifts : List Drift) (s : State) : Out := act s fun d =>
  if !cdFitted d.variant cd || !powered d then d else
  let d := drifts.foldl (fun d m => measureTile d cd m) d
  if hostSpare d cd then d
  else (d.sv.failed.filter fun k => k / 192 == cd).foldl (fun d k => serveFailed d cd (k % 192)) d

/-! Decisions. -/

/-- WEAR.CTRL. -/
def wearCtrlBits (_ : Dev) (off : Nat) : Word32 := if offReg off = 0 then allBits else 0

/-- FN.MODE `spare`. -/
def spareBits (_ : Dev) (_ : Nat) : Word32 := 0x200

/-- The rotation decision, every `interval` hours (18 R551; 02 R56): the boundary of WEAR.CTRL and of `spare`; in hardware mode
the active tile of greatest drift is swapped with the spare of least drift. -/
def execRotationDecision (cd : Nat) (s : State) : Out := act s fun d =>
  if !cdFitted d.variant cd then d else
  let d := boundary d (offInstance (wearOff cd 0)) wearCtrlBits
  let d := boundary d (offInstance (fnOff cd)) spareBits
  if hostSpare d cd then d else
  let active := (tilesIn d cd 0).filter fun p => !swapWaits d cd (wearLogical d cd p)
  match mostDrift d cd active, leastDrift d cd (freeSpares d cd) with
  | some p, some q =>
    if wearDrift d cd q + regFld d (wearOff cd 0) 15 8 ≤ wearDrift d cd p then decideSwap d cd (wearLogical d cd p) q false else d
  | _, _ => d

/-- WEAR.CMD at the next 10 min measurement (18 R551, R563, R565): the swap that it names is decided. -/
def execWearCmd (cd : Nat) (s : State) : Out := act s fun d =>
  let o := wearOff cd 2
  if !cdFitted d.variant cd then d else
  let d := loadMgmt d o allBits
  if (regBuf d o).mask = 0 then d else
  let go := cmdPending d o
  let d := applyField d o allBits
  let t := regFld d o 7 0
  let q := regFld d o 15 8
  let d := setRegFld d o 16 16 0
  if !go then d else
  match holderOf d cd t with
  | none => d
  | some p =>
    if !hostSpare d cd || swapWaits d cd t || !(freeSpares d cd).contains q then d
    else decideSwap d cd t q (d.sv.failed.contains (cd * 192 + p))

/-- A swap whose logical tile is free of blocks and moves takes place (18 R552): a partition move that waits applies first; the
state of the logical tile goes over whole; the TLB and the instruction cache start empty. -/
def execTileSwap (cd tile : Nat) (s : State) : Out := act s fun d =>
  match (swapsOf d cd).find? fun w => w.logical == tile, holderOf d cd tile with
  | some w, some p =>
    if !tileFree d cd tile then d else
    let d := emptyTlb (partitionMove d cd tile) cd tile
    let d := setTile d cd tile { tileOf d cd tile with draining := false, icache := [] }
    let d := placeTile (placeTile d cd w.spare tile 0) cd p 0xFF (if w.failed then 2 else 1)
    let d := setFailed (setSwaps d cd ((swapsOf d cd).erase w)) (d.sv.failed.filter (· != cd * 192 + p))
    setFlag d (wearOff cd 3) 0
  | _, _ => d

end Sys2Proof.Machine
end

