-- ==== Sys2Proof/Machine/Service.lean ====
section
/-! DEFINITION. Background work of live service (18 R538 to R542, R554, R562): retrains, sensor calibration, the telemetry step. -/

namespace Sys2Proof.Machine

open Parts

/-- A register of BG. -/
def bgOff (c reg : Nat) : Nat := regOff c 0x26 0 reg

/-! Retraining. -/

/-- The channels of a CD in order from one on. -/
def channelsFrom (d : Dev) (k : Nat) : List Nat :=
  (upto (ftCount d.variant)).map fun i => (k + i) % ftCount d.variant

/-- A CD starts to retrain its next channel (18 R538, R540): those that are not UP are skipped; none in Rest or Dormant. -/
def execHbmRetrain (cd : Nat) (s : State) : Out := act s fun d =>
  if !cdFitted d.variant cd || regFld d (bgOff cd 0) 7 7 == 1 || pwrState d == 2 || !powered d then d else
  match (channelsFrom d (Sparse.get zeroCnt d.sv.turn cd)).find? fun k => chanState d cd k == 0 with
  | none => d
  | some k =>
    let d := setChan d cd k 1
    let d := { d with sv := { d.sv with turn := Sparse.set zeroCnt d.sv.turn cd ((k + 1) % ftCount d.variant) } }
    setReg d (bgOff cd 0) (BitVec.ofNat 32 (k + 128))

/-- Ends the retrain of a channel. -/
def retrainEnd (d : Dev) (c k : Nat) : Dev :=
  let d := if chanState d c k = 1 then setChan d c k 0 else d
  let d := { d with sv := { d.sv with tries := Sparse.set zeroCnt d.sv.tries c 0 } }
  setReg d (bgOff c 0) 0

/-- A retrain ends (18 R540; 15 R466): `misses` accesses waited for it. A first failure is repeated; a second restores the old
values and sets `f_retrain_fail`. -/
def execHbmRetrainDone (cd : Nat) (ok : Bool) (misses : Nat) (s : State) : Out := act s fun d =>
  if regFld d (bgOff cd 0) 7 7 ≠ 1 then d else
  let k := regFld d (bgOff cd 0) 6 0
  let d := cadMisses misses d cd 1
  if ok then retrainEnd d cd k
  else if Sparse.get zeroCnt d.sv.tries cd = 0 then
    { d with sv := { d.sv with tries := Sparse.set zeroCnt d.sv.tries cd 1 } }
  else setFlag (retrainEnd d cd k) (bgOff cd 1) 0

/-! Sensors. -/

/-- One junction sensor's calibration (18 R541): more than 4 °C away it loses `valid`, and three in a row within 2 °C give it
back. Without trims no sensor becomes valid (19 R575). -/
def calibrate (d : Dev) (die : Nat) (x : SensorCal) : Dev :=
  if 16 ≤ x.sensor then d else
  let key := die * 32 + x.sensor
  let store := fun (d : Dev) (n : Nat) => { d with sv := { d.sv with good := Sparse.set zeroCnt d.sv.good key n } }
  if 32 < x.off then
    let d := store (setRegFld d (thmOff die x.sensor) 12 12 0) 0
    flagIf (decide (die < 4)) d (bgOff die 1) 2
  else if 16 < x.off then store d 0
  else
    let n := min 3 (Sparse.get zeroCnt d.sv.good key + 1)
    let d := store d n
    if n = 3 ∧ regFld d (regOff 5 0x28 0 0) 9 9 = 1 then setRegFld d (thmOff die x.sensor) 12 12 1 else d

/-- Every 60 s the junction sensors of a die are compared with its reference (18 R541). -/
def execSensorCalibration (die : Nat) (offs : List SensorCal) (s : State) : Out := act s fun d =>
  if (dies d).contains die && powered d then offs.foldl (fun d x => calibrate d die x) d else d

/-! The telemetry step. -/

/-- FN.MODE `recovery`. -/
def recoveryBits (_ : Dev) (_ : Nat) : Word32 := 0x80

/-- Is a die heard at a telemetry step? -/
def dieHeard (d : Dev) (die : Nat) : Bool := die == 5 || ((dies d).contains die && !d.pw.stopped.contains die && !d.mem.lost.contains die)

/-- The voted registers of the dies that are heard which may differ from their reset value. -/
def votedOffs (d : Dev) : List Nat :=
  (d.rg.val.map (·.1) ++ d.rg.votes.map (·.1) ++ d.sv.shadow.map (·.1)).filter fun o =>
    votedBits o != 0 && dieHeard d (offDie o)

/-- The shadow of one register takes the majority of its copies where it differs (18 R542, R562). -/
def shadowReg (d : Dev) (off : Nat) : Dev :=
  let v := mergeMask (regReset off) (regVal d off) (votedBits off)
  if shadowOf d off = v then d
  else setFlag { d with sv := { d.sv with shadow := Sparse.set regReset d.sv.shadow off v } } (regOff 5 0x27 0 4) 2

/-- The growth of a die's A-cycle count since the last step. -/
def grown (d : Dev) (die : Nat) : Nat := (reg64 d (clkOff die 2) - Sparse.get (fun _ => (0 : Word64)) d.pw.acnt die).toNat

/-- PACE.ACLK (17 R533): the lowest average A-clock of the dies over the last 10 ms, in kHz. -/
def paceStep (d : Dev) : Dev :=
  let khz := ((dies d).map fun c => grown d c / 10).foldl min (2 ^ 21 - 1)
  let e := setReg d (regOff 5 0x22 0 0) (BitVec.ofNat 32 khz)
  setPw e fun p => { p with acnt := (dies d).foldl (fun m c => Sparse.set (fun _ => (0 : Word64)) m c (reg64 d (clkOff c 2))) p.acnt }

/-- The reserved frame that an automatic map-out takes (10 R335): the highest present one, if FT.CTRL `spares` is not zero. -/
def reservedFrame (d : Dev) (c : Nat) : Option Nat :=
  if regFld d (ftOff c 0) 4 0 = 0 then none
  else ((upto (ftCount d.variant)).reverse).find? fun g => !(ftOf d c).gone.contains g

/-- A channel has shown a trend (18 R554; 10 R332, R335; 19 R589): a map-out, a wait for the host, or the host's decision. -/
def trendStep (d : Dev) (t : Trend) : Dev :=
  if !cdFitted d.variant t.cd || decide (3 ≤ chanState d t.cd t.chan) then d
  else if regFld d (fnOff 5) 7 7 = 1 then raiseChime (setFlag d (bgOff t.cd 1) 1) 4544
  else match reservedFrame d t.cd with
    | none => healthEvent (setFt d t.cd { ftOf d t.cd with autoWait := true }) 5 t.cd t.chan 0
    | some g => if mapoutOk d t.cd t.chan g then startMapout d t.cd t.chan g t.dead false else d

/-- The convoys of a channel that are not CLOSED (14 R450). -/
def openConvoys (d : Dev) (ch : Nat) : Nat := ((chanOf d ch).convoys.filter fun v => v.2.st != .closed).length

/-- An evacuated package is reported once every channel has at most its raw convoy (18 R559; 19 R589). -/
def tellEvacuated (d : Dev) : Dev :=
  if d.evac && !d.sv.evacTold && (upto 48).all (fun ch => decide (openConvoys d ch ≤ 1)) then
    { healthEvent d 0x0B 5 0 0 with sv := { d.sv with evacTold := true } }
  else d

/-- Every 10 ms (18 R542, R554, R559, R562; 17 R533; 02 R56): the boundary of `recovery`, the shadow, the pace, the trends met
within the last 24 h as `trends` names them. -/
def execTelemetryStep (trends : List Trend) (s : State) : Out := act s fun d =>
  if !powered d then d else
  let d := boundary d (offInstance (fnOff 5)) recoveryBits
  let d := paceStep ((votedOffs d).foldl shadowReg d)
  tellEvacuated (trends.foldl trendStep d)

end Sys2Proof.Machine
end

