-- ==== Sys2Proof/Machine/Flash.lean ====
section
/-! DEFINITION. The host-private range, the ledger flash and signed images (19 R567 to R573). -/

namespace Sys2Proof.Machine

open Parts

/-! Components (19 R570): 1 waystation, 2 dispatcher, 3 host-core, 4 channel, 5 descriptor, 6 trims, 7 floor record. -/

/-- Flash offset and size of a component's slot (19 R569). -/
def slotPlace (comp slot : Nat) : Nat × Nat :=
  match comp with
  | 1 => (0x200000 + slot * 0x400000, 0x400000)
  | 2 => (0xA00000 + slot * 0x100000, 0x100000)
  | 3 => (0x1000000 + slot * 0x800000, 0x800000)
  | 4 => (0xC00000 + slot * 0x200000, 0x200000)
  | 5 => (0x30000, 0x10000)
  | 6 => (0x100000, 0x100000)
  | _ => (0x20000, 0x10000)

/-- The bytes of a signature over an image. -/
def imageSign : Nat := 29792

/-- Component of an image (19 R570). -/
def imageComp (i : List Byte) : Nat := leNat ((i.drop 4).take 2)
/-- Security version of an image. -/
def imageVersion (i : List Byte) : Nat := leNat ((i.drop 8).take 4)
/-- Body length of an image. -/
def imageBody (i : List Byte) : Nat := leNat ((i.drop 12).take 4)
/-- Length of an image with its header of 64 B and its signature. -/
def imageLength (i : List Byte) : Nat := 64 + imageBody i + imageSign

/-- What of an image its measurement covers (19 R570). -/
def imageCovered (i : List Byte) : List Byte := i.take (64 + imageBody i)

/-- No floor. -/
def noFloor (_ : Nat) : Nat := 0

/-- The security-version floor of a component (19 R571, R575). -/
def floorOf (d : Dev) (comp : Nat) : Nat :=
  if d.fl.floorOk then Sparse.get noFloor d.fl.floors comp else if comp = 7 then 0 else 0xFFFFFFFF

/-- The checks of an image for a component (19 R570, R571), `signed` telling whether its signature verifies: 0 passed, 2
BADSIG, 3 FLOOR. -/
def imageCheck (d : Dev) (comp slot : Nat) (i : List Byte) (signed : Bool) : Nat :=
  if !signed || leNat (i.take 4) != 0x4D4C4542 || imageComp i != comp || leNat ((i.drop 6).take 2) != 1 ||
    i.length != imageLength i || decide ((slotPlace comp slot).2 < imageLength i) then 2
  else if imageVersion i < floorOf d comp then 3 else 0

/-! The flash. -/

/-- A byte of the flash as the waystation reads it (19 R569, R572): the slot records and the repair map change with every
write of them. -/
def flashByte (d : Dev) (o : Nat) : Byte :=
  if (0x10000 ≤ o ∧ o < 0x20000) ∨ (0x60000 ≤ o ∧ o < 0xA0000) then Config.recordByte d.fl.writes o
  else match (Sparse.get (fun _ => (none : Option Byte)) d.fl.bytes o) with
    | some b => b
    | none => Config.flashByte o

/-- Bytes of the flash. -/
def flashBytes (d : Dev) (o n : Nat) : List Byte := (upto n).map fun i => flashByte d (o + i)

/-- Writes bytes to the flash. -/
def flashWrite (d : Dev) (o : Nat) (bs : List Byte) : Dev :=
  { d with fl := { d.fl with bytes := (enumFrom o bs).foldl (fun m e => Sparse.set (fun _ => none) m e.1 (some e.2)) d.fl.bytes } }

/-- The image in a slot: its header tells how long it is. -/
def slotImage (d : Dev) (comp slot : Nat) : List Byte :=
  let (o, size) := slotPlace comp slot
  flashBytes d o (min size (imageLength (flashBytes d o 64)))

/-- Every instance starts from slot A. -/
def slotA (_ : Nat) : Nat := 0

/-- The slot record of an instance (19 R572): 0 the waystation, 1 + c the dispatchers, 5 + n the host cores, 69 + ch the
channels. Without an identity its tag cannot be checked, and slot A counts (19 R578). -/
def slotRecord (d : Dev) (inst : Nat) : Nat := if idOk d then Sparse.get slotA d.fl.slots inst else 0

/-- The active slot of an instance. -/
def activeSlot (d : Dev) (inst : Nat) : Nat := slotRecord d inst % 2

/-- Writes the slot record of an instance: its active slot and its fall-back bit. -/
def setSlotRecord (d : Dev) (inst slot : Nat) (fell : Bool) : Dev :=
  if !idOk d then d else
  { d with fl := { d.fl with slots := Sparse.set slotA d.fl.slots inst (slot + 2 * b2n fell), writes := d.fl.writes + 1 } }

/-- Sets the measurement entry of an instance (19 R580). -/
def setMeasured (d : Dev) (inst slot : Nat) (i : List Byte) : Dev :=
  { d with id := { d.id with entries := Sparse.put d.id.entries inst ⟨slot, imageVersion i, Config.measure (imageCovered i)⟩ } }

/-! The host-private range. -/

/-- The bytes that a load from the flash window sees (19 R568): of the PUF helper and operator regions, zero. -/
def windowByte (d : Dev) (o : Nat) : Byte := if 0xA0000 ≤ o ∧ o < 0xC0000 then 0 else flashByte d o

/-- A host access of n bytes to the host-private range (00 R14; 19 R567, R568): an aligned load is served; a store, an AMO and
an access to a hole raise an access fault. -/
def execHostPrivateAccess (core pa n : Nat) (op : HostOp) (s : State) : Out := act s fun d =>
  if pa < 0x400000000000 then d
  else if op ≠ .load then hartFault d core
  else if n ≠ 1 ∧ n ≠ 2 ∧ n ≠ 4 ∧ n ≠ 8 then d
  else if pa % n ≠ 0 then hartFault d core
  else if pa < 0x400000040000 then
    hostSees d (.value core (leNat ((upto n).map fun i => Config.romByte (pa - 0x400000000000 + i))) false)
  else if 0x400010000000 ≤ pa ∧ pa < 0x400014000000 then
    hostSees d (.value core (leNat ((upto n).map fun i => windowByte d (pa - 0x400010000000 + i))) false)
  else hartFault d core

end Sys2Proof.Machine
end

