-- ==== Sys2Proof/Machine/Update.lean ====
section
/-! DEFINITION. Firmware updates and evacuation (18 R555 to R559; 19 R573, R580). -/

namespace Sys2Proof.Machine

open Parts

/-- Sets `SVC.STATUS.state`: 0 idle, 1 verifying, 2 writing the slot, 3 switching. -/
def setSvcState (d : Dev) (st : Nat) : Dev := setRegFld d (svcOff 3) 1 0 st

/-- The component that an operation updates, and the code of its target's instance. -/
def svcComp (op : SvcOp) (target : Nat) : Nat × Nat :=
  match op with
  | .chn => (4, 69 + target)
  | .disp => (2, 1 + target)
  | .core => (3, 5 + target)

/-- Is a target one that the package has (18 R566)? -/
def svcTarget (d : Dev) (op : SvcOp) (target : Nat) : Bool :=
  match op with
  | .chn => decide (target < 48)
  | .disp => cdFitted d.variant target
  | .core => decide (target < 64)

/-- Whether the image has to be written to a channel slot (19 R573): none where another channel runs that slot and the image
is another one. -/
def slotWrite (d : Dev) (op : SvcOp) (target slot : Nat) (i : List Byte) : Option Bool :=
  if op ≠ .chn then some true
  else if (upto 48).any fun ch => ch != target && (chanOf d ch).fw && activeSlot d (69 + ch) == slot then
    (if Config.measure (imageCovered i) = Config.measure (imageCovered (slotImage d 4 slot)) then some false else none)
  else some true

/-- The verification of an update (18 R555 steps 2 and 3): it ends the command, or the slot is to be written. `ready` tells
whether the target may be updated now, `signed` whether the image's signature verifies. -/
def startUpdate (d : Dev) (op : SvcOp) (target : Nat) (cmd : Option Nat) (i : List Byte) (signed ready : Bool) : Dev :=
  let (comp, inst) := svcComp op target
  let slot := 1 - activeSlot d inst
  if !svcTarget d op target || !ready then svcEnd d 1 cmd
  else
    let c := imageCheck d comp slot i signed
    if c ≠ 0 then svcEnd d c cmd
    else match slotWrite d op target slot i with
      | none => svcEnd d 1 cmd
      | some w => setSvcState { d with sv := { d.sv with run := some ⟨op, target, cmd, i, slot, w, false, false⟩ } } 2

/-- Takes the command that waits in SVC.CMD if it has an op; `f` acts on its target and its argument (18 R555, R566). -/
def svcCmd (d : Dev) (op : Nat) (f : Dev → Nat → Nat → Dev) : Dev :=
  let o := svcOff 0
  let e := loadCmd d o
  if !cmdPending e o then e else if fld (bufferedVal e o) 3 0 != op then d else
  let d := applyField (applyPair e (svcOff 1)) o allBits
  f d (regFld d o 9 4) (reg64 d (svcOff 1)).toNat

/-- The image at a physical address, as long as its header says, if it lies in the far tier or in scratch (18 R555). -/
def imageAt (d : Dev) (pa : Nat) : Option (List Byte) :=
  if !(plainPa d 0 pa && plainPa d 0 (pa + 63)) then none else
  let n := imageLength (bytesAt d pa 64)
  if plainPa d 0 (pa + n - 1) then some (bytesAt d pa n) else none

/-- An update from SVC.CMD; an image that lies elsewhere is none that verifies. -/
def updateFrom (d : Dev) (op : SvcOp) (target pa : Nat) (signed ready : Bool) : Dev :=
  match imageAt d pa with
  | some i => startUpdate d op target none i signed ready
  | none => startUpdate d op target none [] false ready

/-- SVC.CMD UPDATE_CHN (18 R555; 19 R573). -/
def execUpdateChn (signed : Bool) (s : State) : Out := act s fun d =>
  svcCmd d 1 fun d t pa => updateFrom d .chn t pa signed true

/-- SVC.CMD UPDATE_DISP (18 R555). -/
def execUpdateDisp (signed : Bool) (s : State) : Out := act s fun d =>
  svcCmd d 2 fun d t pa => updateFrom d .disp t pa signed true

/-- Has a core nothing under way? -/
def coreQuiet (d : Dev) (core : Nat) : Bool := d.coh.mshr.all fun m => m.core != core

/-- SVC.CMD UPDATE_CORE (18 R555, R558): `stopped` tells whether the core's hart is stopped through SBI. -/
def execUpdateCore (signed stopped : Bool) (s : State) : Out := act s fun d =>
  svcCmd d 3 fun d t pa => updateFrom d .core t pa signed (stopped && coreQuiet d t)

/-- Starts or ends evacuation (18 R559). -/
def setEvac (d : Dev) (on : Bool) : Dev :=
  { d with evac := on, sv := { d.sv with evacTold := d.sv.evacTold && on } }

/-- SVC.CMD EVAC (18 R559). -/
def execEvac (s : State) : Out := act s fun d => svcCmd d 4 fun d _ _ => svcEnd (setEvac d true) 0 none

/-- SVC.CMD EVAC_END (18 R559). -/
def execEvacEnd (s : State) : Out := act s fun d => svcCmd d 5 fun d _ _ => svcEnd (setEvac d false) 0 none

/-! Switches. -/

/-- The target runs its new image (18 R556 to R558; 19 R572, R573, R580): slot record, measurement, end of the command. -/
def switched (d : Dev) (r : SvcRun) : Dev :=
  let (_, inst) := svcComp r.op r.target
  svcEnd (setMeasured (setSlotRecord d inst r.slot false) inst r.slot r.image) 0 r.cmd

/-- The lines of a core's L2. -/
def coreLines (d : Dev) (core : Nat) : List Nat := (d.coh.l2.filter fun e => e.1 % 64 == core).map fun e => e.1 / 64

/-- A line leaves a core that restarts, once it has a credit for what it must send (12 R365; 18 R558). -/
def leaveCore (core : Nat) (d : Dev) (line : Nat) : Dev :=
  let x := l2Of d core line
  match x.st with
  | .i => d
  | .s => setL2 d core line {}
  | .e => if hasCredit d core line then sendWb (setL2 d core line {}) core line .evictClean true else d
  | _ => if hasCredit d core line then sendWb (setL2 d core line {}) core line (.wb x.data x.poison .i) false else d

/-- A core switches (18 R558): its lines leave as its credits allow; with the last one gone it restarts. -/
def switchCore (d : Dev) (r : SvcRun) : Dev :=
  let d := (coreLines d r.target).foldl (leaveCore r.target) d
  if coreLines d r.target ≠ [] then d
  else switched { d with coh := { d.coh with lr := Sparse.set noLr d.coh.lr r.target none } } r

/-- The image is in its slot, and the target switches (18 R555 step 4). A core that still has lines to send goes on when the
command comes again. -/
def execSlotWritten (s : State) : Out := act s fun d =>
  match d.sv.run with
  | none => d
  | some r =>
    if r.switching ∧ r.op ≠ .core then d else
    let d := if r.write then flashWrite d (slotPlace (svcComp r.op r.target).1 r.slot).1 r.image else d
    let r := { r with write := false, switching := true }
    let d := setSvcState { d with sv := { d.sv with run := some r } } 3
    if r.op = .core then switchCore d r else d

/-- The update that a target switches in, if one does. -/
def switching (d : Dev) (op : SvcOp) (target : Nat) : Option SvcRun :=
  match d.sv.run with
  | some r => if r.op = op ∧ r.target = target ∧ r.switching then some r else none
  | none => none

/-- A channel's microcontroller stops at the end of the frame and starts the new image (18 R556). -/
def execChannelFwSwitch (ch : Nat) (s : State) : Out := act s fun d =>
  match switching d .chn ch with
  | some r =>
    if (chanOf d ch).swap || r.reverting then d
    else setChannel d ch { chanOf d ch with fw := false, swap := true }
  | none => d

/-- The firmware that was started reports itself running (18 R556). -/
def execChnFwRunning (ch : Nat) (s : State) : Out := act s fun d =>
  match switching d .chn ch with
  | some r =>
    if !(chanOf d ch).swap then d else
    let d := setChannel d ch { chanOf d ch with fw := true, swap := false }
    if r.reverting then svcEnd d 4 r.cmd else switched d r
  | none => d

/-- 100 ms have passed and the new image does not run (18 R556): the previous slot is started again. -/
def execChnFwRevert (ch : Nat) (s : State) : Out := act s fun d =>
  match switching d .chn ch with
  | some r =>
    if !(chanOf d ch).swap || r.reverting then d
    else { d with sv := { d.sv with run := some { r with reverting := true } } }
  | none => d

/-- The queues of a CD that a pause of its dispatcher concerns: all but DISABLED ones (18 R557; log entry 30). -/
def pauseQueue (x : Queue) : Queue :=
  if x.state = .disabled ∨ x.state = .paused then x else { x with state := .paused, before := x.state }

/-- A queue returns to its previous state (18 R557): one whose work has come or gone meanwhile to the state that follows. -/
def unpauseQueue (x : Queue) : Queue :=
  if x.state ≠ .paused then x
  else if x.before = .held then { x with state := .held }
  else if x.before = .wait ∧ x.wait ≠ .none then { x with state := .wait }
  else { x with state := if x.words ≠ [] ∨ x.fetched ≠ x.count then .run else .empty }

/-- Changes every queue of a CD of which something is recorded. -/
def mapQueues (d : Dev) (c : Nat) (f : Queue → Queue) : Dev :=
  (d.qs.filter fun e => queueCd e.1 == c).foldl (fun d e => setQueue d e.1 (f (queueOf d e.1))) d

/-- Waits of a CD's queues that have reached their gong units are evaluated again (18 R557). -/
def retryQueueWaits (d : Dev) (c : Nat) : Dev :=
  (d.gg.wait.filter fun w => w.arrived && (match w.who with
    | .queue q => queueCd q == c
    | _ => false)).foldl arriveWait d

/-- A dispatcher runs again. -/
def resumeDisp (d : Dev) (c : Nat) : Dev :=
  retryQueueWaits (mapQueues (setDisp d c { dispOf d c with state := 0 }) c unpauseQueue) c

/-- A dispatcher pauses (18 R557 step 1), where `loaded` is none; or its load ends, well or not (steps 3 and 4). A CD that has
been declared down meanwhile does not get the new slot. No rule says what takes a dispatcher into RECOVERY (03 R103) or out
of it: it is never entered (DESIGN CHOICE, log entry 64). -/
def execDispatcherSwitch (cd : Nat) (loaded : Option Bool) (s : State) : Out := act s fun d =>
  match switching d .disp cd with
  | none => d
  | some r =>
    match loaded with
    | none => mapQueues (setDisp d cd { dispOf d cd with state := 1 }) cd pauseQueue
    | some ok =>
      let d := resumeDisp d cd
      if ok && !d.mem.lost.contains cd && !d.pw.stopped.contains cd then switched d r else svcEnd d 4 r.cmd

end Sys2Proof.Machine
end

