-- ==== Sys2Proof/Machine/Boot.lean ====
section
/-! DEFINITION. Boot (00 R1, R2, R8 to R10; 01 R24, R25, R34, R36; 19 R574 to R580; 21 R627). -/

namespace Sys2Proof.Machine

open Parts

/-- BOOT.STATUS. -/
def bootOff : Nat := regOff 5 0x28 0 0

/-- `BOOT.STATUS.step`. -/
def bootStep (d : Dev) : Nat := regFld d bootOff 3 0

/-- Sets `BOOT.STATUS.step`. -/
def setStep (d : Dev) (n : Nat) : Dev := setRegFld d bootOff 3 0 n

/-- Sets a bit of BOOT.STATUS. -/
def setBoot (d : Dev) (b : Nat) (v : Bool) : Dev := setRegFld d bootOff b b (b2n v)

/-- The rails are off, and only the waystation goes on (19 R575). -/
def railsOff (d : Dev) : Dev :=
  let z := Dev.dark d.variant d.fl
  { z with
    straps := d.straps, full := d.full
    rg := d.rg, mg := d.mg, gg := { z.gg with chimeOut := d.gg.chimeOut }, id := d.id, sv := d.sv, fresh := d.fresh
    pw := { d.pw with on := false, brace := none }
    coh := { z.coh with out := d.coh.out }
    tr := { z.tr with out := d.tr.out } }

/-- Recovery is entered at a step (19 R575, R589). -/
def enterRecovery (d : Dev) (n : Nat) : Dev := healthEvent (railsOff (setBoot (setStep d n) 4 true)) 0x10 5 0 0

/-! Slots. -/

/-- The slot that an instance starts from: its active one if that passes, else the other; none if both fail. -/
def pickSlot (c : SlotCheck) (active : Nat) : Option Nat :=
  let ok := fun s => if s = 0 then c.a else c.b
  if ok active then some active else if ok (1 - active) then some (1 - active) else none

/-- The instances of a component that boot starts: those codes of the slot record. -/
def instancesOf (comp : Nat) : List Nat :=
  match comp with
  | 1 => [0]
  | 2 => (upto 4).map (1 + ·)
  | 3 => (upto 64).map (5 + ·)
  | _ => (upto 48).map (69 + ·)

/-- An instance starts the image of a slot (19 R575, R580, R589): a fall-back goes into the slot record and is reported. -/
def startInstance (comp : Nat) (c : SlotCheck) (d : Dev) (inst : Nat) : Dev :=
  let active := activeSlot d inst
  match pickSlot c active with
  | none => healthEvent d 0x0C 5 inst 0
  | some s =>
    let d := if s = active then (if slotRecord d inst < 2 then d else setSlotRecord d inst s false)
      else healthEvent (setBoot (setSlotRecord d inst s true) 7 true) 0x0C 5 inst 0
    setMeasured d inst s (slotImage d comp s)

/-- Every instance of a component starts. -/
def startAll (d : Dev) (comp : Nat) (c : SlotCheck) : Dev := (instancesOf comp).foldl (startInstance comp c) d

/-- Does neither slot of a component pass? -/
def bothFail (c : SlotCheck) : Bool := !c.a && !c.b

/-! Discovery. -/

/-- The stacks that the descriptor lists (00 R9). -/
def listedStacks (v : Nat) : Nat := if v = 3 then 0x5555 else if v = 4 then 0xFF else 0xFFFF

/-- The CDs that the descriptor lists. -/
def listedCds (v : Nat) : List Nat := (upto 4).filter (cdFitted v)

/-- A port as training at boot leaves it, before its bundles are counted (01 R20, R23 to R25). -/
def trainPort (b : BootIn) (alive : Nat → Bool) (d : Dev) (p : Nat × Nat) : Dev :=
  let (die, inst) := p
  let peer := (peerPort die inst).1
  if facesEmpty d die inst || (die < 4 && inst == 1 && !alive peer) then setPort d die inst { state := 5 }
  else match b.ports.find? fun x => x.die == die && x.inst == inst with
    | none => setPort d die inst { state := 6 }
    | some x => setPort d die inst (trainedPort {} x.ident x.bad x.clocks x.relOk)

/-- The sites whose CD is a CDa, from the identity words that the ports of the HD have received (01, training; 00 R9). -/
def identified (d : Dev) : Nat :=
  (upto 4).foldl (fun m c =>
    let k := (portOf d 4 c).peerKind
    if k = 2 then m ||| 1 <<< c else if k = 3 then m &&& (15 - 1 <<< c) else m) d.full

/-- Every port trains, and the HD learns the kinds of the CDs. -/
def trainPorts (d : Dev) (b : BootIn) (alive : Nat → Bool) : Dev :=
  let cds := (listedCds d.variant).filter alive
  let all := (cds.flatMap fun c => [(c, 0), (c, 1)]) ++ (upto 4).map fun i => (4, i)
  let d := all.foldl (trainPort b alive) d
  let d := all.foldl (fun d p => settleEnd d p.1 p.2) d
  { d with full := identified d }

/-- Is a CD in service (01 R34): powered, with its H-port trained and verified microcode? -/
def cdServes (d : Dev) (b : BootIn) (c : Nat) : Bool :=
  cdPowered d c && b.cds.testBit c && portUp d c 0 && portUp d 4 c && !bothFail b.dispatcher

/-- The channels of a stack of CD c (10 R324). -/
def stackChannels (v n : Nat) : List Nat := (upto 32).map fun i => (if v = 3 then n % 4 / 2 else n % 4) * 32 + i

/-- Is a stack in service? -/
def stackServes (d : Dev) (b : BootIn) (n : Nat) : Bool :=
  (listedStacks d.variant).testBit n && b.stackMask.testBit n && cdServes d b (n / 4)

/-- A mask of the numbers below n that satisfy a condition. -/
def maskOf (n : Nat) (f : Nat → Bool) : Nat := (upto n).foldl (fun m i => if f i then m + 2 ^ i else m) 0

/-- PKG.VARIANT, PKG.PRESENT and PKG.FAILED are written (00 R1, R2, R8 to R10): what was found is checked against what the
descriptor lists, units that it does not list, units not in service and CDs of another kind alike. -/
def writePkg (d : Dev) (b : BootIn) : Dev :=
  let v := d.variant
  let cd := maskOf 4 (cdServes d b)
  let full := maskOf 4 fun c => cdServes d b c && cdFull d c
  let st := maskOf 16 (stackServes d b)
  let fcd := maskOf 4 fun c => cdFitted v c && !cdServes d b c
  let ffull := maskOf 4 fun c => listsFull v c && !cdServes d b c
  let fst := maskOf 16 fun n => (listedStacks v).testBit n && !stackServes d b n
  let extra := (upto 4).any (fun c => d.straps.testBit c && !cdFitted v c) ||
    (upto 16).any fun n => b.stackMask.testBit n && !(listedStacks v).testBit n
  let kinds := (upto 4).any fun c => cdServes d b c && cdFull d c != listsFull v c
  let mism := extra || kinds || fcd != 0 || fst != 0
  let d := setReg d (regOff 5 5 0 0) (BitVec.ofNat 32 (b.code % 256 + b.version % 256 * 256 + b2n mism * 2 ^ 16))
  let d := setReg d (regOff 5 5 0 1) (BitVec.ofNat 32 (cd + full * 2 ^ 4 + st * 2 ^ 8))
  setReg d (regOff 5 5 0 2) (BitVec.ofNat 32 (fcd + ffull * 2 ^ 4 + fst * 2 ^ 8))

/-- A health event for every unit that the descriptor lists and that is not in service (00 R2). -/
def tellFailed (d : Dev) (b : BootIn) : Dev :=
  let cds := (listedCds d.variant).filter fun c => !cdServes d b c
  let sts := (upto 16).filter fun n => (listedStacks d.variant).testBit n && !stackServes d b n
  sts.foldl (fun d n => healthEvent d 1 (n / 4) n 1) (cds.foldl (fun d c => healthEvent d 1 c 0 0) d)

/-- A stack that is not in service leaves its channels without one (10 R343). -/
def noStack (d : Dev) (n : Nat) : Dev := (stackChannels d.variant n).foldl (fun d k => setChan d (n / 4) k 4) d

/-- The sensors of a die are trimmed (17 R536; 19 R575): its junction sensors, and of a CD those of its stacks. -/
def validSensors (d : Dev) (b : BootIn) (die : Nat) : Dev :=
  (upto 20).foldl (fun d i =>
    if i < 16 ∨ (die < 4 ∧ stackServes d b (die * 4 + i - 16)) then setRegFld d (thmOff die i) 12 12 1 else d) d

/-! The steps. -/

/-- Steps 2 and 3 (19 R574, R575, R578): the keys, the records, the waystation's firmware, MGMT. -/
def bootEarly (d : Dev) (b : BootIn) : Dev :=
  let again := bootStep d = 2
  let d := { d with fl := { d.fl with boots := if again then d.fl.boots else (d.fl.boots + 1) % 2 ^ 64 } }
  let d := setPw (setStep d 2) fun p => { p with lastStop := if again then p.lastStop else p.cause }
  let d := setBoot (setBoot d 5 b.idOk) 6 (b.idOk && b.certOk)
  let d := if b.idOk then d else healthEvent d 0x0D 5 0 0
  let d := if !b.idOk || b.recordOk then d else { d with fl := { d.fl with slots := [] } }
  let d := setBoot d 7 false
  let d := { d with mg := { d.mg with link := if d.mg.link = 0 then 1 else d.mg.link, lastCmd := none, readyAcked := false } }
  if bothFail b.ws then enterRecovery (healthEvent d 0x0C 5 0 0) 3
  else setStep (startAll d 1 b.ws) 3

/-- The floors after a floor record has been read: floors never fall (19 R571). -/
def raiseFloors (old new_ : List (Nat × Nat)) : List (Nat × Nat) :=
  new_.foldl (fun m e => Sparse.set noFloor m e.1 (max (Sparse.get noFloor m e.1) e.2)) old

/-- Step 4 (19 R574, R575, R578; 01, discovery at boot): descriptor, presence straps, trims, floor record and repair map; the
rails are raised. -/
def bootRails (d : Dev) (b : BootIn) : Dev :=
  let fl := { d.fl with floorOk := b.floorOk, floors := if b.floorOk then raiseFloors d.fl.floors b.floors else d.fl.floors }
  let d := { d with fl := fl }
  if !b.descOk || !b.floorOk then enterRecovery (healthEvent d 0x0C 5 0 0) 4 else
  let d := { d with variant := if 1 ≤ b.code ∧ b.code ≤ 4 then b.code else d.variant, straps := b.straps % 16 }
  let rep := b.idOk && b.repairOk
  let d := if rep ∨ !b.idOk then d else { d with fl := { d.fl with tiles := [], ft := [] } }
  let d := setBoot (setBoot d 8 rep) 9 b.trimsOk
  let d := setMeasured (setMeasured d 117 0 (slotImage d 5 0)) 119 0 (slotImage d 7 0)
  let d := if b.trimsOk then setMeasured d 118 0 (slotImage d 6 0) else healthEvent d 0x0C 5 118 0
  let d := if rep then { d with mem := { d.mem with ft := d.fl.ft } } else d
  setPw (setStep d 4) fun p => { p with on := true, op := if b.trimsOk then 0 else 3 }

/-- Steps 5 to 8 (19 R574, R575; 01 R34): ports, stacks, dispatchers; what is not in service is lost. -/
def bootUnits (d : Dev) (b : BootIn) : Dev :=
  let d := trainPorts d b fun c => cdPowered d c && b.cds.testBit c
  let d := (((upto 16).filter fun n => (listedStacks d.variant).testBit n && !stackServes d b n)).foldl noStack d
  let d := if bothFail b.dispatcher then healthEvent d 0x0C 5 1 0
    else ((listedCds d.variant).map (1 + ·)).foldl (startInstance 2 b.dispatcher) d
  let out := (listedCds d.variant).filter fun c => !cdServes d b c
  let d := { d with mem := { d.mem with lost := out } }
  let d := ((listedCds d.variant).filter (cdServes d b)).foldl loadTiles d
  let d := if b.trimsOk then (((listedCds d.variant).filter (cdServes d b)) ++ [4]).foldl (fun d c => validSensors d b c) d else d
  setStep d 8

/-- Steps 10 and 11 (19 R574; 00 R2, R8): the channels, the PKG registers, the chimes, READY. -/
def bootReady (d : Dev) (b : BootIn) : Dev :=
  let d := startAll d 4 b.chan
  let d := (upto 48).foldl (fun d ch => setChannel d ch { chanOf d ch with fw := !bothFail b.chan }) d
  let d := tellFailed (setStep (writePkg d b) 11) b
  let d := raiseChime d 4736
  let d := if d.pw.brace.isSome then raiseChime d 4737 else d
  mgtQueue d (.ready (regVal d (regOff 5 5 0 0)) (regVal d (regOff 5 5 0 1)) (regVal d bootOff))

/-- Boot from the step reached on (19 R574 to R576; 17 R525; 21 R627): it needs the waystation's power. HOLDUP# holds it before
the rails are raised, a missing ROOTCLK after that; the command then goes on from there. `b` is what boot finds. -/
def execBoot (b : BootIn) (s : State) : Out := act s fun d =>
  if !d.pw.vpm || regFld d bootOff 4 4 == 1 || decide (4 < bootStep d) then d else
  let d := if bootStep d < 3 then bootEarly d b else d
  if regFld d bootOff 4 4 = 1 then d
  else if bootStep d < 4 ∧ d.pw.holdup then d
  else
    let first := bootStep d < 4
    let d := if first then bootRails d b else d
    if regFld d bootOff 4 4 = 1 then d
    else if !b.rootclk then (if first then healthEvent d 3 5 0 0 else d)
    else
      let d := bootUnits d b
      if bothFail b.core then enterRecovery (healthEvent d 0x0C 5 5 0) 9
      else bootReady (setStep (startAll d 3 b.core) 9) b

end Sys2Proof.Machine
end

