-- ==== Sys2Proof/Machine/Engine.lean ====
section
/-! DEFINITION. Start and completion of the instructions of the matrix engine, the aligner and the slicer (05 R172 to
R186; 06 R201, R209; 07 R220, R226, R239). -/

namespace Sys2Proof.Machine

open Parts

/-- A register of the matrix engine of a tile. -/
def mxOff (c t reg : Nat) : Nat := regOff c 8 t reg

/-- Bank bits [11:6] of an offset. -/
def bankBits (off : Nat) : Nat := off / 64 % 64

/-- Does a waiting instruction hand segments to the aligner: `mx.mma` with `seg`, or `sp.mma`? -/
def handsSegments (i : UnitInstr) : Bool := (wOp i.word == 0x30 && mmaSeg i.word) || wOp i.word == 0x39

/-- May an instruction that hands segments enter the aligner: everything the aligner was issued earlier has started
(06 R201)? -/
def alignerFree (x : Tile) (i : UnitInstr) : Bool := !handsSegments i || x.al.queue.all fun j => decide (i.ord < j.ord)

/-- The A-cycles in which an instruction's array computes, and those its own lines add (05 R164, R165, R175, R186; 07
R226). In WS the array computes in M A-cycles of each weight tile; the rest of C moves the tile. -/
def engineCycles (i : UnitInstr) : Nat × Nat :=
  let w := i.word
  let ua := listGet 0 i.uops 0
  let ub := listGet 0 i.uops 1
  if wOp w = 0x30 then (if mmaMode w = 1 then mmaK w / mmaKt w * mmaM w else mmaC w, if mmaMode w = 0 ∧ bankBits ua = bankBits ub then mmaC w else 0)
  else if wOp w = 0x39 then
    let k := mmaK w
    let meets := (spPairs (spSlices (spFmt w))).filter fun p =>
      bankBits (ua + 64 * k * p.2) == bankBits (ub + 64 * k * (p.1 - p.2))
    (spPassCount w * k, meets.length * k)
  else (0, 0)

/-- What the engine writes for an instruction of its queue. -/
def engineRes (d : Dev) (c t : Nat) (i : UnitInstr) : UnitRes :=
  if wOp i.word = 0x30 then mmaEngine d c t i
  else if wOp i.word = 0x31 then
    (match fld i.word 49 46 with
      | 0 => zeroAccRes i
      | 1 => stAccRes d c t i
      | _ => ldAccRes d c t i)
  else { count := spPassCount i.word }

/-- The part of an instruction that runs in the aligner, if it has one. -/
def segmentPart (d : Dev) (c t : Nat) (i : UnitInstr) : List UnitInstr :=
  let x := i.writes / 2 ^ 12 * 2 ^ 12
  if wOp i.word = 0x39 then [{ i with reads := 0, writes := x, rmem := [], res := spMmaRes d c t i }]
  else if handsSegments i then [{ i with reads := 0, writes := x, rmem := [], res := mmaAligned d c t i }]
  else []

/-- Is the engine free: no `sp.mma` holds it (05 R172; 07 R226)? -/
def engineFree (x : Tile) : Bool := x.mx.run.all fun i => wOp i.word != 0x39

/-- The head of the matrix queue starts (05 R172 to R176, R186); an `mx.sync` leaves it. `stall` is the number of A-cycles that other units'
grants add (05 R176). -/
def execMxStart (cd tile stall : Nat) (ecc : List (Nat × EccFound)) (s : State) : Out := act s fun d =>
  let x := tileOf d cd tile
  match x.mx.queue with
  | [] => d
  | i :: _ =>
    if isSync i.word then setTile d cd tile { x with mx := { x.mx with queue := x.mx.queue.tail, last := i.ord } } else
    if !((depsMet x i || chains x i) && alignerFree x i && engineFree x) then d else
    let (busy, own) := engineCycles i
    let d := unitReads d cd tile i ecc
    let r := engineRes d cd tile i
    let lost := own + stall
    let j := { i with
      writes := i.writes % 2 ^ 12
      res := { r with flags := r.flags + 4 * b2n (lost != 0) } }
    let segs := segmentPart d cd tile i
    let x := startHead x .mx j
    let d := setTile d cd tile { x with al := { x.al with run := x.al.run ++ segs } }
    addCtr (addCtr d (mxOff cd tile 2) busy) (mxOff cd tile 4) lost

/-- Has every earlier running instruction that writes what i writes completed? A chained sum follows the one before it (05 R174). -/
def inTurn (x : Tile) (i : UnitInstr) : Bool :=
  (x.mx.run.takeWhile fun j => j.ord != i.ord).all fun j => j.writes &&& i.writes == 0

/-- A matrix instruction completes: its destinations are written (05 R175 to R181; 06 R208 to R210). An `sp.mma` releases the
engine, which has run its passes (07 R226, R239). -/
def execMxComplete (cd tile ord : Nat) (s : State) : Out := act s fun d =>
  let x := tileOf d cd tile
  match runningAt x .mx ord with
  | none => d
  | some i =>
    if !inTurn x i then d else
    let d := writeRes (setTile d cd tile (dropRunning x .mx ord)) cd tile ord i.res
    let d := if i.res.count = 0 then d else addCtr d (regOff cd 0x0B tile 2) i.res.count
    raiseRes (setFlagMask d (mxOff cd tile 1) i.res.flags) cd tile 2 i i.res

/-- The head of the aligner's queue starts (06 R201; 07 R226, R227): not before an earlier `sp.mma` has completed in the aligner. -/
def execAlStart (cd tile : Nat) (ecc : List (Nat × EccFound)) (s : State) : Out := act s fun d =>
  let x := tileOf d cd tile
  match x.al.queue with
  | [] => d
  | i :: _ =>
    if depsMet x i && x.mx.queue.all (fun j => !(handsSegments j && decide (j.ord < i.ord))) &&
        x.al.run.all (fun j => wOp j.word != 0x39) then
      setTile (unitReads d cd tile i ecc) cd tile (startHead x .al { i with res := alignerRes x i })
    else d

/-- An aligner instruction, or the aligned accumulator of an `mx.mma` or `sp.mma`, completes (06 R201, R208 to R210;
07 R225 to R227, R239). -/
def execAlComplete (cd tile ord : Nat) (s : State) : Out := act s fun d =>
  let x := tileOf d cd tile
  match runningAt x .al ord, runningAt x .mx ord with
  | some i, none =>
    let d := writeRes (setTile d cd tile (dropRunning x .al ord)) cd tile ord i.res
    let d := setFlagMask d (regOff cd 9 tile 1) i.res.alFlags
    let d := setFlagMask d (regOff cd 0x0B tile 1) i.res.flags
    raiseRes d cd tile (if wOp i.word = 0x39 ∨ wOp i.word = 0x3B then 4 else 3) i i.res
  | _, _ => d

/-- The head of the slicer's queue starts (07 R220, R231). -/
def execSlicerStart (cd tile : Nat) (ecc : List (Nat × EccFound)) (s : State) : Out := act s fun d =>
  let x := tileOf d cd tile
  match x.sp.queue with
  | [] => d
  | i :: _ =>
    if !depsMet x i then d else
    let d := unitReads d cd tile i ecc
    setTile d cd tile (startHead x .sp { i with res := splitRes d cd tile i })

/-- An `sp.split` completes: its split panel is written (07 R220). -/
def execSlicerComplete (cd tile ord : Nat) (s : State) : Out := act s fun d =>
  let x := tileOf d cd tile
  match runningAt x .sp ord with
  | none => d
  | some i =>
    let d := writeRes (setTile d cd tile (dropRunning x .sp ord)) cd tile ord i.res
    raiseRes (setFlagMask d (regOff cd 0x0B tile 1) i.res.flags) cd tile 4 i i.res

end Sys2Proof.Machine
end

