-- ==== Sys2Proof/Machine/View.lean ====
section
/-! DEFINITION. What a register reads as (03 R81 to R93): stored registers, and those that show the state of a unit. -/

namespace Sys2Proof.Machine

open Parts

/-- A word of a number. -/
def w32 (n : Nat) : Word32 := BitVec.ofNat 32 n

/-! Queues and dispatchers. -/

/-- The code of a queue's state (03 R99). -/
def qStateCode : QState → Nat
  | .disabled => 0
  | .empty => 1
  | .run => 2
  | .wait => 3
  | .held => 4
  | .paused => 5

/-- The line offset of the next record that a queue fetches (03 R98). -/
def queueLine (x : Queue) : Nat := x.line

/-- Q registers that show the queue (03 R97 to R101). -/
def viewQ (d : Dev) (off : Nat) : Option Word32 :=
  let x := queueOf d (offQueue off)
  match offReg off with
  | 3 => some (w32 x.count)
  | 4 => some (w32 (x.retired + queueLine x * 2 ^ 16))
  | 5 => some ((regVal d off &&& 0x7F0000) ||| w32 (qStateCode x.state + x.reason * 8))
  | 7 => some (w32 x.accum)
  | _ => none

/-- Queues of a CD of which something is recorded and that satisfy a condition. -/
def countQueues (d : Dev) (c : Nat) (f : Queue → Bool) : Nat := (d.qs.filter fun e => queueCd e.1 == c && f e.2).length

/-- DISP registers (03 R103, R104). -/
def viewDisp (d : Dev) (off : Nat) : Option Word32 :=
  let c := offDie off
  let p := dispOf d c
  match offReg off with
  | 0 => some (w32 (p.state + countQueues d c (·.state != .disabled) * 2 ^ 8 + pQueuesCd d c * 2 ^ 19))
  | 1 => some (w32 (p.last + p.reason * 2 ^ 10 + countQueues d c (·.state == .held) * 2 ^ 14))
  | _ => none

/-! Tiles. -/

/-- Does the head of a unit's queue wait for another instruction? -/
def headWaits (x : Tile) (u : UnitQ) : Bool :=
  match u.queue with
  | [] => false
  | i :: _ => !depsMet x i

/-- The instruction the matrix engine started last, while it runs or drains. -/
def runningMx (x : Tile) : Option UnitInstr := x.mx.run.getLast?

/-- `mode` of MX.STATUS: that of a running `mx.mma` (05 R184). -/
def mxModeShown (i : UnitInstr) : Nat := if wOp i.word = 0x30 then mmaMode i.word else 0

/-- `acc` of MX.STATUS: the destination of a running `mx.*`; an `sp.mma` has none among a0 to a3 (05 R184). -/
def mxAccShown (i : UnitInstr) : Nat := if wOp i.word = 0x39 then 0 else mmaAcc i.word

/-- The registers of a tile's units that show the tile (04 R156; 05 R184; 06 R214; 07 R238; 08 R265; 09 R301). -/
def viewTile (d : Dev) (off : Nat) : Option Word32 :=
  let c := offDie off
  let t := offInst off
  let x := tileOf d c t
  match offUnit off, offReg off with
  | 7, 1 => some (w32 (x.slots.length + x.blocks.length * 16 + (x.slots.map fun g => g.2.paths.length).foldl (· + ·) 0 * 2 ^ 8))
  | 8, 0 =>
    let held := match x.mx.queue with
      | [] => false
      | i :: _ => regWaits x i && !chains x i
    let m := runningMx x
    some (w32 (min 8 x.mx.queue.length + b2n (x.mx.run != []) * 2 ^ 4 + ((m.map mxModeShown).getD 0) * 2 ^ 5 +
      ((m.map mxAccShown).getD 0) * 2 ^ 7 + b2n held * 2 ^ 9))
  | 9, 0 =>
    some (w32 (b2n (x.al.run != []) + b2n x.bind.x * 2 + b2n x.bind.sa * 4 + b2n x.bind.sb * 8 + min 4 x.al.queue.length * 16))
  | 0xB, 0 =>
    some (w32 (b2n (x.sp.run != []) + b2n (x.mx.run.any fun i => wOp i.word == 0x39) * 2 + min 4 x.sp.queue.length * 4 +
      b2n (x.split && x.blocks != []) * 2 ^ 5))
  | 0xC, 0 =>
    some (w32 (min 8 x.vx.queue.length + b2n (x.vx.run != []) * 2 ^ 4 + b2n (cdFull d c) * 2 ^ 5 +
      b2n (headWaits x x.vx) * 2 ^ 6))
  | 0xD, 0 =>
    let v := droverOf d (c * 1024 + t)
    some (w32 (drvQueued v + drvInFlight v * 2 ^ 5))
  | _, _ => none

/-! Gongs, storage, coherence, translation. -/

/-- GONG.STATUS (09 R302). -/
def viewGong (d : Dev) (off : Nat) : Option Word32 :=
  let c := offDie off
  if offReg off = 0 then
    some (w32 ((d.gg.wait.filter fun w => gongCd w.gong == c && w.entry != .none).length + (3840 - entriesHeld d c .shared) * 2 ^ 15))
  else none

/-- WELL.STATUS and WELL.HOME (10 R339, R340). -/
def viewWell (d : Dev) (off : Nat) : Option Word32 :=
  let w := wellOf d (offDie off)
  if offReg off = 1 then
    let steps := w.step != .none
    some (w32 (w.current + b2n steps * 2 ^ 7 + (if steps then w.stepSlice else 0) * 2 ^ 8 + w.left * 2 ^ 14 +
      b2n (wellBlocked d (offDie off)) * 2 ^ 23))
  else if 0x10 ≤ offReg off ∧ offReg off < 0x50 then
    some (w32 (leNat ((upto 4).map fun i => BitVec.ofNat 8 (bucketHome d (offDie off) (4 * (offReg off - 0x10) + i)))))
  else none

/-- SLICE.STATUS (10 R341). -/
def viewSlice (d : Dev) (off : Nat) : Option Word32 :=
  let c := offDie off
  let i := offInst off
  if offReg off = 1 then some (w32 (sliceMode d c i + bucketsAt d c i * 4)) else none

/-- FT registers (10 R342). `frames` falls when the map-out of a frame is complete (R333). -/
def viewFt (d : Dev) (off : Nat) : Option Word32 :=
  let c := offDie off
  let f := ftOf d c
  let present := fun g => decide (g < ftCount d.variant) && !f.gone.contains g
  match offReg off with
  | 3 =>
    let st := if f.mapout.isSome then 1 else if f.scrub.isSome then 2 else 0
    let left := (f.mapout.map fun m => m.left.length).getD 0
    some (w32 (st + mappedOut f * 4 + (((upto 128).filter present).length + b2n f.mapout.isSome) * 2 ^ 7 + left * 2 ^ 15 + b2n f.autoWait * 2 ^ 22))
  | 4 => some (w32 (maskOf 32 present))
  | 5 => some (w32 (maskOf 32 fun i => present (32 + i)))
  | 6 => some (w32 (maskOf 32 fun i => present (64 + i)))
  | 7 => some (w32 (maskOf 32 fun i => present (96 + i)))
  | _ => none

/-- COH.STATUS of a slice (12 R389). -/
def viewCoh (d : Dev) (off : Nat) : Option Word32 :=
  let h := (offDie off, offInst off)
  if offReg off = 0 then
    let at_ := fun (l : List (Nat × Nat)) => (l.filter fun r => homeOf d r.2 == h).length
    some (w32 (openAt d h + at_ d.coh.resv * 2 ^ 8 + at_ d.coh.defer * 2 ^ 15))
  else none

/-- XLAT request registers (13 R410). -/
def viewXlat (d : Dev) (off : Nat) : Option Word32 :=
  if offDie off = 5 then none else
  let x := xinst d (if offDie off < 4 then offDie off else 16 + offInst off)
  let slot := fun s => (Sparse.find? x.slots s).getD {}
  let r := offReg off
  if r = 4 then some (w32 (maskOf 16 fun s => (slot s).waiting))
  else if 0x20 ≤ r ∧ r < 0x60 then
    let q := slot ((r - 0x20) / 4)
    match r % 4 with
    | 0 =>
      let (_, space, part) := spaceCode d q.space
      some (w32 (b2n q.waiting + q.seq % 256 * 4 + accCode q.acc * 2 ^ 10 + space * 2 ^ 12 + part * 2 ^ 24))
    | 2 => some (w32 (q.va % 2 ^ 32))
    | 3 => some (w32 (q.va / 2 ^ 32))
    | _ => none
  else none

/-! Channels and ports. -/

/-- CHN registers (14 R450). -/
def viewChn (d : Dev) (off : Nat) : Option Word32 :=
  let ch := offInst off
  let x := chanOf d ch
  match offReg off with
  | 1 => some (w32 (x.link + b2n x.fw * 4 + openConvoys d ch * 8))
  | 0xF => some (w32 (recPool - recsHeld d ch + (x.convoys.filter fun v => v.2.recs.any (·.spilled)).length * 2 ^ 16))
  | r => if 0x14 ≤ r ∧ r < 0x18 then some (w32 (rqUsed d ch (r - 0x14) + (queuedRx d ch (r - 0x14)).length * 2 ^ 12)) else none

/-- D2D registers that show a port (01 R28, R30). -/
def viewPort (d : Dev) (off : Nat) : Option Word32 :=
  let die := offDie off
  let i := offInst off
  let p := portOf d die i
  match offReg off with
  | 0 =>
    let spares := (upto 8).foldl (fun m b => max m (popNat 8 (sparesUsed p b))) 0
    let strap := if die = 4 then b2n (d.straps.testBit i) else 1
    some (w32 (p.state + bundlesUp d die i * 2 ^ 4 + p.version * 2 ^ 12 + p.peerKind * 2 ^ 20 + spares * 2 ^ 24 + strap * 2 ^ 28 +
      b2n (cadenceOk d die i) * 2 ^ 29))
  | 2 =>
    match p.waiting with
    | [] => some 0
    | (b, w) :: _ => some (w32 (1 + b * 2 + w * 2 ^ 4 + min 8 p.waiting.length * 2 ^ 12 + b2n (decide (8 < p.waiting.length)) * 2 ^ 16))
  | _ => none

/-! Package units. -/

/-- FN.MODE: `split` of a CDb reads 1 (02 R57). -/
def viewFn (d : Dev) (off : Nat) : Option Word32 :=
  if offDie off < 4 ∧ cdFitted d.variant (offDie off) ∧ !cdFull d (offDie off) ∧ offReg off = 0 then some (regVal d off ||| 0x10)
  else none

/-- PWR registers that show the power unit (17 R535, R536). -/
def viewPwr (d : Dev) (off : Nat) : Option Word32 :=
  match offReg off with
  | 2 => some (setFld (setFld (regVal d off) 9 8 d.pw.op) 14 10 d.pw.k)
  | 5 =>
    let (b, h, v, w) := match d.pw.brace with
      | some x => (1, b2n x.holdup, b2n x.vin, b2n x.window)
      | none => (0, 0, 0, 0)
    some (w32 (reasons d + b * 2 ^ 8 + h * 2 ^ 9 + v * 2 ^ 10 + w * 2 ^ 11 + hottest d * 2 ^ 12 + d.pw.lastStop * 2 ^ 20))
  | _ => none

/-- WEAR.STATUS (18 R565). -/
def viewWear (d : Dev) (off : Nat) : Option Word32 :=
  let c := offDie off
  if offReg off = 1 then
    let now := ((swapsOf d c).head?.map fun w => w.logical).getD 0
    let gone := ((upto 180).filter (tileRetired d c)).length
    some (w32 (min 15 (tilesIn d c 1).length + gone * 2 ^ 4 + now * 2 ^ 12 + b2n (swapsOf d c != []) * 2 ^ 20))
  else none

/-- Is the parent known to have acknowledged within the last second (19 R601): 212,500,000 P-cycles? -/
def parentOk (d : Dev) : Bool :=
  match d.mg.ackAt with
  | some t => decide ((reg64 d hdPcntOff - t).toNat ≤ 212500000)
  | none => false

/-- MGT.STATUS (19 R601). -/
def viewMgt (d : Dev) (off : Nat) : Option Word32 :=
  if offReg off = 1 then
    some (w32 (d.mg.link + b2n d.mg.operator.isSome * 4 + b2n (parentOk d) * 8 + min 256 d.mg.queue.length * 16))
  else none

/-- PEAL.STATUS and PEAL.COUNT (19 R600). -/
def viewPeal (d : Dev) (off : Nat) : Option Word32 :=
  let x := pealOf d (offInst off)
  match offReg off with
  | 3 => some (w32 (x.state + b2n (x.state != 0 && !hasParent x) * 8 + x.lost * 16))
  | 4 => some (w32 (x.armed % 2 ^ 17))
  | _ => none

/-- BOOT.CNT (19 R599). -/
def viewBoot (d : Dev) (off : Nat) : Option Word32 :=
  match offReg off with
  | 1 => some (w32 (d.fl.boots % 2 ^ 32))
  | 2 => some (w32 (d.fl.boots / 2 ^ 32))
  | _ => none

/-- ATT.IDKEY (19 R599). -/
def viewAtt (d : Dev) (off : Nat) : Option Word32 :=
  let r := offReg off
  if 0x10 ≤ r ∧ r < 0x20 then
    some (if idOk d then w32 (leNat ((upto 4).map fun i => Config.identity (4 * (r - 0x10) + i))) else 0)
  else none

/-- CNT (20 R616): the beats of the die-to-die ports are free values (log entry 53). -/
def viewCnt (d : Dev) (off : Nat) : Option Word32 :=
  if offDie off < 4 ∧ 0xA ≤ offReg off then some (Config.linkBeats d.fresh off) else none

/-- LVL.STATUS (16 R505): the credits in use are a free value, since the words on the host ports are not kept (log entry 53). -/
def viewLvl (d : Dev) (off : Nat) : Option Word32 :=
  if offReg off = 1 then some (regVal d off ||| w32 ((Config.levelUse d.fresh off).toNat * 16)) else none

/-- What shows the state of a unit. -/
def unitView (d : Dev) (off : Nat) : Option Word32 :=
  match offUnit off with
  | 0x01 => viewQ d off
  | 0x02 => viewDisp d off
  | 0x03 => viewFn d off
  | 0x04 => viewPort d off
  | 0x06 => if offReg off = 0 then some (regVal d off ||| w32 (pQueuesPart d (offInst off) * 2 ^ 16)) else none
  | 0x07 => viewTile d off
  | 0x08 => viewTile d off
  | 0x09 => viewTile d off
  | 0x0B => viewTile d off
  | 0x0C => viewTile d off
  | 0x0D => viewTile d off
  | 0x0E => viewGong d off
  | 0x11 => viewWell d off
  | 0x12 => viewSlice d off
  | 0x13 => viewFt d off
  | 0x14 => if offReg off = 0 then some (w32 (chanState d (offDie off) (offInst off))) else none
  | 0x15 => viewCoh d off
  | 0x16 => viewXlat d off
  | 0x19 => viewChn d off
  | 0x1E => viewLvl d off
  | 0x1F => viewPwr d off
  | 0x25 => viewWear d off
  | 0x27 => if offReg off = 3 then some (regVal d off ||| w32 (b2n d.evac * 4)) else none
  | 0x28 => viewBoot d off
  | 0x29 => viewAtt d off
  | 0x2A => viewPeal d off
  | 0x2B => viewMgt d off
  | 0x2D => viewCnt d off
  | _ => none

/-- A companion (03 R89): `pending`, the disagreement count and its last position. -/
def viewCompanion (d : Dev) (off : Nat) : Word32 :=
  match regRow? off with
  | none => 0
  | some row =>
    if row.rwb ||| row.rov = 0 then 0 else
    let x := Sparse.get noDis d.rg.dis off
    w32 (b2n (companionPending d off) + x.lastBit * 2 ^ 8 + x.count * 2 ^ 16)

/-- The command bits of a register that wait, in its buffer or in a management write held apart: they read 1 (03 R84). -/
def pendingCmd (d : Dev) (off : Nat) : Word32 :=
  (d.rg.mgmt.filter fun w => w.off == off).foldl (fun m w => m ||| (w.mask &&& w.value &&& cmdBits off))
    ((regBuf d off).mask &&& (regBuf d off).value &&& cmdBits off)

/-- What a register reads as: zero where there is no register or its unit is absent (00 R5; 03 R82), and of a retired tile's
units (18 R553). -/
def view (d : Dev) (off : Nat) : Word32 :=
  if unitAbsent d off || regRetired d off then 0
  else if 0x200 ≤ offReg off then viewCompanion d (off - 0x800)
  else if (regRow? off).isNone then 0
  else (unitView d off).getD (regVal d off) ||| pendingCmd d off

end Sys2Proof.Machine
end

