-- ==== Sys2Proof/Machine/Mgmt.lean ====
section
/-! DEFINITION. The management tree and attestation (19 R575, R580 to R588). -/

namespace Sys2Proof.Machine

open Parts

/-! Reports (19 R581). -/

/-- The entries of a report, in order: component, instance and instance code. -/
def reportEntries (d : Dev) : List (Nat × Nat × Nat) :=
  [(1, 0, 0), (5, 0, 117), (6, 0, 118), (7, 0, 119)] ++
    ((upto 4).filter fun c => bit (regVal d (regOff 5 5 0 1)) c).map (fun c => (2, c, 1 + c)) ++
    (upto 64).map (fun n => (3, n, 5 + n)) ++ (upto 48).map fun ch => (4, ch, 69 + ch)

/-- The measurement entry of an instance; zeros where it has none. -/
def measuredOf (d : Dev) (inst : Nat) : Measured := (Sparse.find? d.id.entries inst).getD ⟨0, 0, 0⟩

/-- The 80 B of an entry. -/
def entryBytes (d : Dev) (e : Nat × Nat × Nat) : List Byte :=
  let m := measuredOf d e.2.2
  leBytes 2 e.1 ++ leBytes 2 e.2.1 ++ leBytes 1 m.slot ++ leBytes 3 0 ++ leBytes 4 m.version ++ leBytes 4 0 ++ leBytes 64 m.hash

/-- The body of a report. -/
def reportBody (d : Dev) (nonce : List Byte) : List Byte :=
  let es := reportEntries d
  leBytes 4 0x4D414751 ++ leBytes 2 1 ++ leBytes 2 es.length ++ nonce ++
    (upto 16).map (fun i => Config.identity (64 + i)) ++ (upto 64).map (fun i => Config.identity i) ++
    leBytes 4 (regVal d (regOff 5 5 0 0)).toNat ++ leBytes 4 (regVal d (regOff 5 5 0 1)).toNat ++ leBytes 8 d.fl.boots ++
    leBytes 8 (reg64 d hdPcntOff).toNat ++
    leBytes 4 (regFld d bootOff 6 6 + b2n d.evac * 2 + b2n (d.fl.slots.any fun e => decide (2 ≤ e.2)) * 4) ++ leBytes 12 0 ++
    es.flatMap (entryBytes d)

/-- A report: its body and 49,856 B of signature. -/
def reportBytes (d : Dev) (nonce : List Byte) : List Byte :=
  let b := reportBody d nonce
  b ++ (upto 49856).map fun i => Config.signature b i

/-- The length of a report. -/
def reportLength (d : Dev) : Nat := 160 + 80 * (reportEntries d).length + 49856

/-- ATT.CMD starts a report (19 R578, R582, R598, R599). -/
def execAttGo (s : State) : Out := act s fun d =>
  let o := attOff 0
  let d := loadCmd d o
  if !cmdPending d o then d else
  let d := applyField (applyPair d (attOff 1)) o allBits
  let a := (reg64 d (attOff 1)).toNat
  if d.id.report.isSome then attEnd d 1
  else if !idOk d then attEnd d 2
  else if !argOk d 0 a (64 + reportLength d) 64 then attEnd d 3
  else { d with id := { d.id with report := some ⟨bytesAt d a 32, a, none⟩ } }

/-- The report in production is signed and written (19 R581, R582, R587, R599). -/
def execReportComplete (s : State) : Out := act s fun d =>
  match d.id.report with
  | none => d
  | some r =>
    let bs := reportBytes d r.nonce
    let d := { d with id := { d.id with report := none } }
    let d := setReg d (attOff 3) (w32 bs.length)
    match r.cmd with
    | none => attEnd (writeAt d (r.addr + 64) bs false) 0
    | some c => mgtQueue (mgtQueue d (.report bs)) (.result c 0 0)

/-! Messages from above. -/

/-- May a message be received: the waystation has power and the lane is up? -/
def mgtHears (d : Dev) : Bool := powered d && d.mg.link == 2

/-- A message fails its check (19 R601). -/
def badMessage (d : Dev) : Dev := setFlag d (mgtOff 3) 1

/-- Sends again what the parent has not acknowledged: READY first (19 R584, R586). -/
def sendQueued (d : Dev) : Dev :=
  if d.mg.operator.isNone then d else
  let ready := fun (m : UpMsg) => match m.body with
    | .ready _ _ _ => true
    | _ => false
  (d.mg.queue.filter ready ++ d.mg.queue.filter fun m => !ready m).foldl mgtSend d

/-- A received ENROL (19 R575, R584 to R586), which recovery does not serve: its source address, which gets the ACK, the key and
the parent it installs, and whether its signature verifies under the current operator key. -/
def execEnrol (seq src key parent : Nat) (signed : Bool) (s : State) : Out := act s fun d =>
  if !mgtHears d || regFld d bootOff 4 4 == 1 then d else
  let d := mgtTellTo d (.node src) (.ack seq)
  if d.mg.operator.isSome && !signed then badMessage d
  else
    let first := d.mg.operator.isNone
    let d := { d with mg := { d.mg with operator := some ⟨key, parent⟩ } }
    if first then sendQueued d else d

/-- The result of a command. -/
def tellResult (d : Dev) (c : Command) (code : Nat) (value : Word32) : Dev := mgtQueue d (.result c.number code value)

/-- A received COMMAND (19 R575, R584, R586, R587); `recover` tells that it is RECOVER, the only one served in recovery. -/
def command (d : Dev) (c : Command) (recover : Bool) (f : Dev → Dev) : Dev :=
  if !mgtHears d then d
  else if d.mg.operator.isNone then badMessage d
  else if regFld d bootOff 4 4 = 1 ∧ !recover then d
  else
    let d := mgtTell d (.ack c.seq)
    let fresh := match d.mg.lastCmd with
      | some n => decide (n < c.number)
      | none => true
    if !c.signed then tellResult (badMessage d) c 5 0
    else if c.boots ≠ d.fl.boots ∨ !fresh then tellResult (badMessage d) c 6 0
    else f { d with mg := { d.mg with lastCmd := some c.number } }

/-- READ_REG (19 R587; 03 R82): its read clears what any read clears (03 R89, R93). -/
def execMgmtReadReg (c : Command) (off : Nat) (s : State) : Out := act s fun d =>
  command d c false fun d =>
    if 0x60000000 ≤ off ∨ regAbsent d off then tellResult d c 3 0
    else tellResult (if readClears off then (clearingRead d off).1 else d) c 0 (view d off)

/-- WRITE_REG (19 R587; 18 R561; 03 R71, R82): the write waits for its boundary, which tells its result. -/
def execMgmtWriteReg (c : Command) (off : Nat) (value mask : Word32) (gen : Nat) (s : State) : Out := act s fun d =>
  command d c false fun d =>
    let m := mask &&& ~~~ (cmdBits off &&& ~~~ value)
    let a := attempt d off value m
    if writeAbsent d a then tellResult d c 3 0
    else if isDoorbell off then tellResult (doorbell d (offQueue off) .mgmt (fld value 15 0)) c 0 0
    else if regRetired d off || writeRefused d a then tellResult d c 1 0
    else { d with rg := { d.rg with mgmt := d.rg.mgmt ++ [⟨off, value, mask, gen, c.number⟩] } }

/-- SVC (19 R587; 18 R555 to R559): as SVC.CMD, with the image in the message; `signed` tells whether the image's signature
verifies, `stopped` whether the core's hart is stopped. -/
def execMgmtSvc (c : Command) (op target : Nat) (image : List Byte) (signed stopped : Bool) (s : State) : Out := act s fun d =>
  command d c false fun d =>
    if !svcFree d || cmdWaits d (svcOff 0) then tellResult d c 1 0 else
    let d := setRegFld (setRegFld (setRegFld d (svcOff 0) 3 0 op) (svcOff 0) 9 4 target) (svcOff 0) 10 10 1
    let n := some c.number
    match op with
    | 1 => startUpdate d .chn target n image signed true
    | 2 => startUpdate d .disp target n image signed true
    | 3 => startUpdate d .core target n image signed (stopped && coreQuiet d target)
    | 4 => svcEnd (setEvac d true) 0 n
    | 5 => svcEnd (setEvac d false) 0 n
    | _ => svcEnd d 1 n

/-- ATTEST (19 R578, R582, R587). -/
def execMgmtAttest (c : Command) (nonce : List Byte) (s : State) : Out := act s fun d =>
  command d c false fun d =>
    if !idOk d then tellResult d c 4 0
    else if d.id.report.isSome then tellResult d c 1 0
    else { d with id := { d.id with report := some ⟨nonce, 0, some c.number⟩ } }

/-- The floors that a floor record's body lists (19 R571). -/
def bodyFloors (i : List Byte) : List (Nat × Nat) :=
  let b := (i.drop 64).take (imageBody i)
  (upto (b.length / 8)).map fun k => (leNat ((b.drop (8 * k)).take 2), leNat ((b.drop (8 * k + 4)).take 4))

/-- Is no floor of a new record lower than the one it replaces (19 R571)? -/
def floorsRise (d : Dev) (i : List Byte) : Bool :=
  !d.fl.floorOk || d.fl.floors.all fun e => decide (e.2 ≤ ((bodyFloors i).find? fun f => f.1 == e.1).elim 0 (·.2))

/-- RECOVER (19 R575, R587): in recovery the ROM writes an image that passes its checks to its slot, or to its place; a floor
record only if no floor falls. -/
def execMgmtRecover (c : Command) (slot : Nat) (image : List Byte) (signed : Bool) (s : State) : Out := act s fun d =>
  command d c true fun d =>
    let comp := imageComp image
    if regFld d bootOff 4 4 ≠ 1 ∨ 2 ≤ slot then tellResult d c 1 0
    else if comp = 0 ∨ 7 < comp then tellResult d c 5 0
    else
      let r := imageCheck d comp slot image signed
      if r ≠ 0 then tellResult d c (resultCode r) 0
      else if comp = 7 ∧ floorsRise d image = false then tellResult d c 7 0
      else
        let d := flashWrite d (slotPlace comp slot).1 image
        let d := if comp = 7 then { d with fl := { d.fl with floorOk := true, floors := raiseFloors [] (bodyFloors image) } } else d
        tellResult d c 0 0

/-- A received ACK (19 R584, R586, R601). -/
def execMgmtAck (seq : Nat) (s : State) : Out := act s fun d =>
  if !mgtHears d then d else
  let ready := d.mg.queue.any fun m => m.seq == seq && (match m.body with
    | .ready _ _ _ => true
    | _ => false)
  { d with mg := { d.mg with
      queue := d.mg.queue.filter fun m => m.seq != seq
      readyAcked := d.mg.readyAcked || ready
      ackAt := some (reg64 d hdPcntOff) } }

/-! Timers and the lane. -/

/-- Every 1 s until READY is acknowledged (19 R584, R586). -/
def execHelloTimer (s : State) : Out := act s fun d =>
  if mgtHears d && !d.mg.readyAcked then mgtTell d (.hello (BitVec.ofNat 64 d.fl.boots) (regVal d bootOff)) else d

/-- The values of TELEMETRY (19 R584). -/
def telemetryValues (d : Dev) : List Word64 :=
  [(view d (pwrOff 6)).setWidth 64, (view d (pwrOff 5)).setWidth 64, (view d (regOff 5 0x22 0 0)).setWidth 64] ++
    (upto 17).map fun p => reg64 d (tollPart p)

/-- Every `MGT.CTRL.tel` ms (19 R575, R584, R586). -/
def execTelemetryTimer (s : State) : Out := act s fun d =>
  if mgtHears d && d.mg.operator.isSome && regFld d bootOff 4 4 == 0 then mgtTell d (.telemetry (telemetryValues d)) else d

/-- 100 ms have passed without an acknowledgement (19 R584). -/
def execMgmtResend (s : State) : Out := act s fun d => if mgtHears d then sendQueued d else d

/-- The MGMT lane goes down (0), trains (1) or comes up (2), and pending messages go out (19 R588; 21 R627). -/
def execMgmtLinkChange (link : Nat) (s : State) : Out := act s fun d =>
  if !powered d || decide (2 < link) || d.mg.link == link then d else
  let d := { d with mg := { d.mg with link := link } }
  if link = 2 then sendQueued d else d

end Sys2Proof.Machine
end

