-- ==== Sys2Proof/Machine/Peal.lean ====
section
/-! DEFINITION. The peal: messages, commands and timers (19 R590 to R600; 14 R448). -/

namespace Sys2Proof.Machine

open Parts

/-! Messages. -/

/-- A received PEAL_ARM (19 R592). -/
def execRxPealArm (ch : Nat) (r : RxMsg) (s : State) : Out := act s fun d => sequenced d ch 0x10 r [] false

/-- A received PEAL_ARM_ACK (19 R592, R595). -/
def execRxPealArmAck (ch : Nat) (r : RxMsg) (s : State) : Out := act s fun d => sequenced d ch 0x11 r [] false

/-- A received PEAL_STRIKE (19 R594, R595): `broken` tells that the path from the root has an open hop, a miss or a host
relay before this hop. -/
def execRxPealStrike (ch : Nat) (r : RxMsg) (broken : Bool) (s : State) : Out := act s fun d =>
  sequenced d ch 0x12 r [] broken

/-- A received PEAL_ABORT (19 R595). -/
def execRxPealAbort (ch : Nat) (r : RxMsg) (s : State) : Out := act s fun d => sequenced d ch 0x13 r [] false

/-! Commands (19 R590, R596, R597, R600). -/

/-- Takes a pending op of a slot: f gets the address at ARG. While the slot is ARMING or ARMED every op but CANCEL is refused
with STATE (19 R596). -/
def pealCmd (d : Dev) (slot op : Nat) (f : Dev → Nat → Dev) : Dev :=
  let o := pealOff slot 0
  let e := loadCmd d o
  if 16 ≤ slot then d else if !cmdPending e o then e else if fld (bufferedVal e o) 2 0 ≠ op then d else
  let d := applyField (applyPair e (pealOff slot 1)) o allBits
  let x := pealOf d slot
  if (x.state = 2 ∨ x.state = 3) ∧ op ≠ 3 then pealEnd d slot 1 else f d (reg64 d (pealOff slot 1)).toNat

/-- The bits of descriptor word i that have a meaning (19 R590). -/
def pealUsed (i : Nat) : Nat :=
  if i = 0 then 2 ^ 64 - 1
  else if i = 1 then 2 ^ 33 - 1
  else if i = 2 then 2 ^ 48 - 1
  else if i = 3 then 2 ^ 20 - 1
  else if i = 4 then 2 ^ 36 - 1
  else if i = 5 then 2 ^ 48 - 1
  else if 8 ≤ i ∧ i < 24 then 2 ^ 48 - 2 ^ 32 + 2 ^ 20 - 1
  else 0

/-- May a descriptor be installed (19 R590)? -/
def pealFits (d : Dev) (x : PealSlot) : Bool :=
  let p := pealDepth x
  decide (p.1 ≤ p.2 ∧ p.2 ≤ 63) && hasParent x == (p.1 != 0) &&
    (pealChildren x).all (fun i => !hasParent x || chanPart d (childConvoy x i).1 == chanPart d (parentConvoy x).1) &&
    (upto 32).all fun i => (listGet 0 x.words i).toNat &&& pealUsed i == (listGet 0 x.words i).toNat

/-- PEAL.CMD INSTALL (19 R590). -/
def execPealInstall (slot : Nat) (s : State) : Out := act s fun d =>
  pealCmd d slot 1 fun d a =>
    if !argOk d 0 a 256 64 then pealEnd d slot 2 else
    let x := pealOf d slot
    let y := { x with
      state := 1, words := (upto 32).map fun i => BitVec.ofNat 64 (valAt d (a + 8 * i) 8)
      answered := [], ackd := [], cancel := false, due := none, host := false }
    if x.state = 0 ∧ pealFits d y = true then pealEnd (setPeal d slot y) slot 0 else pealEnd d slot 1

/-- PEAL.CMD ARM, at the root (19 R592). -/
def execPealCmdArm (slot : Nat) (s : State) : Out := act s fun d =>
  pealCmd d slot 2 fun d _ =>
    let x := pealOf d slot
    if x.state = 1 ∧ hasParent x = false then pealArms (pealEnd d slot 0) slot else pealEnd d slot 1

/-- PEAL.CMD CANCEL, at the root while it is ARMING (19 R596). -/
def execPealCancel (slot : Nat) (s : State) : Out := act s fun d =>
  pealCmd d slot 3 fun d _ =>
    let x := pealOf d slot
    if x.state = 2 ∧ hasParent x = false then pealEnd (setPeal d slot { x with cancel := true }) slot 0 else pealEnd d slot 1

/-- PEAL.CMD UNINSTALL (19 R600). -/
def execPealUninstall (slot : Nat) (s : State) : Out := act s fun d =>
  pealCmd d slot 4 fun d _ => pealEnd (setPeal d slot { pealOf d slot with state := 0, words := [], host := false }) slot 0

/-- PEAL.CMD SEND (19 R597): the 64 B image at ARG, its type and payload, on `convoy`. -/
def execPealCmdSend (slot : Nat) (s : State) : Out := act s fun d =>
  pealCmd d slot 5 fun d a =>
    if !argOk d 0 a 64 64 then pealEnd d slot 2 else
    let c := regFld d (pealOff slot 0) 24 6
    let ch := c / 8192
    let idx := c % 8192
    let typ := valAt d a 8 / 16 % 64
    if idx = 0 ∨ typ < 0x10 ∨ 0x13 < typ ∨ takesTx d (ch, idx) = false then pealEnd d slot 1
    else
      let m := control ch idx (convoyOf d ch idx).peer typ 0 (BitVec.ofNat 64 (valAt d (a + 16) 8)) (BitVec.ofNat 64 (valAt d (a + 24) 8))
      let d := enqueueTx d ch idx [{ msg := { m with cls := 0, last := true, data := bytesAt d (a + 32) 32 }, owner := .none, src := [] }]
      let x := pealOf d slot
      let d := if x.state = 0 then d else hostKeeps d (some slot) typ
      pealEnd (setFlag d (pealOff slot 5) 1) slot 0

/-! Timers. -/

/-- A node's wait for its children ends, 50 µs × (D − d) after its sending (19 R592, R593). -/
def execPealArmWaitEnd (slot : Nat) (s : State) : Out := act s fun d =>
  if (pealOf d slot).state = 2 then pealArmEnds d slot else d

/-- The action time of a strike has come (19 R594). -/
def execPealActionTime (slot : Nat) (s : State) : Out := act s fun d =>
  if (pealOf d slot).state = 3 ∧ (pealOf d slot).due.isSome then pealActs d slot else d

/-- `hold` has passed at an ARMED node without strike or abort (19 R595, R596). -/
def execPealHoldExpiry (slot : Nat) (s : State) : Out := act s fun d =>
  if (pealOf d slot).state = 3 ∧ (pealOf d slot).due = none then setFlag (pealAborts d slot 6) (pealOff slot 5) 3 else d

end Sys2Proof.Machine
end

