-- ==== Sys2Proof/Machine/ThreadFp.lean ====
section
/-! DEFINITION. Thread FP32 instructions and conversions (04 R130, R131; 06 R204 to R206). -/

namespace Sys2Proof.Machine

open Parts

/-- A result of FP32 arithmetic, by its code in R130. -/
def fpFn (fn a b c : Nat) : FpRes :=
  match fn with
  | 0 => fpAdd f32 .even a b
  | 1 => fpSub f32 .even a b
  | 2 => fpMul f32 .even a b
  | 3 => fpFma f32 .even a b c
  | 4 => fpMinMax f32 false a b
  | _ => fpMinMax f32 true a b

/-- An FP32 instruction in one thread, and the status it raises. -/
def fpThread (k : Ctx) (t : Thread) : Thread × Nat :=
  match k.op with
  | .fp fn rd ra rb rc =>
    let r := fpFn fn (treg t ra).toNat (treg t rb).toNat (treg t rc).toNat
    (setTreg t rd (BitVec.ofNat 32 r.bits) (tpoison t ra || tpoison t rb || (fn == 3 && tpoison t rc)),
      if r.inv then stInvalid else 0)
  | _ => (t, 0)

/-- Issue of the FP32 instruction with a code. -/
def fpStep (fn : Nat) (p : PathRef) (d : Dev) : Dev :=
  perLaneStatus p (fun o => match o with | .fp f _ _ _ _ => f == fn | _ => false) d fpThread

/-- The status of a conversion to an integer (06 R204). -/
def intStatus (r : IntRes) : Nat := (if r.sat then stSat else 0) ||| (if r.inv then stInvalid else 0)

/-- A conversion, by its code in R130: value and status. -/
def cvtFn (fn : Nat) (trunc : Bool) (a : Word32) : Word32 × Nat :=
  let mode := if trunc then Rnd.trunc else Rnd.even
  match fn with
  | 8 => (BitVec.ofNat 32 (intToFp f32 .even a.toInt), 0)
  | 9 => (BitVec.ofNat 32 (intToFp f32 .even a.toNat), 0)
  | 0xA =>
    let r := fpToInt f32 mode (-(2 ^ 31)) (2 ^ 31 - 1) a.toNat
    (BitVec.ofInt 32 r.v, intStatus r)
  | _ =>
    let r := fpToInt f32 mode 0 (2 ^ 32 - 1) a.toNat
    (BitVec.ofInt 32 r.v, intStatus r)

/-- A conversion in one thread, and the status it raises. -/
def cvtThread (k : Ctx) (t : Thread) : Thread × Nat :=
  match k.op with
  | .cvt fn rd ra trunc =>
    let r := cvtFn fn trunc (treg t ra)
    (setTreg t rd r.1 (tpoison t ra), r.2)
  | _ => (t, 0)

/-- Issue of the conversion with a code. -/
def cvtStep (fn : Nat) (p : PathRef) (d : Dev) : Dev :=
  perLaneStatus p (fun o => match o with | .cvt f _ _ _ => f == fn | _ => false) d cvtThread

/-- `thr.fadd` (04 R130, R131). -/
def execThrFadd (p : PathRef) (s : State) : Out := act s fun d => fpStep 0 p d

/-- `thr.fsub` (04 R130, R131). -/
def execThrFsub (p : PathRef) (s : State) : Out := act s fun d => fpStep 1 p d

/-- `thr.fmul` (04 R130, R131). -/
def execThrFmul (p : PathRef) (s : State) : Out := act s fun d => fpStep 2 p d

/-- `thr.ffma` (04 R130, R131). -/
def execThrFfma (p : PathRef) (s : State) : Out := act s fun d => fpStep 3 p d

/-- `thr.fmin` (04 R130, R131). -/
def execThrFmin (p : PathRef) (s : State) : Out := act s fun d => fpStep 4 p d

/-- `thr.fmax` (04 R130, R131). -/
def execThrFmax (p : PathRef) (s : State) : Out := act s fun d => fpStep 5 p d

/-- `thr.cvt.f32.s32` (04 R130, R131). -/
def execThrCvtF32S32 (p : PathRef) (s : State) : Out := act s fun d => cvtStep 0x8 p d

/-- `thr.cvt.f32.u32` (04 R130, R131). -/
def execThrCvtF32U32 (p : PathRef) (s : State) : Out := act s fun d => cvtStep 0x9 p d

/-- `thr.cvt.s32.f32` (04 R130, R131). -/
def execThrCvtS32F32 (p : PathRef) (s : State) : Out := act s fun d => cvtStep 0xA p d

/-- `thr.cvt.u32.f32` (04 R130, R131). -/
def execThrCvtU32F32 (p : PathRef) (s : State) : Out := act s fun d => cvtStep 0xB p d

end Sys2Proof.Machine
end

