-- ==== Sys2Proof/Machine/ThreadInt.lean ====
section
/-! DEFINITION. Thread integer instructions (04 R128, R129). -/

namespace Sys2Proof.Machine

open Parts

/-- The value of an integer instruction, by its code in R128. Shifts take the low five bits of the second operand. -/
def aluFn (fn : Nat) (a b : Word32) : Word32 :=
  let n := b.toNat % 32
  match fn with
  | 0x0 => a + b
  | 0x1 => a - b
  | 0x2 => a &&& b
  | 0x3 => a ||| b
  | 0x4 => a ^^^ b
  | 0x5 => a <<< n
  | 0x6 => a >>> n
  | 0x7 => BitVec.sshiftRight a n
  | 0x8 => if a.slt b then a else b
  | 0x9 => if a.slt b then b else a
  | 0xA => if a < b then a else b
  | 0xB => if a < b then b else a
  | 0xC => BitVec.ofNat 32 (clz a)
  | 0xD => BitVec.ofNat 32 (popcount a)
  | _ => b

/-- An integer instruction in one thread: `thr.li` has no source register (04 R128, R152). -/
def aluThread (k : Ctx) (t : Thread) : Thread :=
  match k.op with
  | .alu fn rd ra b =>
    let (v, q) := srcVal t b
    setTreg t rd (aluFn fn (treg t ra) v) (q || (fn != 0xF && tpoison t ra))
  | _ => t

/-- Issue of the integer instruction with a code. -/
def aluStep (fn : Nat) (p : PathRef) (d : Dev) : Dev :=
  perLane p (fun o => match o with | .alu f _ _ _ => f == fn | _ => false) d fun k _ t => aluThread k t

/-- The high 32 bits of a signed product. -/
def mulHigh (a b : Word32) : Word32 := BitVec.ofInt 32 ((a.toInt * b.toInt) / 2 ^ 32)

/-- The value of a multiply or divide instruction, by its code in R129, divisor zero and overflow included. -/
def mulFn (fn : Nat) (a b c : Word32) : Word32 :=
  match fn with
  | 0 => a * b
  | 1 => mulHigh a b
  | 2 => BitVec.ofNat 32 (a.toNat * b.toNat / 2 ^ 32)
  | 3 => a * b + c
  | 4 => if b = 0 then BitVec.allOnes 32 else BitVec.ofInt 32 (a.toInt.tdiv b.toInt)
  | 5 => if b = 0 then BitVec.allOnes 32 else BitVec.ofNat 32 (a.toNat / b.toNat)
  | 6 => if b = 0 then a else BitVec.ofInt 32 (a.toInt.tmod b.toInt)
  | _ => if b = 0 then a else BitVec.ofNat 32 (a.toNat % b.toNat)

/-- A multiply or divide instruction in one thread. -/
def mulThread (k : Ctx) (t : Thread) : Thread :=
  match k.op with
  | .mul fn rd ra rb rc =>
    setTreg t rd (mulFn fn (treg t ra) (treg t rb) (treg t rc))
      (tpoison t ra || tpoison t rb || (fn == 3 && tpoison t rc))
  | _ => t

/-- Issue of the multiply or divide instruction with a code. -/
def mulStep (fn : Nat) (p : PathRef) (d : Dev) : Dev :=
  perLane p (fun o => match o with | .mul f _ _ _ _ => f == fn | _ => false) d fun k _ t => mulThread k t

/-- `thr.add` (04 R128). -/
def execThrAdd (p : PathRef) (s : State) : Out := act s fun d => aluStep 0x0 p d

/-- `thr.sub` (04 R128). -/
def execThrSub (p : PathRef) (s : State) : Out := act s fun d => aluStep 0x1 p d

/-- `thr.and` (04 R128). -/
def execThrAnd (p : PathRef) (s : State) : Out := act s fun d => aluStep 0x2 p d

/-- `thr.or` (04 R128). -/
def execThrOr (p : PathRef) (s : State) : Out := act s fun d => aluStep 0x3 p d

/-- `thr.xor` (04 R128). -/
def execThrXor (p : PathRef) (s : State) : Out := act s fun d => aluStep 0x4 p d

/-- `thr.shl` (04 R128). -/
def execThrShl (p : PathRef) (s : State) : Out := act s fun d => aluStep 0x5 p d

/-- `thr.shr` (04 R128). -/
def execThrShr (p : PathRef) (s : State) : Out := act s fun d => aluStep 0x6 p d

/-- `thr.sra` (04 R128). -/
def execThrSra (p : PathRef) (s : State) : Out := act s fun d => aluStep 0x7 p d

/-- `thr.min` (04 R128). -/
def execThrMin (p : PathRef) (s : State) : Out := act s fun d => aluStep 0x8 p d

/-- `thr.max` (04 R128). -/
def execThrMax (p : PathRef) (s : State) : Out := act s fun d => aluStep 0x9 p d

/-- `thr.minu` (04 R128). -/
def execThrMinu (p : PathRef) (s : State) : Out := act s fun d => aluStep 0xA p d

/-- `thr.maxu` (04 R128). -/
def execThrMaxu (p : PathRef) (s : State) : Out := act s fun d => aluStep 0xB p d

/-- `thr.clz` (04 R128). -/
def execThrClz (p : PathRef) (s : State) : Out := act s fun d => aluStep 0xC p d

/-- `thr.popc` (04 R128). -/
def execThrPopc (p : PathRef) (s : State) : Out := act s fun d => aluStep 0xD p d

/-- `thr.li` (04 R128). -/
def execThrLi (p : PathRef) (s : State) : Out := act s fun d => aluStep 0xF p d

/-- `thr.mul` (04 R129). -/
def execThrMul (p : PathRef) (s : State) : Out := act s fun d => mulStep 0 p d

/-- `thr.mulh` (04 R129). -/
def execThrMulh (p : PathRef) (s : State) : Out := act s fun d => mulStep 1 p d

/-- `thr.mulhu` (04 R129). -/
def execThrMulhu (p : PathRef) (s : State) : Out := act s fun d => mulStep 2 p d

/-- `thr.mad` (04 R129). -/
def execThrMad (p : PathRef) (s : State) : Out := act s fun d => mulStep 3 p d

/-- `thr.div` (04 R129). -/
def execThrDiv (p : PathRef) (s : State) : Out := act s fun d => mulStep 4 p d

/-- `thr.divu` (04 R129). -/
def execThrDivu (p : PathRef) (s : State) : Out := act s fun d => mulStep 5 p d

/-- `thr.rem` (04 R129). -/
def execThrRem (p : PathRef) (s : State) : Out := act s fun d => mulStep 6 p d

/-- `thr.remu` (04 R129). -/
def execThrRemu (p : PathRef) (s : State) : Out := act s fun d => mulStep 7 p d

end Sys2Proof.Machine
end

