-- ==== Sys2Proof/Machine/ThreadMove.lean ====
section
/-! DEFINITION. Thread moves, cross-lane instructions and uniform instructions (04 R127, R133, R134). -/

namespace Sys2Proof.Machine

open Parts

/-- A move, select or move from a uniform register in one thread; a select's poison is that of its predicate and of
both sources (04 R133, R152). -/
def moveThread (k : Ctx) (t : Thread) : Thread :=
  match k.op with
  | .mov rd ra => setTreg t rd (treg t ra) (tpoison t ra)
  | .sel rd ra rb pc =>
    setTreg t rd (if bit t.p pc then treg t ra else treg t rb) (bit t.pp pc || tpoison t ra || tpoison t rb)
  | .movu hi rd ua =>
    let v := ureg k.g ua
    setTreg t rd (if hi then (v >>> 32).setWidth 32 else v.setWidth 32) (upoison k.g ua)
  | _ => t

/-- `thr.shfl` in one thread: the register of the lane named, as it stands (04 R134). -/
def shflThread (k : Ctx) (t : Thread) : Thread :=
  match k.op with
  | .shfl rd ra rb =>
    let src := threadAt k.g ((treg t rb).toNat % 32)
    setTreg t rd (treg src ra) (tpoison t rb || tpoison src ra)
  | _ => t

/-- `thr.ballot` in each executing lane: the lanes among them whose predicate is 1; poisoned if any of those predicates
is (04 R133, R152). -/
def ballotLanes (k : Ctx) (ls : List Nat) (g : Group) : Group :=
  match k.op with
  | .ballot rd pb =>
    let m := laneMask fun l => ls.contains l && bit (threadAt g l).p pb
    let q := ls.any fun l => bit (threadAt g l).pp pb
    setLanes g ls fun _ t => setTreg t rd m q
  | _ => g

/-- `thr.vote.*` in each executing lane, over all lanes of the path (04 R133). -/
def voteLanes (k : Ctx) (ls : List Nat) (g : Group) : Group :=
  match k.op with
  | .vote all pd pb =>
    let path := laneList k.p.lanes
    let v := if all then path.all fun l => bit (threadAt g l).p pb else path.any fun l => bit (threadAt g l).p pb
    let q := path.any fun l => bit (threadAt g l).pp pb
    setLanes g ls fun _ t => setPred t pd v q
  | _ => g

/-- The value of a uniform instruction, by its code in R133. -/
def uniFn (fn : Nat) (a b : Word64) : Word64 :=
  match fn with
  | 0 => a + b
  | 1 => a - b
  | 2 => a &&& b
  | 3 => a ||| b
  | 4 => a ^^^ b
  | 5 => a <<< (b.toNat % 64)
  | 6 => a >>> (b.toNat % 64)
  | _ => a * b

/-- A uniform instruction on the group, with the leader's thread (04 R127, R133). A write of one half keeps the other
half, and its poison. -/
def uniGroup (k : Ctx) (t : Thread) (g : Group) : Group :=
  match k.op with
  | .uni fn ud ua ub => setUreg g ud (uniFn fn (ureg g ua) (ureg g ub)) (upoison g ua || upoison g ub)
  | .umov ud ua => setUreg g ud (ureg g ua) (upoison g ua)
  | .umovt hi ud ra =>
    setUreg g ud (setFld (ureg g ud) (if hi then 63 else 31) (if hi then 32 else 0) (treg t ra).toNat)
      (upoison g ud || tpoison t ra)
  | .uli ud => setUreg g ud (k.imms.headD 0) false
  | _ => g

/-- Issue of a uniform instruction. -/
def uniIssue (sel : Op → Bool) (p : PathRef) (d : Dev) : Dev :=
  issueLeader p sel d fun d k t => some (updGroup d k (uniGroup k t))

/-- Issue of the uniform instruction with a code. -/
def uniStep (fn : Nat) (p : PathRef) (d : Dev) : Dev :=
  uniIssue (fun o => match o with | .uni f _ _ _ => f == fn | _ => false) p d

/-- `thr.mov` (04 R133). -/
def execThrMov (p : PathRef) (s : State) : Out := act s fun d => 
  perLane p (fun o => match o with | .mov _ _ => true | _ => false) d fun k _ t => moveThread k t

/-- `thr.sel` (04 R133). -/
def execThrSel (p : PathRef) (s : State) : Out := act s fun d => 
  perLane p (fun o => match o with | .sel _ _ _ _ => true | _ => false) d fun k _ t => moveThread k t

/-- `thr.movu.lo` (04 R133). -/
def execThrMovuLo (p : PathRef) (s : State) : Out := act s fun d => 
  perLane p (fun o => match o with | .movu false _ _ => true | _ => false) d fun k _ t => moveThread k t

/-- `thr.movu.hi` (04 R133). -/
def execThrMovuHi (p : PathRef) (s : State) : Out := act s fun d => 
  perLane p (fun o => match o with | .movu true _ _ => true | _ => false) d fun k _ t => moveThread k t

/-- `thr.shfl` (04 R133, R134). -/
def execThrShfl (p : PathRef) (s : State) : Out := act s fun d => 
  perLane p (fun o => match o with | .shfl _ _ _ => true | _ => false) d fun k _ t => shflThread k t

/-- `thr.ballot` (04 R133). -/
def execThrBallot (p : PathRef) (s : State) : Out := act s fun d => 
  issueLanes p (fun o => match o with | .ballot _ _ => true | _ => false) d fun d k ls =>
    some (updGroup d k (ballotLanes k ls))

/-- `thr.vote.any` (04 R133). -/
def execThrVoteAny (p : PathRef) (s : State) : Out := act s fun d => 
  issueLanes p (fun o => match o with | .vote false _ _ => true | _ => false) d fun d k ls =>
    some (updGroup d k (voteLanes k ls))

/-- `thr.vote.all` (04 R133). -/
def execThrVoteAll (p : PathRef) (s : State) : Out := act s fun d => 
  issueLanes p (fun o => match o with | .vote true _ _ => true | _ => false) d fun d k ls =>
    some (updGroup d k (voteLanes k ls))

/-- `uni.add` (04 R133). -/
def execUniAdd (p : PathRef) (s : State) : Out := act s fun d => uniStep 0 p d

/-- `uni.sub` (04 R133). -/
def execUniSub (p : PathRef) (s : State) : Out := act s fun d => uniStep 1 p d

/-- `uni.and` (04 R133). -/
def execUniAnd (p : PathRef) (s : State) : Out := act s fun d => uniStep 2 p d

/-- `uni.or` (04 R133). -/
def execUniOr (p : PathRef) (s : State) : Out := act s fun d => uniStep 3 p d

/-- `uni.xor` (04 R133). -/
def execUniXor (p : PathRef) (s : State) : Out := act s fun d => uniStep 4 p d

/-- `uni.shl` (04 R133). -/
def execUniShl (p : PathRef) (s : State) : Out := act s fun d => uniStep 5 p d

/-- `uni.shr` (04 R133). -/
def execUniShr (p : PathRef) (s : State) : Out := act s fun d => uniStep 6 p d

/-- `uni.mul` (04 R133). -/
def execUniMul (p : PathRef) (s : State) : Out := act s fun d => uniStep 7 p d

/-- `uni.mov` (04 R133). -/
def execUniMov (p : PathRef) (s : State) : Out := act s fun d => 
  uniIssue (fun o => match o with | .umov _ _ => true | _ => false) p d

/-- `uni.movt.lo` (04 R127, R133). -/
def execUniMovtLo (p : PathRef) (s : State) : Out := act s fun d => 
  uniIssue (fun o => match o with | .umovt false _ _ => true | _ => false) p d

/-- `uni.movt.hi` (04 R127, R133). -/
def execUniMovtHi (p : PathRef) (s : State) : Out := act s fun d => 
  uniIssue (fun o => match o with | .umovt true _ _ => true | _ => false) p d

/-- `uni.li` (04 R133). -/
def execUniLi (p : PathRef) (s : State) : Out := act s fun d => 
  uniIssue (fun o => match o with | .uli _ => true | _ => false) p d

end Sys2Proof.Machine
end

