-- ==== Sys2Proof/Machine/ThreadPred.lean ====
section
/-! DEFINITION. Thread compares and predicate logic (04 R132). -/

namespace Sys2Proof.Machine

open Parts

/-- A compare, by its code in R132, and whether it is invalid. -/
def cmpFn (fn : Nat) (a b : Word32) : Bool × Bool :=
  match fn with
  | 0x0 => (a == b, false)
  | 0x1 => (a != b, false)
  | 0x2 => (a.slt b, false)
  | 0x3 => (!b.slt a, false)
  | 0x4 => (b.slt a, false)
  | 0x5 => (!a.slt b, false)
  | 0x6 => (decide (a < b), false)
  | 0x7 => (decide (a ≤ b), false)
  | 0x8 => (decide (b < a), false)
  | 0x9 => (decide (b ≤ a), false)
  | 0xA => fpCompare f32 .eq a.toNat b.toNat
  | 0xB => fpCompare f32 .lt a.toNat b.toNat
  | 0xC => fpCompare f32 .le a.toNat b.toNat
  | _ => fpCompare f32 .un a.toNat b.toNat

/-- A compare in one thread, and the status it raises. -/
def cmpThread (k : Ctx) (t : Thread) : Thread × Nat :=
  match k.op with
  | .cmp fn pd ra b =>
    let (v, q) := srcVal t b
    let r := cmpFn fn (treg t ra) v
    (setPred t pd r.1 (tpoison t ra || q), if r.2 then stInvalid else 0)
  | _ => (t, 0)

/-- Issue of the compare with a code. -/
def cmpStep (fn : Nat) (p : PathRef) (d : Dev) : Dev :=
  perLaneStatus p (fun o => match o with | .cmp f _ _ _ => f == fn | _ => false) d cmpThread

/-- Predicate logic, by its code in R132. -/
def plogicFn (fn : Nat) (a b : Bool) : Bool :=
  match fn with
  | 0 => a && b
  | 1 => a || b
  | 2 => a != b
  | 3 => a && !b
  | 4 => !a
  | 5 => true
  | _ => false

/-- Predicate logic in one thread: `pnot` reads one predicate, `pset` and `pclr` none. -/
def plogicThread (k : Ctx) (t : Thread) : Thread :=
  match k.op with
  | .plogic fn pd pa pb =>
    setPred t pd (plogicFn fn (bit t.p pa) (bit t.p pb))
      ((decide (fn ≤ 4) && bit t.pp pa) || (decide (fn ≤ 3) && bit t.pp pb))
  | _ => t

/-- Issue of the predicate instruction with a code. -/
def plogicStep (fn : Nat) (p : PathRef) (d : Dev) : Dev :=
  perLane p (fun o => match o with | .plogic f _ _ _ => f == fn | _ => false) d fun k _ t => plogicThread k t

/-- `thr.cmp.eq` (04 R132). -/
def execThrCmpEq (p : PathRef) (s : State) : Out := act s fun d => cmpStep 0x0 p d

/-- `thr.cmp.ne` (04 R132). -/
def execThrCmpNe (p : PathRef) (s : State) : Out := act s fun d => cmpStep 0x1 p d

/-- `thr.cmp.lt` (04 R132). -/
def execThrCmpLt (p : PathRef) (s : State) : Out := act s fun d => cmpStep 0x2 p d

/-- `thr.cmp.le` (04 R132). -/
def execThrCmpLe (p : PathRef) (s : State) : Out := act s fun d => cmpStep 0x3 p d

/-- `thr.cmp.gt` (04 R132). -/
def execThrCmpGt (p : PathRef) (s : State) : Out := act s fun d => cmpStep 0x4 p d

/-- `thr.cmp.ge` (04 R132). -/
def execThrCmpGe (p : PathRef) (s : State) : Out := act s fun d => cmpStep 0x5 p d

/-- `thr.cmp.ltu` (04 R132). -/
def execThrCmpLtu (p : PathRef) (s : State) : Out := act s fun d => cmpStep 0x6 p d

/-- `thr.cmp.leu` (04 R132). -/
def execThrCmpLeu (p : PathRef) (s : State) : Out := act s fun d => cmpStep 0x7 p d

/-- `thr.cmp.gtu` (04 R132). -/
def execThrCmpGtu (p : PathRef) (s : State) : Out := act s fun d => cmpStep 0x8 p d

/-- `thr.cmp.geu` (04 R132). -/
def execThrCmpGeu (p : PathRef) (s : State) : Out := act s fun d => cmpStep 0x9 p d

/-- `thr.cmp.feq` (04 R132). -/
def execThrCmpFeq (p : PathRef) (s : State) : Out := act s fun d => cmpStep 0xA p d

/-- `thr.cmp.flt` (04 R132). -/
def execThrCmpFlt (p : PathRef) (s : State) : Out := act s fun d => cmpStep 0xB p d

/-- `thr.cmp.fle` (04 R132). -/
def execThrCmpFle (p : PathRef) (s : State) : Out := act s fun d => cmpStep 0xC p d

/-- `thr.cmp.fun` (04 R132). -/
def execThrCmpFun (p : PathRef) (s : State) : Out := act s fun d => cmpStep 0xD p d

/-- `thr.pand` (04 R132). -/
def execThrPand (p : PathRef) (s : State) : Out := act s fun d => plogicStep 0 p d

/-- `thr.por` (04 R132). -/
def execThrPor (p : PathRef) (s : State) : Out := act s fun d => plogicStep 1 p d

/-- `thr.pxor` (04 R132). -/
def execThrPxor (p : PathRef) (s : State) : Out := act s fun d => plogicStep 2 p d

/-- `thr.pandn` (04 R132). -/
def execThrPandn (p : PathRef) (s : State) : Out := act s fun d => plogicStep 3 p d

/-- `thr.pnot` (04 R132). -/
def execThrPnot (p : PathRef) (s : State) : Out := act s fun d => plogicStep 4 p d

/-- `thr.pset` (04 R132). -/
def execThrPset (p : PathRef) (s : State) : Out := act s fun d => plogicStep 5 p d

/-- `thr.pclr` (04 R132). -/
def execThrPclr (p : PathRef) (s : State) : Out := act s fun d => plogicStep 6 p d

end Sys2Proof.Machine
end

