-- ==== Sys2Proof/Machine/TraceOut.lean ====
section
/-! DEFINITION. Trace records made by time and what becomes of records: SYNC, SAMPLE, OBS, the ring (20 R604 to R615). -/

namespace Sys2Proof.Machine

open Parts

/-- Is there a trace unit on a die (20 R605)? -/
def traceDie (d : Dev) (die : Nat) : Bool := die == 4 || (decide (die < 4) && cdFitted d.variant die)

/-- A SYNC that finds its buffer full takes the place of the newest record, which is lost (20 R606). -/
def dropNewest (d : Dev) (die : Nat) : Dev :=
  let u := traceOf d die
  if u.buf.length < 2048 then d
  else
    let o := trcOff (0x20 + die)
    let d := setReg d o (BitVec.ofNat 32 (min 0xFFFFFFFF ((regRaw d o).toNat + 1)))
    setTrace d die { u with buf := u.buf.dropLast, dropped := u.dropped + 1 }

/-- Every 2^`sync_exp` P-cycles of a die (20 R606). -/
def execTraceSync (die : Nat) (s : State) : Out := act s fun d =>
  if !traceDie d die || !traced d 0xD none none then d
  else trace (dropNewest d die) die 0x2C 0 0xD none none 0 (reg64 d (regOff die 0x1A 0 4)).toNat

/-- Is a register the low half of a 64-bit counter (03 R91; 20, catalogue)? -/
def counterLo (off : Nat) : Bool :=
  let r := offReg off
  match offUnit off with
  | 0x08 => r == 2 || r == 4
  | 0x0A => r == 3
  | 0x0B => r == 2
  | 0x0C => r == 2
  | 0x1A => r == 2 || r == 4 || r == 6
  | 0x1F => decide (0x20 ≤ r ∧ r < 0x30) && r % 2 == 0
  | 0x21 => r == 0
  | 0x22 => decide (2 ≤ r ∧ r < 0x22) && r % 2 == 0
  | 0x28 => r == 1
  | 0x2C => r == 5 || r == 7
  | 0x2D => r % 2 == 0
  | _ => false

/-- The value that a sample takes (20 R610). -/
def sampleVal (d : Dev) (off : Nat) : Nat :=
  if (regRow? off).isSome && counterLo off then (view d off).toNat + (view d (off + 4)).toNat * 2 ^ 32
  else (view d off).toNat

/-- Every 2^`smp_exp` P-cycles of the HD (20 R610). -/
def execTraceSample (s : State) : Out := act s fun d =>
  (upto 8).foldl (fun e k =>
    let a := (regVal d (trcOff (0x18 + k))).toNat
    if a = 0 then e else trace e 4 0x2C 0 0xB none none a (sampleVal d a)) d

/-- A record that has left everywhere leaves the buffer; where records were dropped the die then tells how many (20 R607). -/
def freeRecords (d : Dev) (die : Nat) (buf : List TraceRec) : Dev :=
  let u := traceOf d die
  let left := buf.filter fun r => r.obs || r.ring
  let d := setTrace d die { u with buf := left }
  if u.dropped = 0 ∨ left.length = u.buf.length then d
  else
    let d := trace (setTrace d die { traceOf d die with dropped := 0 }) die 0x2C 0 0xC none none u.dropped 0
    setFlag d (trcOff 9) 0

/-- The first record of a list that satisfies a condition, and the list with that record changed. -/
def takeFirst (p : TraceRec → Bool) (f : TraceRec → TraceRec) : List TraceRec → Option (TraceRec × List TraceRec)
  | [] => none
  | r :: rs => if p r then some (r, f r :: rs) else (takeFirst p f rs).map fun e => (e.1, r :: e.2)

/-- OBS has room: the oldest record of a die that is still to leave on it is sent, on alternate lanes (20 R612, R613). -/
def execTraceObsSend (die : Nat) (s : State) : Out := act s fun d =>
  match takeFirst (·.obs) (fun r => { r with obs := false }) (traceOf d die).buf with
  | none => d
  | some (r, buf) => freeRecords { d with tr := { d.tr with out := d.tr.out ++ [(d.tr.out.length % 2, r)] } } die buf

/-- The bytes of a record (20 R608). -/
def recordBytes (r : TraceRec) : List Byte :=
  leBytes 8 r.w0.toNat ++ leBytes 8 r.w1.toNat ++ leBytes 8 r.w2.toNat ++ leBytes 8 r.w3.toNat

/-- Records of the ring that are not freed (20 R614). -/
def ringUnfreed (d : Dev) : Nat := (reg64 d (trcOff 5) - reg64 d (trcOff 7)).toNat

/-- Where the ring lies (20 R614). -/
def ringBase (d : Dev) : Nat := regFld d (trcOff 4) 15 0 * 2 ^ 32 + regFld d (trcOff 3) 31 16 * 2 ^ 16

/-- A record goes to the ring (20 R614, R615). -/
def ringPut (d : Dev) (r : TraceRec) : Dev :=
  let e := regFld d (trcOff 3) 5 0
  let base := ringBase d
  let n := 2 ^ (e - 5)
  let full := decide (n ≤ ringUnfreed d)
  if full && regFld d (trcOff 0) 2 2 == 0 then
    let o := trcOff 0x24
    setReg d o (BitVec.ofNat 32 (min 0xFFFFFFFF ((regRaw d o).toNat + 1)))
  else
    let d := writeAt d (base + 32 * ((reg64 d (trcOff 5)).toNat % n)) (recordBytes r) false
    let d := if full then addCtr d (trcOff 7) 1 else d
    let d := addCtr d (trcOff 5) 1
    if !full && ringUnfreed d == regFld d (trcOff 0) 16 13 * 2 ^ (e - 9) then raiseChime (setFlag d (trcOff 9) 1) 4844 else d

/-- The oldest record of a die that is still to go to the ring is written (20 R604, R614, R615); while the class M budget of the ring's
CD has no token it waits (16 R490), as `waits` tells. -/
def execTraceRingWrite (die : Nat) (waits : Bool) (s : State) : Out := act s fun d =>
  match takeFirst (·.ring) (fun r => { r with ring := false }) (traceOf d die).buf, waits, farLine? d (ringBase d / 64) with
  | none, _, _ => d
  | some _, true, some (c, _) => setFlag d (arbOff c) 1
  | some (r, buf), _, _ => ringPut (freeRecords d die buf) r

end Sys2Proof.Machine
end

