-- ==== Sys2Proof/Machine/Vector.lean ====
section
/-! DEFINITION. The vector engine (08): operands and windows, results, issue, start and completion. -/

namespace Sys2Proof.Machine

open Parts

/-- A value of a result: its bits, its poison, and the status it raises. -/
structure VVal where
  v : Nat
  p : Bool := false
  st : Nat := 0
  deriving DecidableEq, Repr

/-- The fields of a vector word. -/
def vxOp (w : Word64) : Nat := wOp w - 0x20
/-- `fn`. -/
def vxFn (w : Word64) : Nat := fld w 49 46
/-- `ty`. -/
def vxTy (w : Word64) : Nat := fld w 45 43
/-- The count n. -/
def vxN (w : Word64) : Nat := fld w 42 31 + 1
/-- `imm`. -/
def vxImm (w : Word64) : Nat := fld w 4 0
/-- `rnd`. -/
def vxRnd (w : Word64) : Rnd := rndOf (fld w 14 13)

/-- The element offsets of vd, va, vb, vc: those of u[`us`] with `win` (08 R244); of a load or store, the register
element offset (08 R260). -/
def vxOffsets (w u : Word64) : List Nat :=
  if vxOp w = 8 then [fld u 43 32, fld u 43 32, 0, 0]
  else if bit w 5 then [fld u 11 0, fld u 23 12, fld u 35 24, fld u 47 36] else [0, 0, 0, 0]

/-- Element e of an operand register: v0 to v7, a0 to a3. -/
def vxElem (x : Tile) (code e : Nat) : Elem := if code < 8 then vecAt x code e else accAt x (code - 8) e

/-- Value e of a source operand in the layout of a type (08 R241, R243, R244). -/
def vxSrc (x : Tile) (u : Word64) (code ty off e : Nat) : Nat × Bool :=
  if code = 0xF then (0, false)
  else if code = 0xC then
    match ty with
    | 4 => (u.toNat, false)
    | 3 => (fld u 15 0, false)
    | 5 => (fld u 31 0 / 2 ^ (8 * (e % 4)) % 256, false)
    | 6 => (fld u 31 0 / 2 ^ (4 * (e % 8)) % 16, false)
    | _ => (fld u 31 0, false)
  else
    match ty with
    | 3 => (let a := vxElem x code (off + e); (a.v.toNat % 2 ^ 16, a.p))
    | 4 =>
      let a := vxElem x code (off + e)
      let b := vxElem x (code + 1) (off + e)
      (a.v.toNat + b.v.toNat * 2 ^ 32, a.p || b.p)
    | 5 => (let a := vxElem x code (off + e / 4); (a.v.toNat / 2 ^ (8 * (e % 4)) % 256, a.p))
    | 6 => (let a := vxElem x code (off + e / 8); (a.v.toNat / 2 ^ (4 * (e % 8)) % 16, a.p))
    | _ => (let a := vxElem x code (off + e); (a.v.toNat, a.p))

/-- A packed element: `width` bits per value, the values that lie in it, and the element before (08 R245). A partly
written element keeps its other bits, and stays poisoned if it was. -/
def packElem (width : Nat) (old : Elem) (vs : List VVal) : Elem :=
  let full := vs.length * width == 32
  let r := vs.foldl (fun (a : Word32 × Nat) v => (setFld a.1 (a.2 + width - 1) a.2 v.v, a.2 + width)) (old.v, 0)
  ⟨r.1, vs.any (·.p) || (!full && old.p)⟩

/-- The values of a packed destination, element by element; fuel bounds the elements. -/
def packAll (width per : Nat) (x : Tile) (code : Nat) : Nat → Nat → List VVal → List (Nat × Elem)
  | 0, _, _ => []
  | _, _, [] => []
  | n + 1, e, vs =>
    (e, packElem width (vxElem x code e) (vs.take per)) :: packAll width per x code n (e + 1) (vs.drop per)

/-- The elements of one register that a destination's values give: (register code, element, contents) (08 R241). -/
def vxDest (x : Tile) (code ty off : Nat) (vs : List VVal) : List (Nat × Nat × Elem) :=
  match ty with
  | 4 => (enumFrom off vs).flatMap fun e =>
      [(code, e.1, ⟨BitVec.ofNat 32 e.2.v, e.2.p⟩), (code + 1, e.1, ⟨BitVec.ofNat 32 (e.2.v / 2 ^ 32), e.2.p⟩)]
  | 5 => (packAll 8 4 x code 4096 off vs).map fun e => (code, e.1, e.2)
  | 6 => (packAll 4 8 x code 4096 off vs).map fun e => (code, e.1, e.2)
  | _ => (enumFrom off vs).map fun e => (code, e.1, ⟨BitVec.ofNat 32 e.2.v, e.2.p⟩)

/-- The result of an instruction from its destination elements and values (08 R261, R262). -/
def vxResult (dest : List (Nat × Nat × Elem)) (vs : List VVal) : UnitRes :=
  let st := orAll (vs.map (·.st))
  let poison := vs.any (·.p)
  { acc := (dest.filter fun e => decide (8 ≤ e.1)).map fun e => ((e.1 - 8) * 4096 + e.2.1, e.2.2)
    vec := (dest.filter fun e => decide (e.1 < 8)).map fun e => (e.1 * 4096 + e.2.1, e.2.2)
    status := st ||| (if poison then stPoison else 0)
    flags := b2n (stHas st stIdx) + 2 * b2n poison
    sat := (vs.filter fun v => stHas v.st stSat).length
    inv := ((enumFrom 0 vs).find? fun v => stHas v.2.st stInvalid).map (·.1) }

/-! Values. -/

/-- An integer result (08 R251). -/
def vxInt (fn : Nat) (unsigned : Bool) (a b c : Word32) : Word32 :=
  match fn with
  | 0x0 => a + b
  | 0x1 => a - b
  | 0x2 => a * b
  | 0x3 => if unsigned then mulFn 2 a b 0 else mulFn 1 a b 0
  | 0x4 => a * b + c
  | 0x5 => if unsigned then aluFn 0xA a b else aluFn 0x8 a b
  | 0x6 => if unsigned then aluFn 0xB a b else aluFn 0x9 a b
  | 0x7 => a &&& b
  | 0x8 => a ||| b
  | 0x9 => a ^^^ b
  | 0xA => aluFn 0x5 a b
  | 0xB => aluFn 0x6 a b
  | 0xC => aluFn 0x7 a b
  | _ => if a.slt 0 then -a else a

/-- The format of a floating-point type. -/
def vxFmt (ty : Nat) : FpFmt := match ty with | 2 => f32 | 3 => bf16 | _ => f64

/-- A floating-point result (08 R252). -/
def vxFp (fn : Nat) (f : FpFmt) (mode : Rnd) (a b c : Nat) : FpRes :=
  let sign := 2 ^ (f.eb + f.fb)
  match fn with
  | 0 => fpAdd f mode a b
  | 1 => fpSub f mode a b
  | 2 => fpMul f mode a b
  | 3 => fpFma f mode a b c
  | 4 => fpMinMax f false a b
  | 5 => fpMinMax f true a b
  | 6 => ⟨a % sign, false⟩
  | _ => ⟨a ^^^ sign, false⟩

/-- The compare codes of 08 R253. -/
def vxCmpCode (fn : Nat) : FpCmp :=
  match fn with
  | 0 => .eq
  | 1 => .ne
  | 2 => .lt
  | 3 => .le
  | 4 => .gt
  | 5 => .ge
  | _ => .un

/-- A compare and whether it is invalid (08 R253). -/
def vxCmp (fn ty a b : Nat) : Bool × Bool :=
  if ty ≤ 1 then
    let x : Word32 := BitVec.ofNat 32 a
    let y : Word32 := BitVec.ofNat 32 b
    let lt := fun (p q : Word32) => if ty = 1 then decide (p < q) else p.slt q
    match vxCmpCode fn with
    | .eq => (x == y, false)
    | .ne => (x != y, false)
    | .lt => (lt x y, false)
    | .le => (!lt y x, false)
    | .gt => (lt y x, false)
    | .ge => (!lt x y, false)
    | .un => (false, false)
  else fpCompare (vxFmt ty) (vxCmpCode fn) a b

/-- The range of an integer destination: the code range, or the symmetric one (06 R187, R204). -/
def vxRange (ty : Nat) (sym : Bool) : Int × Int :=
  let n := if ty = 5 then 8 else if ty = 6 then 4 else 32
  (-(2 ^ (n - 1)) + (if sym then 1 else 0), 2 ^ (n - 1) - 1)

/-- The bits of an integer result of a type. -/
def vxIntBits (ty : Nat) (v : Int) : Nat := wrapInt (if ty = 5 then 8 else if ty = 6 then 4 else 32) v

/-- The value of an integer source of a type. -/
def vxIntVal (ty v : Nat) : Int := sextNat (if ty = 5 then 8 else if ty = 6 then 4 else 32) v

/-- Is a type an integer one? -/
def vxIsInt (ty : Nat) : Bool := ty == 0 || ty == 5 || ty == 6

/-- A conversion of one value: bits and status (06 R204 to R206, 08 R255). -/
def vxCvt (src dst : Nat) (mode : Rnd) (sym : Bool) (shift v : Nat) : Nat × Nat :=
  let (lo, hi) := vxRange dst sym
  if vxIsInt dst then
    let r := if vxIsInt src then dyToInt mode lo hi ⟨vxIntVal src v, -(shift : Int)⟩ else fpToInt (vxFmt src) mode lo hi v
    (vxIntBits dst r.v, intStatus r)
  else if vxIsInt src then (intToFp (vxFmt dst) mode (vxIntVal src v), 0)
  else
    let r := fpToFp (vxFmt src) (vxFmt dst) mode v
    (r.bits, (if r.inv then stInvalid else 0) ||| (if r.ovf then stOvf else 0))

/-- The exact product and sum of a quantisation: none where it is invalid (08 R256). -/
def vxQntVal (a b c : Fp) : Option Fp :=
  if a.isNan || b.isNan || c.isNan then none else
  match fpMulVal a b with
  | none => none
  | some p =>
    match p, c with
    | .inf s, .inf t => if s = t then some p else none
    | .inf _, _ => some p
    | _, .inf _ => some c
    | .fin s m e, .fin t n g =>
      let x := dyAdd (fpDy s m e) (fpDy t n g)
      some (.fin (decide (x.m < 0)) x.m.natAbs x.e)
    | _, _ => none

/-- A quantisation of one value: bits and status (08 R256). -/
def vxQnt (src dst : Nat) (mode : Rnd) (sym : Bool) (a b c : Nat) : Nat × Nat :=
  let ty := if dst = 0 then 5 else if dst = 1 then 6 else 0
  let (lo, hi) := vxRange ty sym
  let va := if src = 0 then (let i := vxIntVal 0 a; Fp.fin (decide (i < 0)) i.natAbs 0) else fpUnpack f32 a
  let r := match vxQntVal va (fpUnpack f32 b) (fpUnpack f32 c) with
    | none => ⟨0, false, true⟩
    | some (.inf s) => ⟨if s then lo else hi, true, false⟩
    | some (.fin s m e) => dyToInt mode lo hi (fpDy s m e)
    | some (.nan _) => ⟨0, false, true⟩
  (vxIntBits ty r.v, intStatus r)

/-- The index mode of b and c of `vx.qnt` (08 R256). -/
def vxIndex (m e : Nat) : Nat := match m with | 0 => e | 1 => e % 64 | _ => e / 64

/-- The exact sum of a segment of floating-point values, rounded once (08 R257). -/
def vxSumFp (f : FpFmt) (mode : Rnd) (vs : List Nat) : FpRes :=
  let xs := vs.map (fpUnpack f)
  let pos := xs.any fun x => x == .inf false
  let neg := xs.any fun x => x == .inf true
  if xs.any (·.isSnan) || (pos && neg) then ⟨fpDefaultNan f, true⟩
  else if xs.any (·.isNan) then ⟨fpDefaultNan f, false⟩
  else if pos then ⟨fpInf f false, false⟩
  else if neg then ⟨fpInf f true, false⟩
  else
    let s := dySum (xs.map fun x => match x with
      | .fin s m e => fpDy s m e
      | _ => ⟨0, 0⟩)
    ⟨(fpRoundDy f mode s false).bits, false⟩

/-- The minimum or maximum of a segment of floating-point values, NaNs ignored (08 R257). -/
def vxExtFp (f : FpFmt) (max : Bool) (vs : List Nat) : FpRes :=
  let sig := vs.any fun v => (fpUnpack f v).isSnan
  match vs.filter fun v => !(fpUnpack f v).isNan with
  | [] => ⟨fpDefaultNan f, true⟩
  | v :: rest => ⟨rest.foldl (fun a b => (fpMinMax f max a b).bits) v, sig⟩

/-- A reduction of a segment: bits and status (08 R257). -/
def vxReduce (fn ty : Nat) (mode : Rnd) (vs : List Nat) : Nat × Nat :=
  if ty ≤ 1 then
    match fn with
    | 0 =>
      let r := clampInt (-(2 ^ 31)) (2 ^ 31 - 1) ((vs.map (vxIntVal 0)).foldl (· + ·) 0)
      (vxIntBits 0 r.v, if r.sat then stOvf else 0)
    | _ =>
      let w := vs.map (BitVec.ofNat 32)
      ((w.foldl (vxInt (fn + 4) (ty == 1) · · 0) (w.headD 0)).toNat, 0)
  else
    let r := if fn = 0 then vxSumFp (vxFmt ty) mode vs else vxExtFp (vxFmt ty) (fn == 2) vs
    (r.bits, if r.inv then stInvalid else 0)

/-! Instructions. -/

/-- Value e of vd's computation for the instructions that work value by value (08 R251 to R256). `g` reads a source:
operand 1 to 3, type, index. -/
def vxValue (w : Word64) (g : Nat → Nat → Nat → Nat × Bool) (e : Nat) : VVal :=
  let ty := vxTy w
  let fn := vxFn w
  let mode := vxRnd w
  let form := vForm (vxOp w) fn ty
  let useB := match form with
    | some f => f.vb
    | none => false
  let useC := match form with
    | some f => f.vc
    | none => false
  let a := g 1 ty e
  let b := if useB then g 2 ty e else (0, false)
  let c := if useC then g 3 ty e else (0, false)
  let p := a.2 || b.2 || c.2
  let w32 := fun (n : Nat) => (BitVec.ofNat 32 n : Word32)
  match vxOp w with
  | 0 => ⟨(vxInt fn (ty == 1) (w32 a.1) (w32 b.1) (w32 c.1)).toNat, p, 0⟩
  | 1 =>
    let r := vxFp fn (vxFmt ty) mode a.1 b.1 c.1
    ⟨r.bits, p, if r.inv then stInvalid else 0⟩
  | 2 =>
    if fn = 8 then
      let c := g 3 0 e
      ⟨if c.1 = 0 then b.1 else a.1, a.2 || b.2 || c.2, 0⟩
    else
      let r := vxCmp fn ty a.1 b.1
      ⟨if r.1 then 0xFFFFFFFF else 0, p, if r.2 then stInvalid else 0⟩
  | 3 =>
    let r := transRes fn a.1
    ⟨r.bits, p, if r.inv then stInvalid else 0⟩
  | 4 =>
    let r := vxCvt ty fn mode (bit w 7) (vxImm w) a.1
    ⟨r.1, p, r.2⟩
  | _ =>
    let b := g 2 2 (vxIndex (vxImm w % 4) e)
    let c := g 3 2 (vxIndex (vxImm w / 4 % 4) e)
    let r := vxQnt ty fn mode (bit w 7) a.1 b.1 c.1
    ⟨r.1, a.2 || b.2 || c.2, r.2⟩

/-- Value e of a permutation (08 R258, R259). -/
def vxPermValue (w u : Word64) (g : Nat → Nat → Nat → Nat × Bool) (e : Nat) : VVal :=
  let ty := vxTy w
  let n := vxN w
  let fill : Nat := if bit w 6 then (if ty = 4 then u.toNat else fld u 31 0) else 0
  let pick := fun (i : Nat) (q : Bool) => let a := g 1 ty i; (⟨a.1, a.2 || q, 0⟩ : VVal)
  let b0 := g 2 0 0
  match vxFn w with
  | 0 =>
    let b := g 2 0 e
    if b.1 < n then pick b.1 b.2 else ⟨fill, false, stIdx⟩
  | 1 => if b0.1 < n then pick b0.1 b0.2 else ⟨fill, false, stIdx⟩
  | 2 => if b0.1 ≤ e then pick (e - b0.1) b0.2 else ⟨fill, false, 0⟩
  | 3 => if e + b0.1 < n then pick (e + b0.1) b0.2 else ⟨fill, false, 0⟩
  | 4 => pick e false
  | 5 => let a := g 1 5 e; ⟨wrapInt 32 (vxIntVal 5 a.1), a.2, 0⟩
  | 6 => let a := g 1 6 e; ⟨wrapInt 32 (vxIntVal 6 a.1), a.2, 0⟩
  | _ => pick (64 * (e % 64) + e / 64) false

/-- The type of the destination's values. -/
def vxDstTy (w : Word64) : Nat :=
  match vxOp w with
  | 2 => if vxFn w = 8 then vxTy w else 0
  | 4 => vxFn w
  | 5 => if vxFn w = 0 then 5 else if vxFn w = 1 then 6 else 0
  | _ => vxTy w

/-- The values a vector instruction gives, loads and stores apart. -/
def vxValues (x : Tile) (w u : Word64) : List VVal :=
  let n := vxN w
  let offs := vxOffsets w u
  let codes := vCodes w
  let g := fun i ty e => vxSrc x u (listGet 0 codes i) ty (listGet 0 offs i) e
  match vxOp w with
  | 6 =>
    let k := 2 ^ vxImm w
    (upto (n / k)).map fun sg =>
      let vs := (upto k).map fun j => g 1 (vxTy w) (sg * k + j)
      let r := vxReduce (vxFn w) (vxTy w) (vxRnd w) (vs.map (·.1))
      ⟨r.1, vs.any (·.2), r.2⟩
  | 7 => (upto n).map (vxPermValue w u g)
  | _ => (upto n).map (vxValue w g)

/-- `vx.ld` (08 R260, R262). -/
def vxLoad (d : Dev) (c t : Nat) (w u : Word64) : UnitRes :=
  let base := fld u 20 0
  let vs := (upto (vxN w)).map fun e =>
    (⟨leNat ((upto 4).map fun j => tmByte d c t (base + 4 * e + j)), tmPoison d c t (base + 4 * e), 0⟩ : VVal)
  vxResult (vxDest (tileOf d c t) (fld w 30 27) 0 (fld u 43 32) vs) vs

/-- The line writes of `vx.st`, from line number, elements and fuel (08 R260, R262): a line is written poisoned where it
receives a poisoned element. -/
def storeLines : Nat → Nat → List Elem → List LineWrite
  | 0, _, _ => []
  | _, _, [] => []
  | n + 1, ln, es =>
    let l := es.take 16
    ⟨ln, BitVec.ofNat 512 (leNat (l.flatMap fun e => leBytes 4 e.v.toNat)), BitVec.ofNat 64 (2 ^ (4 * l.length) - 1),
      l.any (·.p)⟩ :: storeLines n (ln + 1) (es.drop 16)

/-- `vx.st` (08 R260, R262). -/
def vxStore (d : Dev) (c t : Nat) (w u : Word64) : UnitRes :=
  let es := (upto (vxN w)).map fun e => vxElem (tileOf d c t) (fld w 26 23) (fld u 43 32 + e)
  let poison := es.any (·.p)
  { mem := storeLines 256 (tilePa c t (fld u 20 0) / 64) es
    status := if poison then stPoison else 0
    flags := 2 * b2n poison }

/-- Does a CDb lack the lanes an instruction needs (08 R263)? -/
def vxAbsent (w : Word64) : Bool :=
  let op := vxOp w
  (op == 4 && (vxTy w == 4 || vxFn w == 4)) ||
    (vxTy w == 4 && op != 4 && op != 7 && op != 8 && !(op == 2 && vxFn w == 8))

/-- What a vector instruction will write (08 R249 to R263). -/
def vxRes (d : Dev) (c t : Nat) (i : UnitInstr) : UnitRes :=
  let w := i.word
  let u : Word64 := BitVec.ofNat 64 (listGet 0 i.uops 0)
  if !cdFull d c && vxAbsent w then { status := stAbsent, flags := 4 }
  else if vxOp w = 8 then (if vxFn w = 0 then vxLoad d c t w u else vxStore d c t w u)
  else
    let x := tileOf d c t
    let vs := vxValues x w u
    vxResult (vxDest x (fld w 30 27) (vxDstTy w) (listGet 0 (vxOffsets w u) 0) vs) vs

/-- The mask bits of the registers of an operand. -/
def vxMask (code : Nat) (pair : Bool) : Nat :=
  ((vRegs code pair).map fun r => if r < 8 then vecBit r else accBit (r - 8)).foldl (· ||| ·) 0

/-- Checks of a vector instruction on u[`us`], and what it reads and writes (08 R244 to R247, R260). -/
def vxCheck (k : Ctx) (vals : List Nat) : UnitCheck :=
  let w := k.w
  let u : Word64 := BitVec.ofNat 64 (listGet 0 vals 0)
  let op := vxOp w
  match vForm op (vxFn w) (vxTy w) with
  | none => .fault stIllegal none
  | some f =>
    let n := vxN w
    let codes := vCodes w
    let pair := f.f64 (vxTy w)
    let m := fun i => vxMask (listGet 0 codes i) (listGet false pair i)
    if op = 8 then
      let ext := [(fld u 20 0, 4 * n)]
      let bits := vxMask (if vxFn w = 0 then fld w 30 27 else fld w 26 23) false
      checked [chkIllegal (fld u 5 0 != 0 || fld u 63 44 != 0), chkIllegal (decide (4096 < fld u 43 32 + n)),
          (fld u 31 21 != 0 || decide (tileBytes < fld u 20 0 + 4 * n), stXlat, some (fld u 31 0))]
        (if vxFn w = 0 then { uops := vals, writes := bits, rmem := ext } else { uops := vals, reads := bits, wmem := ext })
    else
      checked [chkIllegal (bit w 5 && (fld u 63 48 != 0 || !vWindowsOk w op f (vxOffsets w u)))]
        { uops := vals, reads := m 1 ||| (if f.vb then m 2 else 0) ||| (if f.vc then m 3 else 0), writes := m 0 }

/-- Issue of a vector instruction (08 R247, R248). -/
def vxIssue (sel : Nat → Nat → Bool) (p : PathRef) (d : Dev) : Dev :=
  issueUnit (fun o => match o with | .vx op fn => sel op fn | _ => false) .vx
    (fun k => if vUsesUs k.w then [fld k.w 12 8] else []) vxCheck p d

/-- Issue of the vector instruction of an opcode and function code. -/
def vxStep (op fn : Nat) (p : PathRef) (d : Dev) : Dev := vxIssue (fun o f => o == op && f == fn) p d

/-- The values per A-cycle of an instruction (08 R249). -/
def vxRate (w : Word64) : Nat :=
  let op := vxOp w
  if vxTy w = 4 ∨ (op = 4 ∧ vxFn w = 4) then 32
  else if op = 3 ∨ (op = 7 ∧ (vxFn w = 0 ∨ vxFn w = 7)) then 16 else 64

/-- The head of the vector queue starts (08 R248, R249, R266). `stall` is the number of A-cycles that other units' grants
add to a load or store (08 R250). -/
def execVxStart (cd tile stall : Nat) (ecc : List (Nat × EccFound)) (s : State) : Out := act s fun d =>
  let x := tileOf d cd tile
  match x.vx.queue with
  | [] => d
  | i :: _ =>
    if !depsMet x i then d else
    let d := unitReads d cd tile i ecc
    let r := vxRes d cd tile i
    let o := if stHas r.status stAbsent then 1 else ceilDiv (vxN i.word) (vxRate i.word) + (if vxOp i.word = 8 then stall else 0)
    addCtr (setTile d cd tile (startHead x .vx { i with res := r })) (regOff cd 0x0C tile 2) o

/-- A vector instruction completes (08 R249, R261 to R263; 06 R208 to R210). -/
def execVxComplete (cd tile ord : Nat) (s : State) : Out := act s fun d =>
  let x := tileOf d cd tile
  match runningAt x .vx ord with
  | none => d
  | some i =>
    let d := writeRes (setTile d cd tile (dropRunning x .vx ord)) cd tile ord i.res
    raiseRes (setFlagMask d (regOff cd 0x0C tile 1) i.res.flags) cd tile 5 i i.res

/-- `vx.add`, integer (08 R251). -/
def execVxAdd (p : PathRef) (s : State) : Out := act s fun d => vxStep 0 0x0 p d

/-- `vx.sub`, integer (08 R251). -/
def execVxSub (p : PathRef) (s : State) : Out := act s fun d => vxStep 0 0x1 p d

/-- `vx.mul`, integer (08 R251). -/
def execVxMul (p : PathRef) (s : State) : Out := act s fun d => vxStep 0 0x2 p d

/-- `vx.mulh`, integer (08 R251). -/
def execVxMulh (p : PathRef) (s : State) : Out := act s fun d => vxStep 0 0x3 p d

/-- `vx.mad`, integer (08 R251). -/
def execVxMad (p : PathRef) (s : State) : Out := act s fun d => vxStep 0 0x4 p d

/-- `vx.min`, integer (08 R251). -/
def execVxMin (p : PathRef) (s : State) : Out := act s fun d => vxStep 0 0x5 p d

/-- `vx.max`, integer (08 R251). -/
def execVxMax (p : PathRef) (s : State) : Out := act s fun d => vxStep 0 0x6 p d

/-- `vx.and`, integer (08 R251). -/
def execVxAnd (p : PathRef) (s : State) : Out := act s fun d => vxStep 0 0x7 p d

/-- `vx.or`, integer (08 R251). -/
def execVxOr (p : PathRef) (s : State) : Out := act s fun d => vxStep 0 0x8 p d

/-- `vx.xor`, integer (08 R251). -/
def execVxXor (p : PathRef) (s : State) : Out := act s fun d => vxStep 0 0x9 p d

/-- `vx.shl`, integer (08 R251). -/
def execVxShl (p : PathRef) (s : State) : Out := act s fun d => vxStep 0 0xA p d

/-- `vx.shr`, integer (08 R251). -/
def execVxShr (p : PathRef) (s : State) : Out := act s fun d => vxStep 0 0xB p d

/-- `vx.sra`, integer (08 R251). -/
def execVxSra (p : PathRef) (s : State) : Out := act s fun d => vxStep 0 0xC p d

/-- `vx.abs`, integer (08 R251). -/
def execVxAbs (p : PathRef) (s : State) : Out := act s fun d => vxStep 0 0xD p d

/-- `vx.add`, floating-point (08 R252). -/
def execVxAddFp (p : PathRef) (s : State) : Out := act s fun d => vxStep 1 0 p d

/-- `vx.sub`, floating-point (08 R252). -/
def execVxSubFp (p : PathRef) (s : State) : Out := act s fun d => vxStep 1 1 p d

/-- `vx.mul`, floating-point (08 R252). -/
def execVxMulFp (p : PathRef) (s : State) : Out := act s fun d => vxStep 1 2 p d

/-- `vx.fma`, floating-point (08 R252). -/
def execVxFma (p : PathRef) (s : State) : Out := act s fun d => vxStep 1 3 p d

/-- `vx.min`, floating-point (08 R252). -/
def execVxMinFp (p : PathRef) (s : State) : Out := act s fun d => vxStep 1 4 p d

/-- `vx.max`, floating-point (08 R252). -/
def execVxMaxFp (p : PathRef) (s : State) : Out := act s fun d => vxStep 1 5 p d

/-- `vx.abs`, floating-point (08 R252). -/
def execVxAbsFp (p : PathRef) (s : State) : Out := act s fun d => vxStep 1 6 p d

/-- `vx.neg`, floating-point (08 R252). -/
def execVxNeg (p : PathRef) (s : State) : Out := act s fun d => vxStep 1 7 p d

/-- `vx.cmp.eq` (08 R253). -/
def execVxCmpEq (p : PathRef) (s : State) : Out := act s fun d => vxStep 2 0 p d

/-- `vx.cmp.ne` (08 R253). -/
def execVxCmpNe (p : PathRef) (s : State) : Out := act s fun d => vxStep 2 1 p d

/-- `vx.cmp.lt` (08 R253). -/
def execVxCmpLt (p : PathRef) (s : State) : Out := act s fun d => vxStep 2 2 p d

/-- `vx.cmp.le` (08 R253). -/
def execVxCmpLe (p : PathRef) (s : State) : Out := act s fun d => vxStep 2 3 p d

/-- `vx.cmp.gt` (08 R253). -/
def execVxCmpGt (p : PathRef) (s : State) : Out := act s fun d => vxStep 2 4 p d

/-- `vx.cmp.ge` (08 R253). -/
def execVxCmpGe (p : PathRef) (s : State) : Out := act s fun d => vxStep 2 5 p d

/-- `vx.cmp.un` (08 R253). -/
def execVxCmpUn (p : PathRef) (s : State) : Out := act s fun d => vxStep 2 6 p d

/-- `vx.sel` (08 R253). -/
def execVxSel (p : PathRef) (s : State) : Out := act s fun d => vxStep 2 8 p d

/-- `vx.exp2` (08 R254). -/
def execVxExp2 (p : PathRef) (s : State) : Out := act s fun d => vxStep 3 0 p d

/-- `vx.log2` (08 R254). -/
def execVxLog2 (p : PathRef) (s : State) : Out := act s fun d => vxStep 3 1 p d

/-- `vx.rcp` (08 R254). -/
def execVxRcp (p : PathRef) (s : State) : Out := act s fun d => vxStep 3 2 p d

/-- `vx.rsqrt` (08 R254). -/
def execVxRsqrt (p : PathRef) (s : State) : Out := act s fun d => vxStep 3 3 p d

/-- `vx.cvt` (08 R255). -/
def execVxCvt (p : PathRef) (s : State) : Out := act s fun d => vxIssue (fun o _ => o == 4) p d

/-- `vx.qnt` (08 R256). -/
def execVxQnt (p : PathRef) (s : State) : Out := act s fun d => vxIssue (fun o _ => o == 5) p d

/-- `vx.radd` (08 R257). -/
def execVxRadd (p : PathRef) (s : State) : Out := act s fun d => vxStep 6 0 p d

/-- `vx.rmin` (08 R257). -/
def execVxRmin (p : PathRef) (s : State) : Out := act s fun d => vxStep 6 1 p d

/-- `vx.rmax` (08 R257). -/
def execVxRmax (p : PathRef) (s : State) : Out := act s fun d => vxStep 6 2 p d

/-- `vx.perm` (08 R258, R259). -/
def execVxPerm (p : PathRef) (s : State) : Out := act s fun d => vxStep 7 0 p d

/-- `vx.bcast` (08 R258, R259). -/
def execVxBcast (p : PathRef) (s : State) : Out := act s fun d => vxStep 7 1 p d

/-- `vx.slide.up` (08 R258, R259). -/
def execVxSlideUp (p : PathRef) (s : State) : Out := act s fun d => vxStep 7 2 p d

/-- `vx.slide.dn` (08 R258, R259). -/
def execVxSlideDn (p : PathRef) (s : State) : Out := act s fun d => vxStep 7 3 p d

/-- `vx.mov` (08 R258, R259). -/
def execVxMov (p : PathRef) (s : State) : Out := act s fun d => vxStep 7 4 p d

/-- `vx.unpk.i8` (08 R258, R259). -/
def execVxUnpkI8 (p : PathRef) (s : State) : Out := act s fun d => vxStep 7 5 p d

/-- `vx.unpk.i4` (08 R258, R259). -/
def execVxUnpkI4 (p : PathRef) (s : State) : Out := act s fun d => vxStep 7 6 p d

/-- `vx.tr64` (08 R258, R259). -/
def execVxTr64 (p : PathRef) (s : State) : Out := act s fun d => vxStep 7 7 p d

/-- `vx.ld` (08 R260). -/
def execVxLd (p : PathRef) (s : State) : Out := act s fun d => vxStep 8 0 p d

/-- `vx.st` (08 R260). -/
def execVxSt (p : PathRef) (s : State) : Out := act s fun d => vxStep 8 1 p d

end Sys2Proof.Machine
end

