-- ==== Sys2Proof/Machine/Walk.lean ====
section
/-! DEFINITION. Walks, host-assisted fills and invalidations (13 R396 to R408). -/

namespace Sys2Proof.Machine

open Parts

/-- Leaves a cause for the access that waits for it (13 R408). -/
def leaveAnswer (d : Dev) (sel : TlbSel) (sp : Space) (va : Nat) (acc : Access) (cause named : Nat) : Dev :=
  let x := xinst d (selInst sel)
  setXinst d (selInst sel) { x with
    answers := (x.answers.filter fun a => !answers sel sp va acc a) ++ [⟨sel, sp, va, acc, cause, named⟩] }

/-- Does a cached leaf decide an access: it passes its checks, or fails with a cause that no new walk changes (13 R396)? -/
def leafServes (d : Dev) (sel : TlbSel) (sp : Space) (va : Nat) (acc : Access) : Bool :=
  match cachedLeaf d sel sp va with
  | some t => let c := leafCause d sp t.entry t.level va acc; !(c == 5 || c == 6)
  | none => false

/-- A cached leaf that an access failed on is dropped (13 R396). -/
def dropFailing (d : Dev) (sel : TlbSel) (sp : Space) (va : Nat) : Dev :=
  match cachedLeaf d sel sp va with
  | some t => dropLeaf d sel t
  | none => d

/-- A channel whose translation has ended delivers the messages that waited for it (14 R424, R428). -/
def drainFor (d : Dev) (inst : Nat) : Dev := if 16 ≤ inst then drainChannel d (inst - 16) else d

/-- A walk ends for an access that missed (13 R396, R398): its leaf is cached, or its cause is recorded and left for the
access. -/
def execTableWalkComplete (sel : TlbSel) (sp : Space) (va : Nat) (acc : Access) (s : State) : Out := act s fun d =>
  let i := selInst sel
  let va := va % vaMod
  if hostXlat d i || outsideSpace d sp va || leafServes d sel sp va acc || (xinst d i).answers.any (answers sel sp va acc) then d
  else
    let d := match walkFor (dropFailing d sel sp va) sel sp va acc with
      | (d, .cause c _) => leaveAnswer d sel sp va acc c c
      | (d, _) => d
    drainFor d i

/-- The instance code of a translation instance (13 R406): 1 + c for CD c, 16 + ch for channel ch. -/
def xlatCode (inst : Nat) : Nat := if inst < 16 then 1 + inst else inst

/-- The translation instance of an instance code other than the package's. -/
def codeInst (code : Nat) : Nat := if code < 16 then code - 1 else code

/-- No slot. -/
def noSlot (_ : Nat) : ReqSlot := {}

/-- A request slot. -/
def slotAt (x : XInst) (i : Nat) : ReqSlot := Sparse.get noSlot x.slots i

/-- Stores a request slot. -/
def setSlot (d : Dev) (inst i : Nat) (r : ReqSlot) : Dev :=
  let x := xinst d inst
  setXinst d inst { x with slots := Sparse.set noSlot x.slots i r }

/-- The number of request slots of an instance (13 R406). -/
def slotCount : Nat := 16

/-- A miss in host-assisted translation, or an access that a cached leaf fails, which is dropped, takes the lowest free slot and
raises the chime of its instance; where every slot is taken it waits (13 R396, R406). -/
def execHostAssistMiss (sel : TlbSel) (sp : Space) (va : Nat) (acc : Access) (s : State) : Out := act s fun d =>
  let i := selInst sel
  let va := va % vaMod
  let x := xinst d i
  let same := (upto slotCount).any fun k =>
    let r := slotAt x k
    r.waiting && r.sel == sel && r.space == sp && r.acc == acc && r.va == va
  if !hostXlat d i || outsideSpace d sp va || leafServes d sel sp va acc || x.answers.any (answers sel sp va acc) || same then d
  else
    let d := dropFailing d sel sp va
    match (upto slotCount).find? fun k => !(slotAt x k).waiting with
    | none => setFlag d (xlatOff i 5) 2
    | some k => raiseChime (setSlot d i k ⟨true, ((slotAt x k).seq + 1) % 256, va, sp, acc, sel⟩) (4096 + xlatCode i)

/-- A register of the XLAT instance with a code. -/
def codeOff (code reg : Nat) : Nat := if code = 0 then regOff 5 0x16 0 reg else xlatOff (codeInst code) reg

/-- The translation instances that an invalidation covers (13 R401). -/
def covered (code : Nat) (host : Bool) : List Nat :=
  if code = 0 then (if host then (upto 48).map (16 + ·) else upto 4) else [codeInst code]

/-- Does an invalidation match a space? -/
def invSpace (v : Inval) (sp : Space) : Bool :=
  match sp with
  | .dev part dasid _ => !v.host && (v.kind == 0 || (part == v.part && dasid == v.space))
  | .host hx => v.host && (v.kind == 0 || hx == v.space % 1024)

/-- Does an invalidation match a cached entry? -/
def invEntry (v : Inval) (t : TlbEntry) : Bool :=
  t.host == v.host && (v.kind == 0 || (if t.host then t.space == v.space % 1024 else t.part == v.part && t.space == v.space)) &&
    (v.kind != 2 || t.va == v.va / 2 ^ t.size * 2 ^ t.size)

/-- Does an invalidation match an access that waits for a leaf? Its page may be as large as 1 GiB. -/
def invAccess (v : Inval) (sp : Space) (va : Nat) : Bool := invSpace v sp && (v.kind != 2 || va / 2 ^ 30 == v.va / 2 ^ 30)

/-- Drops what an invalidation matches in one instance, and restarts its matching slots (13 R401, R402, R407). -/
def dropMatching (v : Inval) (d : Dev) (inst : Nat) : Dev :=
  let x := xinst d inst
  let keep := fun (l : List TlbEntry) => l.filter fun t => !invEntry v t
  let d := setXinst d inst { x with
    cache := keep x.cache, walk := keep x.walk, answers := x.answers.filter fun a => !invAccess v a.space a.va }
  let d := if 16 ≤ inst then d else { d with xl := { d.xl with
    stream := Sparse.set noTlb d.xl.stream inst (keep (Sparse.get noTlb d.xl.stream inst))
    tile := (d.xl.tile.map fun e => if e.1 / 180 = inst then (e.1, keep e.2) else e).filter fun e => e.2 != [] } }
  (upto slotCount).foldl (fun d k =>
    let r := slotAt (xinst d inst) k
    if r.waiting && invAccess v r.space r.va then
      raiseChime (setSlot d inst k { r with seq := (r.seq + 1) % 256 }) (4096 + xlatCode inst)
    else d) d

/-- No invalidation. -/
def noInval (_ : Nat) : Option Inval := none

/-- The invalidation in progress in an instance. -/
def invalOf (d : Dev) (code : Nat) : Option Inval := Sparse.get noInval d.xl.inval code

/-- Stores the invalidation in progress. -/
def setInval (d : Dev) (code : Nat) (v : Option Inval) : Dev :=
  { d with xl := { d.xl with inval := Sparse.set noInval d.xl.inval code v } }

/-- The CD whose tables the issuer of a gong operation uses; 4 for an issuer that uses none. -/
def whoCd (w : Who) : Nat :=
  match w with
  | .queue q => queueCd q
  | .path c _ _ _ => c
  | _ => 4

/-- The transfers that channels of some instances keep translations for (14 R428): channel, convoy and PSN of the CHECK. -/
def keptBy (d : Dev) (is : List Nat) : List (Nat × Nat × Nat) :=
  (d.ch.filter fun x => is.contains (16 + x.1)).flatMap fun x =>
    (x.2.convoys.filter fun v => v.2.kept != []).map fun v => (x.1, v.1, v.2.keptPsn)

/-- An invalidation starts (13 R401, R403): one of the instance that is in progress comes first. -/
def execXlatInv (code : Nat) (s : State) : Out := act s fun d =>
  let o := codeOff code 0
  let e := loadCmd d o
  if (invalOf d code).isSome then d else if !cmdReady e o then e else
  let d := applyField (applyPair e (codeOff code 2)) o (BitVec.allOnes 32)
  let v := regVal d o
  let host := bit v 1
  if fld v 3 2 = 3 ∨ (code ≠ 0 ∧ host = decide (code < 16)) then setRegFld d o 0 0 0 else
  let va := (reg64 d (codeOff code 2)).toNat
  let cds := covered code host
  let upTo := if host then [] else (d.tiles.filter fun e => cds.contains (e.1 / 180)).map fun e => (e.1, e.2.ord)
  let moves := if host then [] else (d.drv.filter fun e => cds.contains (e.1 / 1024)).flatMap fun e =>
    (e.2.moves.filter fun m => m.phase == .moving || m.phase == .moved).map fun m => (e.1, m.id)
  let mine := fun w => !host && cds.contains (whoCd w)
  let inv : Inval := { host := host, kind := fld v 3 2, part := fld v 7 4, space := fld v 19 8, va := va, upTo := upTo, moves := moves
                       upds := d.gg.upd.filter fun u => mine u.who
                       waits := d.gg.wait.filter fun w => !w.arrived && mine w.who
                       kept := if host then keptBy d cds else [] }
  setInval (cds.foldl (dropMatching inv) d) code (some inv)

/-- Is everything done that an invalidation waits for (13 R402)? -/
def invDone (d : Dev) (code : Nat) (v : Inval) : Bool :=
  (v.upTo.all fun e =>
    let x := Sparse.get noTile d.tiles e.1
    (x.stores.all fun t => t.by_.all fun b => decide (e.2 < b.ord)) && x.out.all fun o => decide (e.2 < o.ord)) &&
  (v.moves.all fun m => (moveOf d ⟨m.1, m.2⟩).isNone) && (v.upds.all fun u => !d.gg.upd.contains u) &&
  (v.waits.all fun w => !d.gg.wait.contains w) &&
  (v.kept.all fun k => let x := convoyOf d k.1 k.2.1; x.kept == [] || x.keptPsn != k.2.2) &&
  (!v.host || d.reds.all fun r => match r.owner with
    | .msg ch _ _ => !(covered code true).contains (16 + ch)
    | _ => true)

/-- An invalidation is complete: `go` reads 0 (13 R402). -/
def execInvalidationComplete (code : Nat) (s : State) : Out := act s fun d =>
  match invalOf d code with
  | none => d
  | some v => if invDone d code v then setRegFld (setInval d code none) (codeOff code 0) 0 0 0 else d

/-- The level of a fill answer's leaf in a space, by its `size`; none where the size is not one of the space's format. -/
def fillLevel (sp : Space) (size : Nat) : Option Nat :=
  match sp, size with
  | .dev _ _ _, 0 => some 0
  | .dev _ _ _, 1 => some 1
  | .host _, 2 => some 1
  | .host _, 3 => some 2
  | _, _ => none

/-- The cause that the checks of a walked leaf give for an answered one, or 0 (13 R391, R394, R396, R408). -/
def fillCause (d : Dev) (sp : Space) (e : Word64) (size va : Nat) (acc : Access) : Nat :=
  if !bit e 0 then 1
  else match fillLevel sp size with
    | none => 3
    | some level =>
      let ok := match sp with
        | .dev _ _ _ => bit e 1 && devLeafOk e level va
        | .host _ => hostIsLeaf e && hostLeafOk e level
      if !ok then 3 else leafCause d sp e level va acc

/-- The host's answer to a request slot (13 R408). -/
def xlatFill (d : Dev) (code : Nat) : Dev :=
  let o := codeOff code 0xA
  let d := if code = 0 then d else loadCmd d o
  if code = 0 ∨ !cmdReady d o then d else
  let i := codeInst code
  let d := applyField (applyPair d (codeOff code 0xC)) o (BitVec.allOnes 32)
  let v := regVal d o
  let d := setRegFld d o 17 17 0
  let k := fld v 3 0
  let r := slotAt (xinst d i) k
  if !r.waiting ∨ r.seq ≠ fld v 11 4 then setFlag d (xlatOff i 5) 1
  else
    let d := setSlot d i k { r with waiting := false }
    if bit v 12 then leaveAnswer (latchXlat d i r.space r.va r.acc 8) r.sel r.space r.va r.acc 8 (fld v 16 13)
    else
      let e := reg64 d (codeOff code 0xC)
      let c := fillCause d r.space e (fld v 19 18) r.va r.acc
      if c ≠ 0 then leaveAnswer (latchXlat d i r.space r.va r.acc c) r.sel r.space r.va r.acc c c
      else
        let level := (fillLevel r.space (fld v 19 18)).getD 0
        let x := xinst d i
        setXinst d i { x with cache := setInsert (cacheSets i) x.cache (tlbTag r.space r.va (leafShift r.space level) e level) }

/-- The host answers a request slot (13 R408); messages that waited for it go on. -/
def execXlatFill (code : Nat) (s : State) : Out := act s fun d => drainFor (xlatFill d code) (codeInst code)

end Sys2Proof.Machine
end

