-- ==== Sys2Proof/Machine/Yield.lean ====
section
/-! DEFINITION. `thr.yield` (04 R125): which paths are ready. -/

namespace Sys2Proof.Machine

open Parts

/-- Has the unit that an instruction goes to room for it, or the store buffer for its lines (04 R122; 05 R172; 09 R267; 11 R346)? A
split instruction that is a call or has no unit needs none (07 R234, R235), nor one that the leader does not execute (04 R126). -/
def accepted (d : Dev) (k : Ctx) : Bool :=
  let goes := guardOk k.w (threadAt k.g (leader k.p))
  let unit := fun u => !goes || unitRoom k.x u
  let split := fun u => !cdFull d k.c || k.x.split || unit u
  let ls := (laneList k.p.lanes).filter fun l => guardOk k.w (threadAt k.g l)
  match k.op with
  | .mma => unit .mx
  | .mxAcc _ => unit .mx
  | .al _ => unit .al
  | .vx _ _ => unit .vx
  | .spSplit => split .sp
  | .spMma => split .mx
  | .spRd _ => split .al
  | .drv _ => !goes || decide (drvQueued (droverOf d (tileDrover k.c k.t)) < 16)
  | .bar => relDone d k.c k.t k.slot 1 k.x.ord (laneMask ls.contains)
  | .ld m => m.glob || !localWaits k m ls
  | .st m =>
    if !m.glob then !localWaits k m ls && !releaseWaits d k m ls
    else match xlatAccess .write false d k m ls with
      | (_, .ok ps) => storeEnters d k m ls ps
      | (_, .wait) => false
      | (_, .fault _ _ _) => true
  | _ => true

/-- Is a path of a group ready (04 R122)? -/
def pathReady (d : Dev) (c t slot : Nat) (g : Group) (b : Block) (p : Path) : Bool :=
  let x := tileOf d c t
  mayIssue d c x b && p.st == .ready && (match fetched x b p.pc with
    | .missing => false
    | .bad _ _ => true
    | .word w => mayStart x g slot w p && (match decodeThread w, fetchImms x b p.pc (wExt w) with
      | none, _ => true
      | some _, (_, .missing) => false
      | some op, (imms, _) => accepted d ⟨c, t, slot, { x with ord := x.ord + 1 }, g, p, b, p.pc, w, imms, op⟩))

/-- The lanes of the other paths of a group that were ready in the package as a path of some lanes issued. -/
def readyOthers (d : Dev) (c t slot : Nat) (b : Block) (lanes : BitVec 32) : BitVec 32 :=
  match groupAt (tileOf d c t) slot with
  | none => 0
  | some g => (g.paths.filter fun q => q.lanes &&& lanes == 0 && pathReady d c t slot g b q).foldl (fun m q => m ||| q.lanes) 0

/-- `thr.yield` (04 R125): the path is held until the other paths of its group that were ready as it issued have issued once. -/
def execThrYield (p : PathRef) (s : State) : Out := act s fun before =>
  issueLanes p (fun o => match o with | .yield => true | _ => false) before fun d k ls =>
    let m := readyOthers before k.c k.t k.slot k.b k.p.lanes
    some (if ls = [] ∨ m = 0 then d else updPath d k fun q => { q with st := .yielded m })

end Sys2Proof.Machine
end

