-- ==== Sys2Proof/Machine/Dispatch.lean ====
section
/-! DEFINITION. The dispatch of the commands: one arm each. -/

namespace Sys2Proof.Machine

/-- The effect of a command on everything but the queue of commands. -/
def exec (i : Instr) (s : State) : Host.Outcome State Fault Refusal :=
  match i with
  | .wakeAssert => Sys2Proof.Machine.execWakeAssert s
  | .boot b => Sys2Proof.Machine.execBoot b s
  | .markerBeat die inst bad relOk late => Sys2Proof.Machine.execMarkerBeat die inst bad relOk late s
  | .beatReplay die inst cadence => Sys2Proof.Machine.execBeatReplay die inst cadence s
  | .bundleClockLoss die inst bundle => Sys2Proof.Machine.execBundleClockLoss die inst bundle s
  | .portTraining die inst => Sys2Proof.Machine.execPortTraining die inst s
  | .portTrained die inst ident bad clocks relOk => Sys2Proof.Machine.execPortTrained die inst ident bad clocks relOk s
  | .trainingAttemptTimeout die inst => Sys2Proof.Machine.execTrainingAttemptTimeout die inst s
  | .loopbackPeerRetry die inst => Sys2Proof.Machine.execLoopbackPeerRetry die inst s
  | .d2dLoopback die inst errs => Sys2Proof.Machine.execD2dLoopback die inst errs s
  | .d2dRetrain die inst => Sys2Proof.Machine.execD2dRetrain die inst s
  | .d2dSteer die inst => Sys2Proof.Machine.execD2dSteer die inst s
  | .phaseShed rail => Sys2Proof.Machine.execPhaseShed rail s
  | .registerWrite off value keep after => Sys2Proof.Machine.execRegisterWrite off value keep after s
  | .readToClear core off fenced => Sys2Proof.Machine.execReadToClear core off fenced s
  | .bufferedWriteApply die unit inst => Sys2Proof.Machine.execBufferedWriteApply die unit inst s
  | .votedScrub same upsets => Sys2Proof.Machine.execVotedScrub same upsets s
  | .qDoorbell q count after => Sys2Proof.Machine.execQDoorbell q count after s
  | .recordRead q noToken => Sys2Proof.Machine.execRecordRead q noToken s
  | .recordReread q => Sys2Proof.Machine.execRecordReread q s
  | .qResume q => Sys2Proof.Machine.execQResume q s
  | .qSkip q => Sys2Proof.Machine.execQSkip q s
  | .qHold q => Sys2Proof.Machine.execQHold q s
  | .qFlush q => Sys2Proof.Machine.execQFlush q s
  | .queueBoundary q => Sys2Proof.Machine.execQueueBoundary q s
  | .ctlNop q => Sys2Proof.Machine.execCtlNop q s
  | .ctlComplete q => Sys2Proof.Machine.execCtlComplete q s
  | .chimeMessageWrite n => Sys2Proof.Machine.execChimeMessageWrite n s
  | .cfgSet q keep => Sys2Proof.Machine.execCfgSet q keep s
  | .cfgFence q => Sys2Proof.Machine.execCfgFence q s
  | .cfgFenceRetire q => Sys2Proof.Machine.execCfgFenceRetire q s
  | .blkLaunch q => Sys2Proof.Machine.execBlkLaunch q s
  | .blockPlacement q n => Sys2Proof.Machine.execBlockPlacement q n s
  | .blockStart cd tile blk => Sys2Proof.Machine.execBlockStart cd tile blk s
  | .blockEnd cd tile blk => Sys2Proof.Machine.execBlockEnd cd tile blk s
  | .blockWatchdogExpiry cd tile blk => Sys2Proof.Machine.execBlockWatchdogExpiry cd tile blk s
  | .tileBlockBoundary cd tile => Sys2Proof.Machine.execTileBlockBoundary cd tile s
  | .tilePartitionMove cd tile => Sys2Proof.Machine.execTilePartitionMove cd tile s
  | .instructionFetch p k seen => Sys2Proof.Machine.execInstructionFetch p k seen s
  | .reservedOpcode src => Sys2Proof.Machine.execReservedOpcode src s
  | .thrAdd p => Sys2Proof.Machine.execThrAdd p s
  | .thrSub p => Sys2Proof.Machine.execThrSub p s
  | .thrAnd p => Sys2Proof.Machine.execThrAnd p s
  | .thrOr p => Sys2Proof.Machine.execThrOr p s
  | .thrXor p => Sys2Proof.Machine.execThrXor p s
  | .thrShl p => Sys2Proof.Machine.execThrShl p s
  | .thrShr p => Sys2Proof.Machine.execThrShr p s
  | .thrSra p => Sys2Proof.Machine.execThrSra p s
  | .thrMin p => Sys2Proof.Machine.execThrMin p s
  | .thrMax p => Sys2Proof.Machine.execThrMax p s
  | .thrMinu p => Sys2Proof.Machine.execThrMinu p s
  | .thrMaxu p => Sys2Proof.Machine.execThrMaxu p s
  | .thrClz p => Sys2Proof.Machine.execThrClz p s
  | .thrPopc p => Sys2Proof.Machine.execThrPopc p s
  | .thrLi p => Sys2Proof.Machine.execThrLi p s
  | .thrMul p => Sys2Proof.Machine.execThrMul p s
  | .thrMulh p => Sys2Proof.Machine.execThrMulh p s
  | .thrMulhu p => Sys2Proof.Machine.execThrMulhu p s
  | .thrMad p => Sys2Proof.Machine.execThrMad p s
  | .thrDiv p => Sys2Proof.Machine.execThrDiv p s
  | .thrDivu p => Sys2Proof.Machine.execThrDivu p s
  | .thrRem p => Sys2Proof.Machine.execThrRem p s
  | .thrRemu p => Sys2Proof.Machine.execThrRemu p s
  | .thrFadd p => Sys2Proof.Machine.execThrFadd p s
  | .thrFsub p => Sys2Proof.Machine.execThrFsub p s
  | .thrFmul p => Sys2Proof.Machine.execThrFmul p s
  | .thrFfma p => Sys2Proof.Machine.execThrFfma p s
  | .thrFmin p => Sys2Proof.Machine.execThrFmin p s
  | .thrFmax p => Sys2Proof.Machine.execThrFmax p s
  | .thrCvtF32S32 p => Sys2Proof.Machine.execThrCvtF32S32 p s
  | .thrCvtF32U32 p => Sys2Proof.Machine.execThrCvtF32U32 p s
  | .thrCvtS32F32 p => Sys2Proof.Machine.execThrCvtS32F32 p s
  | .thrCvtU32F32 p => Sys2Proof.Machine.execThrCvtU32F32 p s
  | .thrCmpEq p => Sys2Proof.Machine.execThrCmpEq p s
  | .thrCmpNe p => Sys2Proof.Machine.execThrCmpNe p s
  | .thrCmpLt p => Sys2Proof.Machine.execThrCmpLt p s
  | .thrCmpLe p => Sys2Proof.Machine.execThrCmpLe p s
  | .thrCmpGt p => Sys2Proof.Machine.execThrCmpGt p s
  | .thrCmpGe p => Sys2Proof.Machine.execThrCmpGe p s
  | .thrCmpLtu p => Sys2Proof.Machine.execThrCmpLtu p s
  | .thrCmpLeu p => Sys2Proof.Machine.execThrCmpLeu p s
  | .thrCmpGtu p => Sys2Proof.Machine.execThrCmpGtu p s
  | .thrCmpGeu p => Sys2Proof.Machine.execThrCmpGeu p s
  | .thrCmpFeq p => Sys2Proof.Machine.execThrCmpFeq p s
  | .thrCmpFlt p => Sys2Proof.Machine.execThrCmpFlt p s
  | .thrCmpFle p => Sys2Proof.Machine.execThrCmpFle p s
  | .thrCmpFun p => Sys2Proof.Machine.execThrCmpFun p s
  | .thrPand p => Sys2Proof.Machine.execThrPand p s
  | .thrPor p => Sys2Proof.Machine.execThrPor p s
  | .thrPxor p => Sys2Proof.Machine.execThrPxor p s
  | .thrPandn p => Sys2Proof.Machine.execThrPandn p s
  | .thrPnot p => Sys2Proof.Machine.execThrPnot p s
  | .thrPset p => Sys2Proof.Machine.execThrPset p s
  | .thrPclr p => Sys2Proof.Machine.execThrPclr p s
  | .thrMov p => Sys2Proof.Machine.execThrMov p s
  | .thrSel p => Sys2Proof.Machine.execThrSel p s
  | .thrMovuLo p => Sys2Proof.Machine.execThrMovuLo p s
  | .thrMovuHi p => Sys2Proof.Machine.execThrMovuHi p s
  | .thrShfl p => Sys2Proof.Machine.execThrShfl p s
  | .thrBallot p => Sys2Proof.Machine.execThrBallot p s
  | .thrVoteAny p => Sys2Proof.Machine.execThrVoteAny p s
  | .thrVoteAll p => Sys2Proof.Machine.execThrVoteAll p s
  | .uniAdd p => Sys2Proof.Machine.execUniAdd p s
  | .uniSub p => Sys2Proof.Machine.execUniSub p s
  | .uniAnd p => Sys2Proof.Machine.execUniAnd p s
  | .uniOr p => Sys2Proof.Machine.execUniOr p s
  | .uniXor p => Sys2Proof.Machine.execUniXor p s
  | .uniShl p => Sys2Proof.Machine.execUniShl p s
  | .uniShr p => Sys2Proof.Machine.execUniShr p s
  | .uniMul p => Sys2Proof.Machine.execUniMul p s
  | .uniMov p => Sys2Proof.Machine.execUniMov p s
  | .uniMovtLo p => Sys2Proof.Machine.execUniMovtLo p s
  | .uniMovtHi p => Sys2Proof.Machine.execUniMovtHi p s
  | .uniLi p => Sys2Proof.Machine.execUniLi p s
  | .thrNop p => Sys2Proof.Machine.execThrNop p s
  | .thrExit p => Sys2Proof.Machine.execThrExit p s
  | .thrYield p => Sys2Proof.Machine.execThrYield p s
  | .yieldTimeout p => Sys2Proof.Machine.execYieldTimeout p s
  | .thrBctl p => Sys2Proof.Machine.execThrBctl p s
  | .thrClk p => Sys2Proof.Machine.execThrClk p s
  | .thrLd p ecc => Sys2Proof.Machine.execThrLd p ecc s
  | .thrSt p => Sys2Proof.Machine.execThrSt p s
  | .thrAtom p => Sys2Proof.Machine.execThrAtom p s
  | .globalAccessResponse cd tile ord part ecc => Sys2Proof.Machine.execGlobalAccessResponse cd tile ord part ecc s
  | .storeBufferDrain cd tile line ecc => Sys2Proof.Machine.execStoreBufferDrain cd tile line ecc s
  | .thrBr p => Sys2Proof.Machine.execThrBr p s
  | .thrCall p => Sys2Proof.Machine.execThrCall p s
  | .thrBrInd p => Sys2Proof.Machine.execThrBrInd p s
  | .joinTimeout p => Sys2Proof.Machine.execJoinTimeout p s
  | .barSync p => Sys2Proof.Machine.execBarSync p s
  | .fenceG p => Sys2Proof.Machine.execFenceG p s
  | .fenceB p => Sys2Proof.Machine.execFenceB p s
  | .fenceD src => Sys2Proof.Machine.execFenceD src s
  | .fenceS src => Sys2Proof.Machine.execFenceS src s
  | .fenceRelease p => Sys2Proof.Machine.execFenceRelease p s
  | .streamFenceRetire q => Sys2Proof.Machine.execStreamFenceRetire q s
  | .mxMma p => Sys2Proof.Machine.execMxMma p s
  | .mxZero p => Sys2Proof.Machine.execMxZero p s
  | .mxStAcc p => Sys2Proof.Machine.execMxStAcc p s
  | .mxLdAcc p => Sys2Proof.Machine.execMxLdAcc p s
  | .mxSync p => Sys2Proof.Machine.execMxSync p s
  | .mxSyncRelease p => Sys2Proof.Machine.execMxSyncRelease p s
  | .mxStart cd tile stall ecc => Sys2Proof.Machine.execMxStart cd tile stall ecc s
  | .mxComplete cd tile ord => Sys2Proof.Machine.execMxComplete cd tile ord s
  | .alBind p => Sys2Proof.Machine.execAlBind p s
  | .alZero p => Sys2Proof.Machine.execAlZero p s
  | .alRdI32 p => Sys2Proof.Machine.execAlRdI32 p s
  | .alRdF32 p => Sys2Proof.Machine.execAlRdF32 p s
  | .alStart cd tile ecc => Sys2Proof.Machine.execAlStart cd tile ecc s
  | .alComplete cd tile ord => Sys2Proof.Machine.execAlComplete cd tile ord s
  | .spSplit p => Sys2Proof.Machine.execSpSplit p s
  | .spMma p => Sys2Proof.Machine.execSpMma p s
  | .spRdF64 p => Sys2Proof.Machine.execSpRdF64 p s
  | .spRdF32 p => Sys2Proof.Machine.execSpRdF32 p s
  | .spRdBf16 p => Sys2Proof.Machine.execSpRdBf16 p s
  | .slicerStart cd tile ecc => Sys2Proof.Machine.execSlicerStart cd tile ecc s
  | .slicerComplete cd tile ord => Sys2Proof.Machine.execSlicerComplete cd tile ord s
  | .vxAdd p => Sys2Proof.Machine.execVxAdd p s
  | .vxSub p => Sys2Proof.Machine.execVxSub p s
  | .vxMul p => Sys2Proof.Machine.execVxMul p s
  | .vxMulh p => Sys2Proof.Machine.execVxMulh p s
  | .vxMad p => Sys2Proof.Machine.execVxMad p s
  | .vxMin p => Sys2Proof.Machine.execVxMin p s
  | .vxMax p => Sys2Proof.Machine.execVxMax p s
  | .vxAnd p => Sys2Proof.Machine.execVxAnd p s
  | .vxOr p => Sys2Proof.Machine.execVxOr p s
  | .vxXor p => Sys2Proof.Machine.execVxXor p s
  | .vxShl p => Sys2Proof.Machine.execVxShl p s
  | .vxShr p => Sys2Proof.Machine.execVxShr p s
  | .vxSra p => Sys2Proof.Machine.execVxSra p s
  | .vxAbs p => Sys2Proof.Machine.execVxAbs p s
  | .vxAddFp p => Sys2Proof.Machine.execVxAddFp p s
  | .vxSubFp p => Sys2Proof.Machine.execVxSubFp p s
  | .vxMulFp p => Sys2Proof.Machine.execVxMulFp p s
  | .vxFma p => Sys2Proof.Machine.execVxFma p s
  | .vxMinFp p => Sys2Proof.Machine.execVxMinFp p s
  | .vxMaxFp p => Sys2Proof.Machine.execVxMaxFp p s
  | .vxAbsFp p => Sys2Proof.Machine.execVxAbsFp p s
  | .vxNeg p => Sys2Proof.Machine.execVxNeg p s
  | .vxCmpEq p => Sys2Proof.Machine.execVxCmpEq p s
  | .vxCmpNe p => Sys2Proof.Machine.execVxCmpNe p s
  | .vxCmpLt p => Sys2Proof.Machine.execVxCmpLt p s
  | .vxCmpLe p => Sys2Proof.Machine.execVxCmpLe p s
  | .vxCmpGt p => Sys2Proof.Machine.execVxCmpGt p s
  | .vxCmpGe p => Sys2Proof.Machine.execVxCmpGe p s
  | .vxCmpUn p => Sys2Proof.Machine.execVxCmpUn p s
  | .vxSel p => Sys2Proof.Machine.execVxSel p s
  | .vxExp2 p => Sys2Proof.Machine.execVxExp2 p s
  | .vxLog2 p => Sys2Proof.Machine.execVxLog2 p s
  | .vxRcp p => Sys2Proof.Machine.execVxRcp p s
  | .vxRsqrt p => Sys2Proof.Machine.execVxRsqrt p s
  | .vxCvt p => Sys2Proof.Machine.execVxCvt p s
  | .vxQnt p => Sys2Proof.Machine.execVxQnt p s
  | .vxRadd p => Sys2Proof.Machine.execVxRadd p s
  | .vxRmin p => Sys2Proof.Machine.execVxRmin p s
  | .vxRmax p => Sys2Proof.Machine.execVxRmax p s
  | .vxPerm p => Sys2Proof.Machine.execVxPerm p s
  | .vxBcast p => Sys2Proof.Machine.execVxBcast p s
  | .vxSlideUp p => Sys2Proof.Machine.execVxSlideUp p s
  | .vxSlideDn p => Sys2Proof.Machine.execVxSlideDn p s
  | .vxMov p => Sys2Proof.Machine.execVxMov p s
  | .vxUnpkI8 p => Sys2Proof.Machine.execVxUnpkI8 p s
  | .vxUnpkI4 p => Sys2Proof.Machine.execVxUnpkI4 p s
  | .vxTr64 p => Sys2Proof.Machine.execVxTr64 p s
  | .vxLd p => Sys2Proof.Machine.execVxLd p s
  | .vxSt p => Sys2Proof.Machine.execVxSt p s
  | .vxStart cd tile stall ecc => Sys2Proof.Machine.execVxStart cd tile stall ecc s
  | .vxComplete cd tile ord => Sys2Proof.Machine.execVxComplete cd tile ord s
  | .drvMove src => Sys2Proof.Machine.execDrvMove src s
  | .drvFill src => Sys2Proof.Machine.execDrvFill src s
  | .drvDescriptorFetch drover ecc => Sys2Proof.Machine.execDrvDescriptorFetch drover ecc s
  | .drvMoveStart drover id ecc => Sys2Proof.Machine.execDrvMoveStart drover id ecc s
  | .drvMoveComplete drover id => Sys2Proof.Machine.execDrvMoveComplete drover id s
  | .gongAdd src => Sys2Proof.Machine.execGongAdd src s
  | .gongSet src => Sys2Proof.Machine.execGongSet src s
  | .gongMax src => Sys2Proof.Machine.execGongMax src s
  | .gongArm src => Sys2Proof.Machine.execGongArm src s
  | .gongDisarm src => Sys2Proof.Machine.execGongDisarm src s
  | .gongWaitGe src => Sys2Proof.Machine.execGongWaitGe src s
  | .gongWaitEq src => Sys2Proof.Machine.execGongWaitEq src s
  | .gongUpdatePerformed n => Sys2Proof.Machine.execGongUpdatePerformed n s
  | .gongWaitArrival n => Sys2Proof.Machine.execGongWaitArrival n s
  | .hostGongStoreSet addr bytes v after => Sys2Proof.Machine.execHostGongStoreSet addr bytes v after s
  | .hostGongStoreAdd addr bytes v after => Sys2Proof.Machine.execHostGongStoreAdd addr bytes v after s
  | .hostGongStoreMax addr bytes v after => Sys2Proof.Machine.execHostGongStoreMax addr bytes v after s
  | .hostGongLoad core addr bytes fenced => Sys2Proof.Machine.execHostGongLoad core addr bytes fenced s
  | .correctedLineRewrite line => Sys2Proof.Machine.execCorrectedLineRewrite line s
  | .homeFill line victim ondie found => Sys2Proof.Machine.execHomeFill line victim ondie found s
  | .homeAtomic op ecc noToken => Sys2Proof.Machine.execHomeAtomic op ecc noToken s
  | .wellShrinkStep cd => Sys2Proof.Machine.execWellShrinkStep cd s
  | .wellGrowStep cd => Sys2Proof.Machine.execWellGrowStep cd s
  | .bucketTransfer cd waits => Sys2Proof.Machine.execBucketTransfer cd waits s
  | .refreshWindow cd chan => Sys2Proof.Machine.execRefreshWindow cd chan s
  | .sectorRead line ondie found late noToken waits => Sys2Proof.Machine.execSectorRead line ondie found late noToken waits s
  | .sectorRewrite line => Sys2Proof.Machine.execSectorRewrite line s
  | .patrolScrub cd chan ondie found waits => Sys2Proof.Machine.execPatrolScrub cd chan ondie found waits s
  | .ftScrub cd => Sys2Proof.Machine.execFtScrub cd s
  | .commandedScrubDone cd found waits => Sys2Proof.Machine.execCommandedScrubDone cd found waits s
  | .ftMapout cd => Sys2Proof.Machine.execFtMapout cd s
  | .shareCopy cd found waits => Sys2Proof.Machine.execShareCopy cd found waits s
  | .mapoutDone cd => Sys2Proof.Machine.execMapoutDone cd s
  | .l2Miss core line store fetch fenced => Sys2Proof.Machine.execL2Miss core line store fetch fenced s
  | .l2Victim core line => Sys2Proof.Machine.execL2Victim core line s
  | .hartAmo core line off sz op v fenced => Sys2Proof.Machine.execHartAmo core line off sz op v fenced s
  | .hartLr core line off sz fenced => Sys2Proof.Machine.execHartLr core line off sz fenced s
  | .hartSc core line data mask trapped fenced => Sys2Proof.Machine.execHartSc core line data mask trapped fenced s
  | .hartCboClean core line fenced => Sys2Proof.Machine.execHartCboClean core line fenced s
  | .hartCboFlush core line fenced => Sys2Proof.Machine.execHartCboFlush core line fenced s
  | .hartCboInval core line flush fenced => Sys2Proof.Machine.execHartCboInval core line flush fenced s
  | .hostWindowAccess core pa n op fenced ecc => Sys2Proof.Machine.execHostWindowAccess core pa n op fenced ecc s
  | .hostPrivateAccess core pa n op => Sys2Proof.Machine.execHostPrivateAccess core pa n op s
  | .rds core line victim => Sys2Proof.Machine.execRds core line victim s
  | .rdx core line victim => Sys2Proof.Machine.execRdx core line victim s
  | .upg core line victim => Sys2Proof.Machine.execUpg core line victim s
  | .amo core line => Sys2Proof.Machine.execAmo core line s
  | .lr core line => Sys2Proof.Machine.execLr core line s
  | .sc core line => Sys2Proof.Machine.execSc core line s
  | .cln core line => Sys2Proof.Machine.execCln core line s
  | .flu core line => Sys2Proof.Machine.execFlu core line s
  | .inv core line => Sys2Proof.Machine.execInv core line s
  | .snps core line => Sys2Proof.Machine.execSnps core line s
  | .snpx core line => Sys2Proof.Machine.execSnpx core line s
  | .snpinv core line => Sys2Proof.Machine.execSnpinv core line s
  | .snprecall core line => Sys2Proof.Machine.execSnprecall core line s
  | .snpclean core line => Sys2Proof.Machine.execSnpclean core line s
  | .comp core line => Sys2Proof.Machine.execComp core line s
  | .compack core line => Sys2Proof.Machine.execCompack core line s
  | .snpack core line => Sys2Proof.Machine.execSnpack core line s
  | .invack core line => Sys2Proof.Machine.execInvack core line s
  | .rspGone core line => Sys2Proof.Machine.execRspGone core line s
  | .evictclean core line => Sys2Proof.Machine.execEvictclean core line s
  | .wback core line => Sys2Proof.Machine.execWback core line s
  | .data core line => Sys2Proof.Machine.execData core line s
  | .fwddata core line => Sys2Proof.Machine.execFwddata core line s
  | .snpdata core line => Sys2Proof.Machine.execSnpdata core line s
  | .wb core line => Sys2Proof.Machine.execWb core line s
  | .amodata core line => Sys2Proof.Machine.execAmodata core line s
  | .fwdTimeout core line => Sys2Proof.Machine.execFwdTimeout core line s
  | .lrDeferralEnd core line => Sys2Proof.Machine.execLrDeferralEnd core line s
  | .tableWalkComplete sel sp va acc => Sys2Proof.Machine.execTableWalkComplete sel sp va acc s
  | .hostAssistMiss sel sp va acc => Sys2Proof.Machine.execHostAssistMiss sel sp va acc s
  | .xlatInv code => Sys2Proof.Machine.execXlatInv code s
  | .invalidationComplete code => Sys2Proof.Machine.execInvalidationComplete code s
  | .xlatFill code => Sys2Proof.Machine.execXlatFill code s
  | .convoySend ch idx two ecc noToken => Sys2Proof.Machine.execConvoySend ch idx two ecc noToken s
  | .rxSend ch r => Sys2Proof.Machine.execRxSend ch r s
  | .rxWrite ch r => Sys2Proof.Machine.execRxWrite ch r s
  | .rxReadReq ch r ecc => Sys2Proof.Machine.execRxReadReq ch r ecc s
  | .rxReadResp ch r => Sys2Proof.Machine.execRxReadResp ch r s
  | .rxReduce ch r => Sys2Proof.Machine.execRxReduce ch r s
  | .rxGong ch r => Sys2Proof.Machine.execRxGong ch r s
  | .rxDoorbell ch r => Sys2Proof.Machine.execRxDoorbell ch r s
  | .rxCheck ch r => Sys2Proof.Machine.execRxCheck ch r s
  | .rxOpen ch r => Sys2Proof.Machine.execRxOpen ch r s
  | .rxOpenAck ch r => Sys2Proof.Machine.execRxOpenAck ch r s
  | .rxClose ch r => Sys2Proof.Machine.execRxClose ch r s
  | .rxCloseAck ch r => Sys2Proof.Machine.execRxCloseAck ch r s
  | .rxAck ch r => Sys2Proof.Machine.execRxAck ch r s
  | .rxNak ch r => Sys2Proof.Machine.execRxNak ch r s
  | .rxCredit ch r => Sys2Proof.Machine.execRxCredit ch r s
  | .rxPealArm ch r => Sys2Proof.Machine.execRxPealArm ch r s
  | .rxPealArmAck ch r => Sys2Proof.Machine.execRxPealArmAck ch r s
  | .rxPealStrike ch r broken => Sys2Proof.Machine.execRxPealStrike ch r broken s
  | .rxPealAbort ch r => Sys2Proof.Machine.execRxPealAbort ch r s
  | .rxProbe ch r turnaround => Sys2Proof.Machine.execRxProbe ch r turnaround s
  | .rxProbeResp ch r => Sys2Proof.Machine.execRxProbeResp ch r s
  | .rawFrame ch bytes => Sys2Proof.Machine.execRawFrame ch bytes s
  | .frameDiscard ch => Sys2Proof.Machine.execFrameDiscard ch s
  | .pauseFrame ch => Sys2Proof.Machine.execPauseFrame ch s
  | .ackTimer ch idx => Sys2Proof.Machine.execAckTimer ch idx s
  | .creditReport ch => Sys2Proof.Machine.execCreditReport ch s
  | .rtoExpiry ch idx => Sys2Proof.Machine.execRtoExpiry ch idx s
  | .openResend ch idx => Sys2Proof.Machine.execOpenResend ch idx s
  | .closeResend ch idx => Sys2Proof.Machine.execCloseResend ch idx s
  | .probeTimeout ch => Sys2Proof.Machine.execProbeTimeout ch s
  | .linkTrainingRetry ch => Sys2Proof.Machine.execLinkTrainingRetry ch s
  | .linkUp ch => Sys2Proof.Machine.execLinkUp ch s
  | .linkDown ch => Sys2Proof.Machine.execLinkDown ch s
  | .chnOpen ch => Sys2Proof.Machine.execChnOpen ch s
  | .chnClose ch => Sys2Proof.Machine.execChnClose ch s
  | .chnReset ch => Sys2Proof.Machine.execChnReset ch s
  | .chnRead ch => Sys2Proof.Machine.execChnRead ch s
  | .chnRetx ch => Sys2Proof.Machine.execChnRetx ch s
  | .chnSetwin ch => Sys2Proof.Machine.execChnSetwin ch s
  | .chnSpill ch => Sys2Proof.Machine.execChnSpill ch s
  | .chnRingHead ch => Sys2Proof.Machine.execChnRingHead ch s
  | .chnRedDone ch => Sys2Proof.Machine.execChnRedDone ch s
  | .chnHreqHead ch => Sys2Proof.Machine.execChnHreqHead ch s
  | .chnProbe ch => Sys2Proof.Machine.execChnProbe ch s
  | .rootclkLoss => Sys2Proof.Machine.execRootclkLoss s
  | .rootclkReturn => Sys2Proof.Machine.execRootclkReturn s
  | .pllUnlock die => Sys2Proof.Machine.execPllUnlock die s
  | .divisorChange => Sys2Proof.Machine.execDivisorChange s
  | .divisorChangeComplete misses => Sys2Proof.Machine.execDivisorChangeComplete misses s
  | .flightMeasurement ch f => Sys2Proof.Machine.execFlightMeasurement ch f s
  | .levelSaturation level cls => Sys2Proof.Machine.execLevelSaturation level cls s
  | .powerControlStep load => Sys2Proof.Machine.execPowerControlStep load s
  | .voltageSettled => Sys2Proof.Machine.execVoltageSettled s
  | .railTelemetry samples => Sys2Proof.Machine.execRailTelemetry samples s
  | .energyEstimate die charges amps => Sys2Proof.Machine.execEnergyEstimate die charges amps s
  | .calibrationFit fits => Sys2Proof.Machine.execCalibrationFit fits s
  | .restSlotBoundary cd => Sys2Proof.Machine.execRestSlotBoundary cd s
  | .droopTrip die det => Sys2Proof.Machine.execDroopTrip die det s
  | .droopRelease die det => Sys2Proof.Machine.execDroopRelease die det s
  | .thermalCritical die sensor => Sys2Proof.Machine.execThermalCritical die sensor s
  | .thermtrip die sensor => Sys2Proof.Machine.execThermtrip die sensor s
  | .vinOver => Sys2Proof.Machine.execVinOver s
  | .vinUnder => Sys2Proof.Machine.execVinUnder s
  | .vinSag => Sys2Proof.Machine.execVinSag s
  | .holdupAssert => Sys2Proof.Machine.execHoldupAssert s
  | .braceWindowClose => Sys2Proof.Machine.execBraceWindowClose s
  | .pwrStateRun => Sys2Proof.Machine.execPwrStateRun s
  | .pwrStateRest => Sys2Proof.Machine.execPwrStateRest s
  | .pwrStateDormant => Sys2Proof.Machine.execPwrStateDormant s
  | .dormantStop => Sys2Proof.Machine.execDormantStop s
  | .tileRetention cd tile => Sys2Proof.Machine.execTileRetention cd tile s
  | .restEntryTimeout => Sys2Proof.Machine.execRestEntryTimeout s
  | .retentionExitDone => Sys2Proof.Machine.execRetentionExitDone s
  | .selfRefreshEntry cd chan => Sys2Proof.Machine.execSelfRefreshEntry cd chan s
  | .idleEntry => Sys2Proof.Machine.execIdleEntry s
  | .wellTileScrub line ecc => Sys2Proof.Machine.execWellTileScrub line ecc s
  | .hbmRetrain cd => Sys2Proof.Machine.execHbmRetrain cd s
  | .hbmRetrainDone cd ok misses => Sys2Proof.Machine.execHbmRetrainDone cd ok misses s
  | .sensorCalibration die offs => Sys2Proof.Machine.execSensorCalibration die offs s
  | .telemetryStep trends => Sys2Proof.Machine.execTelemetryStep trends s
  | .wearMeasurement cd drifts => Sys2Proof.Machine.execWearMeasurement cd drifts s
  | .rotationDecision cd => Sys2Proof.Machine.execRotationDecision cd s
  | .wearCmd cd => Sys2Proof.Machine.execWearCmd cd s
  | .tileSwap cd tile => Sys2Proof.Machine.execTileSwap cd tile s
  | .sentryHeartbeat die inst => Sys2Proof.Machine.execSentryHeartbeat die inst s
  | .heartbeatSilenceExpiry die inst => Sys2Proof.Machine.execHeartbeatSilenceExpiry die inst s
  | .unackedBeatExpiry die inst => Sys2Proof.Machine.execUnackedBeatExpiry die inst s
  | .cdRejoin cd => Sys2Proof.Machine.execCdRejoin cd s
  | .hdReset => Sys2Proof.Machine.execHdReset s
  | .updateChn signed => Sys2Proof.Machine.execUpdateChn signed s
  | .updateDisp signed => Sys2Proof.Machine.execUpdateDisp signed s
  | .updateCore signed stopped => Sys2Proof.Machine.execUpdateCore signed stopped s
  | .evac => Sys2Proof.Machine.execEvac s
  | .evacEnd => Sys2Proof.Machine.execEvacEnd s
  | .slotWritten => Sys2Proof.Machine.execSlotWritten s
  | .channelFwSwitch ch => Sys2Proof.Machine.execChannelFwSwitch ch s
  | .chnFwRunning ch => Sys2Proof.Machine.execChnFwRunning ch s
  | .chnFwRevert ch => Sys2Proof.Machine.execChnFwRevert ch s
  | .dispatcherSwitch cd loaded => Sys2Proof.Machine.execDispatcherSwitch cd loaded s
  | .attGo => Sys2Proof.Machine.execAttGo s
  | .reportComplete => Sys2Proof.Machine.execReportComplete s
  | .enrol seq src key parent signed => Sys2Proof.Machine.execEnrol seq src key parent signed s
  | .mgmtReadReg c off => Sys2Proof.Machine.execMgmtReadReg c off s
  | .mgmtWriteReg c off value mask gen => Sys2Proof.Machine.execMgmtWriteReg c off value mask gen s
  | .mgmtSvc c op target image signed stopped => Sys2Proof.Machine.execMgmtSvc c op target image signed stopped s
  | .mgmtAttest c nonce => Sys2Proof.Machine.execMgmtAttest c nonce s
  | .mgmtRecover c slot image signed => Sys2Proof.Machine.execMgmtRecover c slot image signed s
  | .mgmtAck seq => Sys2Proof.Machine.execMgmtAck seq s
  | .helloTimer => Sys2Proof.Machine.execHelloTimer s
  | .telemetryTimer => Sys2Proof.Machine.execTelemetryTimer s
  | .mgmtResend => Sys2Proof.Machine.execMgmtResend s
  | .mgmtLinkChange link => Sys2Proof.Machine.execMgmtLinkChange link s
  | .pealInstall slot => Sys2Proof.Machine.execPealInstall slot s
  | .pealCmdArm slot => Sys2Proof.Machine.execPealCmdArm slot s
  | .pealCancel slot => Sys2Proof.Machine.execPealCancel slot s
  | .pealUninstall slot => Sys2Proof.Machine.execPealUninstall slot s
  | .pealCmdSend slot => Sys2Proof.Machine.execPealCmdSend slot s
  | .pealArmWaitEnd slot => Sys2Proof.Machine.execPealArmWaitEnd slot s
  | .pealActionTime slot => Sys2Proof.Machine.execPealActionTime slot s
  | .pealHoldExpiry slot => Sys2Proof.Machine.execPealHoldExpiry slot s
  | .traceSync die => Sys2Proof.Machine.execTraceSync die s
  | .traceSample => Sys2Proof.Machine.execTraceSample s
  | .traceRingWrite die waits => Sys2Proof.Machine.execTraceRingWrite die waits s
  | .traceObsSend die => Sys2Proof.Machine.execTraceObsSend die s
  | .auxLoss => Sys2Proof.Machine.execAuxLoss s
  | .auxReturn => Sys2Proof.Machine.execAuxReturn s
  | .vinRise => Sys2Proof.Machine.execVinRise s
  | .vinLeavesNormalRange high => Sys2Proof.Machine.execVinLeavesNormalRange high s
  | .holdupDeassert => Sys2Proof.Machine.execHoldupDeassert s

end Sys2Proof.Machine
end

