-- ==== Sys2Proof/Machine/Tick.lean ====
section
/-! DEFINITION. What the package does while no command waits: one P-cycle of time (15 R473 to R475; 17 R522, R527). -/

namespace Sys2Proof.Machine

open Parts

/-- The A-cycles of a stretch unit at a divisor code (15 R473): one on a CD, lcm(A, H) / A on the HD. -/
def stretchUnit (die code : Nat) : Nat := if die = 4 ∧ code = 1 then 2 else 1

/-- Of n A edges from place `par` of the stretch pattern, those withheld: every other unit, the first one not (15 R473). -/
def withheld (u par n : Nat) : Nat := ((upto n).filter fun i => decide (u ≤ (par + i) % (2 * u))).length

/-- One P-cycle, 32 root periods, of a die whose clocks run: CLK.PCNT, CLK.ACNT and CLK.HELD count (15 R456, R473 to R475). -/
def tickDie (d : Dev) (die : Nat) : Dev :=
  if d.pw.stopped.contains die && regFld d (clkOff die 0) 2 2 == 0 then d else
  let code := regFld d (clkOff die 0) 1 0
  let t := Sparse.get zeroCnt d.pw.phase die + 32
  let edges := t / divisorOf code
  let u := stretchUnit die code
  let par := Sparse.get zeroCnt d.pw.par die
  let slow := regFld d (clkOff die 0) 5 5 == 1
  let held := if slow then withheld u par edges else 0
  let d := setPw d fun p => { p with
    phase := Sparse.set zeroCnt p.phase die (t % divisorOf code)
    par := Sparse.set zeroCnt p.par die (if slow then (par + edges) % (2 * u) else 0) }
  addCtr (addCtr (addCtr d (clkOff die 4) 1) (clkOff die 2) (edges - held)) (clkOff die 6) held

/-- Each active throttle reason counts a P-cycle (17 R522). -/
def tickReasons (d : Dev) : Dev :=
  ((upto 8).filter fun r => (reasons d).testBit r).foldl (fun d r => addCtr d (pwrOff (0x20 + 2 * r)) 1) d

/-- One P-cycle passes (log entry 3); no clock runs without power, or before the die PLLs have locked at boot (19 R574). -/
def tick (d : Dev) : Dev :=
  if !d.pw.on || decide (regFld d (regOff 5 0x28 0 0) 3 0 < 5) then d else tickReasons ((dies d).foldl tickDie (leaveIdle d))

end Sys2Proof.Machine
end

