-- ==== Sys2Proof/Machine/Encode.lean ====
section
/-! DEFINITION. The words of the instructions of threads whose fields all stand in the word (04 R105 to R116, R128 to R140; 11
R354), written from the encoding tables. -/

namespace Sys2Proof.Machine

open Parts

/-- A word (04 R106): major opcode, guard field [56:52], number of immediate words, and the bits below. -/
def wordOf (op guard ext body : Nat) : Word64 := BitVec.ofNat 64 (op * 2 ^ 57 + guard * 2 ^ 52 + ext * 2 ^ 50 + body)

/-- Format TR (04 R112): rd, ra, rb, rc, fn. -/
def bodyR (rd ra rb rc fn : Nat) : Nat := rd * 2 ^ 44 + ra * 2 ^ 38 + rb * 2 ^ 32 + rc * 2 ^ 26 + fn * 2 ^ 20

/-- Format TI (04 R113): rd, ra, fn, immediate. -/
def bodyI (rd ra fn imm : Nat) : Nat := rd * 2 ^ 44 + ra * 2 ^ 38 + fn * 2 ^ 32 + imm

/-- Format TM (04 R114). -/
def bodyM (m : MemOp) : Nat :=
  m.rd * 2 ^ 44 + m.ra * 2 ^ 38 + m.rb * 2 ^ 32 + m.ub * 2 ^ 27 + b2n m.glob * 2 ^ 25 + m.sz * 2 ^ 23 + b2n m.sx * 2 ^ 22 +
    m.scale * 2 ^ 20 + m.sem * 2 ^ 18 + m.scope * 2 ^ 16 + m.aop * 2 ^ 12 + m.imm

/-- Format TB (04 R115): kind, register, join, target. -/
def bodyB (kind ra join : Nat) (target : Int) : Nat := kind * 2 ^ 48 + ra * 2 ^ 42 + join * 2 ^ 24 + wrapInt 24 target

/-- The word of an instruction of a thread, of which the fields stand in `Op`; none for the instructions of the units. -/
def encodeThread (guard ext : Nat) : Op → Option Word64
  | .alu fn rd ra (.reg rb) => some (wordOf 0x00 guard ext (bodyR rd ra rb 0 fn))
  | .alu fn rd ra .none => some (wordOf 0x00 guard ext (bodyR rd ra 0 0 fn))
  | .alu fn rd ra (.imm v) => some (wordOf 0x01 guard ext (bodyI rd ra fn v.toNat))
  | .mul fn rd ra rb rc => some (wordOf 0x02 guard ext (bodyR rd ra rb rc fn))
  | .fp fn rd ra rb rc => some (wordOf 0x03 guard ext (bodyR rd ra rb rc fn))
  | .cvt fn rd ra trunc => some (wordOf 0x03 guard ext (bodyR rd ra 0 0 fn + b2n trunc * 2 ^ 16))
  | .cmp fn pd ra (.reg rb) => some (wordOf 0x04 guard ext (bodyR pd ra rb 0 fn))
  | .cmp fn pd ra (.imm v) => some (wordOf 0x05 guard ext (bodyI pd ra fn v.toNat))
  | .plogic fn pd pa pb => some (wordOf 0x06 guard ext (bodyR pd pa pb 0 fn))
  | .mov rd ra => some (wordOf 0x07 guard ext (bodyR rd ra 0 0 0))
  | .sel rd ra rb pc => some (wordOf 0x07 guard ext (bodyR rd ra rb pc 1))
  | .movu hi rd ua => some (wordOf 0x07 guard ext (bodyR rd ua 0 0 (2 + b2n hi)))
  | .shfl rd ra rb => some (wordOf 0x07 guard ext (bodyR rd ra rb 0 4))
  | .ballot rd pb => some (wordOf 0x07 guard ext (bodyR rd 0 pb 0 5))
  | .vote all pd pb => some (wordOf 0x07 guard ext (bodyR pd 0 pb 0 (6 + b2n all)))
  | .uni fn ud ua ub => some (wordOf 0x0B guard ext (bodyR ud ua ub 0 fn))
  | .umov ud ua => some (wordOf 0x0B guard ext (bodyR ud ua 0 0 8))
  | .umovt hi ud ra => some (wordOf 0x0B guard ext (bodyR ud ra 0 0 (9 + b2n hi)))
  | .uli ud => some (wordOf 0x0B guard ext (bodyR ud 0 0 0 0xC))
  | .nop => some (wordOf 0x0D guard ext (bodyI 0 0 0 0))
  | .exit => some (wordOf 0x0D guard ext (bodyI 0 0 1 0))
  | .yield => some (wordOf 0x0D guard ext (bodyI 0 0 2 0))
  | .bctl imm => some (wordOf 0x0D guard ext (bodyI 0 0 3 imm))
  | .clk ud => some (wordOf 0x0D guard ext (bodyI ud 0 4 0))
  | .ld m => some (wordOf 0x08 guard ext (bodyM m))
  | .st m => some (wordOf 0x09 guard ext (bodyM m))
  | .atom m => some (wordOf 0x0A guard ext (bodyM m))
  | .branch kind ra join target => some (wordOf 0x0C guard ext (bodyB kind ra join target))
  | .bar => some (wordOf 0x4A guard ext 0)
  | .fence scope => some (wordOf 0x4B guard ext (scope * 2 ^ 44))
  | _ => none

/-- Is a register number one of the 64? -/
def rOk (n : Nat) : Bool := decide (n < 64)
/-- Is a predicate or uniform number in its range? -/
def pOk (n : Nat) : Bool := decide (n < 8)
/-- The 32 uniform registers. -/
def uOk (n : Nat) : Bool := decide (n < 32)

/-- The fields of a memory instruction that its format admits (04 R109, R114, R136): the number of immediate words tells whether
the offset is replaced. -/
def memFields (ext : Nat) (m : MemOp) : Bool :=
  rOk m.rd && rOk m.ra && rOk m.rb && uOk m.ub && decide (m.sz < 4 ∧ m.scale < 4 ∧ m.sem < 4 ∧ m.scope < 4) &&
    decide (m.aop < 16 ∧ m.imm < 4096 ∧ ext ≤ 1) && (m.glob || m.ub == 0) && (ext == 0 || m.imm == 0) && (m.sz != 3 || m.rd % 2 == 0)

/-- Is an instruction one that the encoding admits, with its number of immediate words (04 R105 to R116, R128 to R140)? -/
def opFits (ext : Nat) : Op → Bool
  | .alu fn rd ra (.reg rb) => ext == 0 && decide (fn ≤ 0xB) && rOk rd && rOk ra && rOk rb
  | .alu fn rd ra .none => ext == 0 && (fn == 0xC || fn == 0xD) && rOk rd && rOk ra
  | .alu fn rd ra (.imm _) => ext == 0 && (decide (fn ≤ 0xB) || (fn == 0xF && ra == 0)) && rOk rd && rOk ra
  | .mul fn rd ra rb rc => ext == 0 && decide (fn ≤ 7) && rOk rd && rOk ra && rOk rb && rOk rc && (fn == 3 || rc == 0)
  | .fp fn rd ra rb rc => ext == 0 && decide (fn ≤ 5) && rOk rd && rOk ra && rOk rb && rOk rc && (fn == 3 || rc == 0)
  | .cvt fn rd ra trunc => ext == 0 && decide (8 ≤ fn ∧ fn ≤ 0xB) && rOk rd && rOk ra && (decide (0xA ≤ fn) || !trunc)
  | .cmp fn pd ra (.reg rb) => ext == 0 && decide (fn ≤ 0xD) && pOk pd && rOk ra && rOk rb
  | .cmp fn pd ra (.imm _) => ext == 0 && decide (fn ≤ 9) && pOk pd && rOk ra
  | .plogic fn pd pa pb =>
    ext == 0 && decide (fn ≤ 6) && pOk pd && pOk pa && pOk pb && (decide (fn ≤ 3) || pb == 0) && (decide (fn ≤ 4) || pa == 0)
  | .mov rd ra => ext == 0 && rOk rd && rOk ra
  | .sel rd ra rb pc => ext == 0 && rOk rd && rOk ra && rOk rb && pOk pc
  | .movu _ rd ua => ext == 0 && rOk rd && uOk ua
  | .shfl rd ra rb => ext == 0 && rOk rd && rOk ra && rOk rb
  | .ballot rd pb => ext == 0 && rOk rd && pOk pb
  | .vote _ pd pb => ext == 0 && pOk pd && pOk pb
  | .uni fn ud ua ub => ext == 0 && decide (fn ≤ 7) && uOk ud && uOk ua && uOk ub
  | .umov ud ua => ext == 0 && uOk ud && uOk ua
  | .umovt _ ud ra => ext == 0 && uOk ud && rOk ra
  | .uli ud => ext == 1 && uOk ud
  | .nop => ext == 0
  | .exit => ext == 0
  | .yield => ext == 0
  | .bctl imm => ext == 0 && decide (imm < 2)
  | .clk ud => ext == 0 && uOk ud
  | .ld m => memFields ext m && m.rb == 0 && m.aop == 0 && decide (m.sem ≤ 1) && (!m.sx || decide (m.sz ≤ 1))
  | .st m => memFields ext m && m.rb == 0 && m.aop == 0 && (m.sem == 0 || m.sem == 2) && !m.sx
  | .atom m => memFields ext m && decide (2 ≤ m.sz ∧ m.aop ≤ 0xA) && (m.aop != 0xA || m.sz == 2) && !m.sx &&
      (m.sz != 3 || m.rb % 2 == 0)
  | .branch kind ra join target => ext == 0 && decide (kind < 3 ∧ join < 65536 ∧ -8388608 ≤ target ∧ target < 8388608) &&
      rOk ra && (kind == 2 || ra == 0) && (kind != 2 || target == 0)
  | .bar => ext == 0
  | .fence scope => ext == 0 && decide (scope < 4)
  | _ => false

end Sys2Proof.Machine
end

