-- ==== Sys2Proof/Safety.lean ====
section
/-! DEFINITION. Safe runs: no step stops. And the terms in which claims speak of a path's issue and of what a command leaves
alone. -/

namespace Sys2Proof

open Machine Machine.Parts

/-- Does a state's step go on? -/
def Safe (s : State) : Prop := ∃ t, step s = .next t

/-- A run goes on: every one of its first n steps answers a next state. -/
def SafeRun : Nat → State → Prop
  | 0, _ => True
  | n + 1, s => ∃ t, step s = .next t ∧ SafeRun n t

/-- A command completes: `exec` answers a next state, with this package and the queue as it was. -/
def Completes (c : Instr) (s : State) (e : Dev) : Prop := exec c s = .next { s with dev := e }

/-! Issue by a path. -/

/-- A path issues the instruction `op` of word `w`: its block may issue, its word and its immediate words are in the instruction
cache, and it is ready, with nothing outstanding that it needs (04 R122). `p` is the path and `g` its group once it has merged with
the ready paths at the same instruction and join stack (04 R145). -/
structure Issues (d : Dev) (r : PathRef) (g : Group) (p : Path) (b : Block) (w : Word64) (op : Op) (imms : List Word64) :
    Prop where
  path : ∃ g₀ p₀, groupAt (tileOf d r.cd r.tile) r.slot = some g₀ ∧ pathOf g₀ r.lane = some p₀ ∧
    issuingPath (tileOf d r.cd r.tile) g₀ r.slot w p₀ = some (g, p)
  block : blockOf (tileOf d r.cd r.tile) g.blk = some b
  may : mayIssue d r.cd (tileOf d r.cd r.tile) b = true
  word : fetched (tileOf d r.cd r.tile) b p.pc = .word w
  decodes : decodeThread w = some op
  immediates : fetchImms (tileOf d r.cd r.tile) b p.pc (wExt w) = (imms, .word 0)
  legal : immOk op imms = true

/-- The path once it has issued: its program counter is past the instruction. -/
def movedPath (p : Path) (w : Word64) : Path := { p with pc := (p.pc + (1 + wExt w)) % pcMod }

/-- The group once a path of it has issued. -/
def movedGroup (g : Group) (p : Path) (w : Word64) : Group :=
  { g with paths := movedPath p w :: (g.paths.filter (· != p)).map (yieldIssued p.lanes) }

/-- The instruction that a path issues, as its meaning sees it. -/
def issueCtx (d : Dev) (r : PathRef) (g : Group) (p : Path) (b : Block) (w : Word64) (op : Op) (imms : List Word64) : Ctx :=
  ⟨r.cd, r.tile, r.slot, issuedTile (tileOf d r.cd r.tile) r.slot g p (1 + wExt w), movedGroup g p w, movedPath p w, b, p.pc, w,
    imms, op⟩

/-- The package once a path has issued and before the instruction has acted. -/
def issuedDev (d : Dev) (r : PathRef) (g : Group) (p : Path) (w : Word64) : Dev :=
  setTile d r.cd r.tile (issuedTile (tileOf d r.cd r.tile) r.slot g p (1 + wExt w))

/-- The lanes of a path in which an instruction executes: those whose guard holds (04 R106). -/
def execLanes (w : Word64) (g : Group) (p : Path) : List Nat :=
  (laneList p.lanes).filter fun l => guardOk w (threadAt g l)

/-- No guard of a path is poisoned (04 R152). -/
def GuardsClean (w : Word64) (g : Group) (p : Path) : Prop := ∀ l ∈ laneList p.lanes, guardPoison w (threadAt g l) = false

/-- The leader executes the instruction, its guard not poisoned (04 R126, R127). -/
def LeaderGoes (w : Word64) (g : Group) (p : Path) : Prop :=
  guardPoison w (threadAt g (leader p)) = false ∧ guardOk w (threadAt g (leader p)) = true

/-- A tile after the issue of a unit instruction: it stands at the end of the unit's queue (05 R172, 06 R201, 07 R231, 08
R248). -/
def queued (d : Dev) (slots : List (Nat × Group)) (r : PathRef) (u : UnitSel) (p : Path) (b : Block) (w : Word64) (n : UnitNew) :
    Tile :=
  let x := tileOf d r.cd r.tile
  let i : UnitInstr :=
    { ord := x.ord + 1, blk := b.id, slot := r.slot, lane := leader p, pc := p.pc, word := w, uops := n.uops, reads := n.reads,
      writes := n.writes, rmem := n.rmem, wmem := n.wmem, bind := x.bind, trap := b.trap, res := {} }
  { setUnit x u { unitOf x u with queue := (unitOf x u).queue ++ [i] } with slots := slots, ord := x.ord + 1 }

/-! Start by a stream. -/

/-- A queue may start the instruction in hand (02 R38; 03 R69, R75): its word, its operation and the words that follow. -/
def Starts (d : Dev) (q : Nat) (op : Op) (w : Word64) (imms : List Word64) : Prop :=
  canStart d q = true ∧ streamWord (queueOf d q) = some (op, w, imms)

/-- The package once a stream has started an instruction that leaves it at `e`: a start is traced where the queue has moved
(20 R609). -/
def started (d : Dev) (q : Nat) (w : Word64) (e : Dev) : Dev :=
  if queueOf e q = queueOf d q then e else traceStart e q (queueOf d q) w

/-! Reports and stops. -/

/-- A chime entry is pending (09 R295). -/
def Chimed (e : Dev) (n : Nat) : Prop := flag e (chmOff n + 4) 0 = true

/-- A health event has been reported (19 R584, R589): its chime and its flag are up, MGT.LAST names it, and where the package
holds fewer than 256 upward messages its message stands at the end. -/
def Told (d e : Dev) (code die inst : Nat) : Prop :=
  Chimed e 4738 ∧ flag e (mgtOff 3) 0 = true ∧
    regRaw e (mgtOff 2) = BitVec.ofNat 32 (code % 256 + die % 16 * 256 + inst % 65536 * 4096) ∧
    (d.mg.queue.length < 256 → ∃ r, e.mg.queue = d.mg.queue ++ [⟨d.mg.seq, .health d.mg.lost r⟩] ∧
      r.code = code ∧ r.die = die ∧ r.inst = inst)

/-- The package has stopped (17 R526): rails and waystation are off and every volatile content is lost; the flash and the
operator record stay, and the wake circuit holds the cause while AUX is present. -/
def Stopped (d e : Dev) (cause : Nat) : Prop :=
  e.pw.on = false ∧ e.pw.vpm = false ∧ e.pw.aux = d.pw.aux ∧ e.pw.cause = (if d.pw.aux then cause else 0) ∧
    e.fl = d.fl ∧ e.mg.operator = d.mg.operator ∧ e.mem.bytes = [] ∧ e.rg = (Dev.dark d.variant d.fl).rg ∧ e.qs = [] ∧
    e.tiles = [] ∧ e.ch = [] ∧ e.gg = (Dev.dark d.variant d.fl).gg

/-- The package has entered brace (17 R524): its window opens where PWR.BRACE gives it a length, the flag and the health event
tell, and out of Rest the setting is the slower of the present one and that of PWR.BRACE. -/
def Braced (d e : Dev) (holdup : Bool) : Prop :=
  let v := regVal d (pwrOff 3)
  e.pw.brace = some ⟨holdup, !holdup, fld v 27 20 != 0⟩ ∧ flag e (pwrOff 7) 4 = true ∧ Told d e 0x0F 5 0 ∧
    (booted d = true → Chimed e 4737) ∧
    ((d.pw.change = none → d.pw.next = none) →
      present e = if pwrState d = 2 then present d else slower (present d) (fld v 14 13, fld v 19 15))

/-! What is left alone. -/

/-- Nothing of the package differs but tiles, and of those only one. -/
def OnlyTile (d e : Dev) (c t : Nat) : Prop :=
  e = { d with tiles := e.tiles } ∧ ∀ c' t', tileKey c' t' ≠ tileKey c t → tileOf e c' t' = tileOf d c' t'

/-- Nothing of a tile differs but one of its groups and its issue order. -/
def OnlyGroup (d e : Dev) (r : PathRef) : Prop :=
  OnlyTile d e r.cd r.tile ∧
    tileOf e r.cd r.tile = { tileOf d r.cd r.tile with
      slots := (tileOf e r.cd r.tile).slots, ord := (tileOf d r.cd r.tile).ord + 1 } ∧
    ∀ slot, slot ≠ r.slot → groupAt (tileOf e r.cd r.tile) slot = groupAt (tileOf d r.cd r.tile) slot

/-- A group after an instruction: its threads and uniform registers, whatever its paths. -/
def GroupIs (e : Dev) (r : PathRef) (g : Group) (thr : Nat → Thread) : Prop :=
  ∃ h, groupAt (tileOf e r.cd r.tile) r.slot = some h ∧
    h = { g with thr := h.thr, paths := h.paths } ∧ ∀ l, threadAt h l = thr l

end Sys2Proof
end

