-- ==== Sys2Proof/Certificates/Slice0/Obligations.lean ====
section
/-! DEFINITION. The statements for the provers. -/

open Sys2Proof Sys2Proof.Machine Sys2Proof.Machine.Parts

/-- O1. For every state and every command c: step with c at the front of the queue answers what exec answers for c on the
state with the queue's rest; exec answers a next state for every command in every state, and leaves the queue it was
given as it is. With an empty queue step answers the next state in which one P-cycle has passed (the model's choice,
log entry 3), and the queue stays empty. -/
def Obligations.StepRunsFrontCommand : Prop :=
  (∀ (s : State) (c : Instr) (rest : List Instr), s.pending = c :: rest →
    step s = exec c { s with pending := rest } ∧ ∃ e : Dev, step s = .next { pending := rest, dev := e }) ∧
    ∀ s : State, s.pending = [] → step s = .next { s with dev := tick s.dev }

/-- O2. For each of the 23 integer and multiply/divide instructions, in every state in which a path issues it (Issues)
with no poisoned guard: exec answers a next state; in every lane whose guard holds the destination register gets the
value R128 or R129 states for its operands (shift by the low five bits; quotient and remainder toward zero, divisor
zero and overflow as stated) and the poison of its sources; no other register, lane, uniform register, group, tile or
part of the package changes, but paths and the issue order. Completes by its own effect (exec = next): thrAdd, thrSub,
thrAnd, thrOr, thrXor, thrShl, thrShr, thrSra, thrMin, thrMax, thrMinu, thrMaxu, thrClz, thrPopc, thrLi, thrMul,
thrMulh, thrMulhu, thrMad, thrDiv, thrDivu, thrRem, thrRemu. -/
def Obligations.ThreadIntegerResults : Prop :=
  (∀ (s : State) (r : PathRef) (g : Group) (p : Path) (b : Block) (w : Word64) (imms : List Word64) (rd ra : Nat) (src : Src)
    (i : PathRef → Instr) (fn : Nat) (f : Word32 → Word32 → Word32),
    (i, fn, f) ∈ [
      (Instr.thrAdd, 0x0, fun a b => a + b), (Instr.thrSub, 0x1, fun a b => a - b), (Instr.thrAnd, 0x2, fun a b => a &&& b),
      (Instr.thrOr, 0x3, fun a b => a ||| b), (Instr.thrXor, 0x4, fun a b => a ^^^ b),
      (Instr.thrShl, 0x5, fun a b => a <<< (b &&& 31#32)), (Instr.thrShr, 0x6, fun a b => a >>> (b &&& 31#32)),
      (Instr.thrSra, 0x7, fun a b => BitVec.ofInt 32 (a.toInt / 2 ^ (b.toNat % 32))),
      (Instr.thrMin, 0x8, fun a b => BitVec.ofInt 32 (min a.toInt b.toInt)),
      (Instr.thrMax, 0x9, fun a b => BitVec.ofInt 32 (max a.toInt b.toInt)),
      (Instr.thrMinu, 0xA, fun a b => BitVec.ofNat 32 (min a.toNat b.toNat)),
      (Instr.thrMaxu, 0xB, fun a b => BitVec.ofNat 32 (max a.toNat b.toNat)),
      (Instr.thrClz, 0xC, fun a _ => BitVec.ofNat 32 (clz a)), (Instr.thrPopc, 0xD, fun a _ => BitVec.ofNat 32 (popcount a)),
      (Instr.thrLi, 0xF, fun _ b => b)] →
    Issues s.dev r g p b w (.alu fn rd ra src) imms → GuardsClean w g p →
    ∃ e, Completes (i r) s e ∧ OnlyGroup s.dev e r ∧ GroupIs e r g fun l =>
      let t := threadAt g l
      if l ∈ execLanes w g p then
        setTreg t rd (f (treg t ra) (srcVal t src).1) ((srcVal t src).2 || (fn != 0xF && tpoison t ra))
      else t) ∧
  ∀ (s : State) (r : PathRef) (g : Group) (p : Path) (b : Block) (w : Word64) (imms : List Word64) (rd ra rb rc : Nat)
    (i : PathRef → Instr) (fn : Nat) (f : Word32 → Word32 → Word32 → Word32),
    (i, fn, f) ∈ [
      (Instr.thrMul, 0, fun a b _ => a * b),
      (Instr.thrMulh, 1, fun a b _ => BitVec.ofInt 32 (a.toInt * b.toInt / 2 ^ 32)),
      (Instr.thrMulhu, 2, fun a b _ => BitVec.ofNat 32 (a.toNat * b.toNat / 2 ^ 32)),
      (Instr.thrMad, 3, fun a b c => a * b + c),
      (Instr.thrDiv, 4, fun a b _ => if b = 0 then 0xFFFFFFFF#32 else BitVec.ofInt 32 (a.toInt.tdiv b.toInt)),
      (Instr.thrDivu, 5, fun a b _ => if b = 0 then 0xFFFFFFFF#32 else BitVec.ofNat 32 (a.toNat / b.toNat)),
      (Instr.thrRem, 6, fun a b _ => if b = 0 then a else BitVec.ofInt 32 (a.toInt.tmod b.toInt)),
      (Instr.thrRemu, 7, fun a b _ => if b = 0 then a else BitVec.ofNat 32 (a.toNat % b.toNat))] →
    Issues s.dev r g p b w (.mul fn rd ra rb rc) imms → GuardsClean w g p →
    ∃ e, Completes (i r) s e ∧ OnlyGroup s.dev e r ∧ GroupIs e r g fun l =>
      let t := threadAt g l
      if l ∈ execLanes w g p then
        setTreg t rd (f (treg t ra) (treg t rb) (treg t rc)) (tpoison t ra || tpoison t rb || (fn == 3 && tpoison t rc))
      else t

/-- O3. For each FP32 instruction and conversion, in every state in which a path issues it with no poisoned guard: exec
answers a next state; in every executing lane the destination register gets the rounded result of R130, R131 (the
model's binary32 functions) and the poison of its sources, every other thread and register of the group stays; the
block's status gains INVALID and SAT exactly as the executing lanes raise them; nothing differs but tiles, registers
of the register file and trace records. Completes by its own effect (exec = next): thrFadd, thrFsub, thrFmul, thrFfma,
thrFmin, thrFmax, thrCvtF32S32, thrCvtF32U32, thrCvtS32F32, thrCvtU32F32. -/
def Obligations.ThreadFloatResults : Prop :=
  (∀ (s : State) (r : PathRef) (g : Group) (p : Path) (b : Block) (w : Word64) (imms : List Word64) (rd ra rb rc : Nat)
    (i : PathRef → Instr) (fn : Nat) (f : Nat → Nat → Nat → FpRes),
    (i, fn, f) ∈ [
      (Instr.thrFadd, 0, fun a b _ => fpAdd f32 .even a b), (Instr.thrFsub, 1, fun a b _ => fpSub f32 .even a b),
      (Instr.thrFmul, 2, fun a b _ => fpMul f32 .even a b), (Instr.thrFfma, 3, fun a b c => fpFma f32 .even a b c),
      (Instr.thrFmin, 4, fun a b _ => fpMinMax f32 false a b), (Instr.thrFmax, 5, fun a b _ => fpMinMax f32 true a b)] →
    Issues s.dev r g p b w (.fp fn rd ra rb rc) imms → GuardsClean w g p →
    ∃ e, Completes (i r) s e ∧
      e = { s.dev with tiles := e.tiles, rg := e.rg, tr := e.tr } ∧
      (GroupIs e r g fun l =>
        let t := threadAt g l
        if l ∈ execLanes w g p then
          setTreg t rd (BitVec.ofNat 32 (f (treg t ra).toNat (treg t rb).toNat (treg t rc).toNat).bits)
            (tpoison t ra || tpoison t rb || (fn == 3 && tpoison t rc))
        else t) ∧
      (blockOf (tileOf e r.cd r.tile) b.id).map (·.status) =
        some ((execLanes w g p).foldl (fun st l =>
          let t := threadAt g l
          if (f (treg t ra).toNat (treg t rb).toNat (treg t rc).toNat).inv then st ||| stInvalid else st) b.status)) ∧
  ∀ (s : State) (r : PathRef) (g : Group) (p : Path) (b : Block) (w : Word64) (imms : List Word64) (rd ra : Nat) (trunc : Bool)
    (i : PathRef → Instr) (fn : Nat) (f : Word32 → Word32 × Nat),
    (i, fn, f) ∈ [
      (Instr.thrCvtF32S32, 0x8, fun a => (BitVec.ofNat 32 (intToFp f32 .even a.toInt), 0)),
      (Instr.thrCvtF32U32, 0x9, fun a => (BitVec.ofNat 32 (intToFp f32 .even a.toNat), 0)),
      (Instr.thrCvtS32F32, 0xA, fun a =>
        let r := fpToInt f32 (if trunc then .trunc else .even) (-(2 ^ 31)) (2 ^ 31 - 1) a.toNat
        (BitVec.ofInt 32 r.v, intStatus r)),
      (Instr.thrCvtU32F32, 0xB, fun a =>
        let r := fpToInt f32 (if trunc then .trunc else .even) 0 (2 ^ 32 - 1) a.toNat
        (BitVec.ofInt 32 r.v, intStatus r))] →
    Issues s.dev r g p b w (.cvt fn rd ra trunc) imms → GuardsClean w g p →
    ∃ e, Completes (i r) s e ∧
      e = { s.dev with tiles := e.tiles, rg := e.rg, tr := e.tr } ∧
      (GroupIs e r g fun l =>
        let t := threadAt g l
        if l ∈ execLanes w g p then setTreg t rd (f (treg t ra)).1 (tpoison t ra) else t) ∧
      (blockOf (tileOf e r.cd r.tile) b.id).map (·.status) =
        some ((execLanes w g p).foldl (fun st l => st ||| (f (treg (threadAt g l) ra)).2) b.status)

/-- O4. For each compare and predicate instruction, in every state in which a path issues it with no poisoned guard: exec
answers a next state in which the destination predicate of every executing lane is the result R132 states, poisoned as
its sources are, and every other thread and register of the group is as before. Integer compares and predicate logic
change nothing else; an FP32 compare also sets INVALID in the block's status where an executing lane has a signalling
NaN. Completes by its own effect (exec = next): thrCmpEq, thrCmpNe, thrCmpLt, thrCmpLe, thrCmpGt, thrCmpGe, thrCmpLtu,
thrCmpLeu, thrCmpGtu, thrCmpGeu, thrCmpFeq, thrCmpFlt, thrCmpFle, thrCmpFun, thrPand, thrPor, thrPxor, thrPandn,
thrPnot, thrPset, thrPclr. -/
def Obligations.ThreadPredicateResults : Prop :=
  (∀ (s : State) (r : PathRef) (g : Group) (p : Path) (b : Block) (w : Word64) (imms : List Word64) (pd ra : Nat) (src : Src)
    (i : PathRef → Instr) (fn : Nat) (f : Word32 → Word32 → Bool),
    (i, fn, f) ∈ [
      (Instr.thrCmpEq, 0x0, fun a b => a == b), (Instr.thrCmpNe, 0x1, fun a b => a != b),
      (Instr.thrCmpLt, 0x2, fun a b => decide (a.toInt < b.toInt)), (Instr.thrCmpLe, 0x3, fun a b => decide (a.toInt ≤ b.toInt)),
      (Instr.thrCmpGt, 0x4, fun a b => decide (b.toInt < a.toInt)), (Instr.thrCmpGe, 0x5, fun a b => decide (b.toInt ≤ a.toInt)),
      (Instr.thrCmpLtu, 0x6, fun a b => decide (a.toNat < b.toNat)), (Instr.thrCmpLeu, 0x7, fun a b => decide (a.toNat ≤ b.toNat)),
      (Instr.thrCmpGtu, 0x8, fun a b => decide (b.toNat < a.toNat)),
      (Instr.thrCmpGeu, 0x9, fun a b => decide (b.toNat ≤ a.toNat))] →
    Issues s.dev r g p b w (.cmp fn pd ra src) imms → GuardsClean w g p →
    ∃ e, Completes (i r) s e ∧
      e = { s.dev with tiles := e.tiles } ∧ GroupIs e r g fun l =>
      let t := threadAt g l
      if l ∈ execLanes w g p then setPred t pd (f (treg t ra) (srcVal t src).1) (tpoison t ra || (srcVal t src).2) else t) ∧
  (∀ (s : State) (r : PathRef) (g : Group) (p : Path) (b : Block) (w : Word64) (imms : List Word64) (pd ra : Nat) (src : Src)
    (i : PathRef → Instr) (fn : Nat) (c : FpCmp),
    (i, fn, c) ∈ [(Instr.thrCmpFeq, 0xA, FpCmp.eq), (Instr.thrCmpFlt, 0xB, .lt), (Instr.thrCmpFle, 0xC, .le),
      (Instr.thrCmpFun, 0xD, .un)] →
    Issues s.dev r g p b w (.cmp fn pd ra src) imms → GuardsClean w g p →
    let f := fun t => fpCompare f32 c (treg t ra).toNat (srcVal t src).1.toNat
    ∃ e, Completes (i r) s e ∧
      e = { s.dev with tiles := e.tiles, rg := e.rg, tr := e.tr } ∧
      (GroupIs e r g fun l =>
        let t := threadAt g l
        if l ∈ execLanes w g p then setPred t pd (f t).1 (tpoison t ra || (srcVal t src).2) else t) ∧
      (blockOf (tileOf e r.cd r.tile) b.id).map (·.status) =
        some ((execLanes w g p).foldl (fun st l => if (f (threadAt g l)).2 then st ||| stInvalid else st) b.status)) ∧
  ∀ (s : State) (r : PathRef) (g : Group) (p : Path) (b : Block) (w : Word64) (imms : List Word64) (pd pa pb : Nat)
    (i : PathRef → Instr) (fn : Nat) (f : Bool → Bool → Bool) (q : Bool → Bool → Bool),
    (i, fn, f, q) ∈ [
      (Instr.thrPand, 0, and, or), (Instr.thrPor, 1, or, or), (Instr.thrPxor, 2, xor, or),
      (Instr.thrPandn, 3, fun a b => a && !b, or), (Instr.thrPnot, 4, fun a _ => !a, fun a _ => a),
      (Instr.thrPset, 5, fun _ _ => true, fun _ _ => false), (Instr.thrPclr, 6, fun _ _ => false, fun _ _ => false)] →
    Issues s.dev r g p b w (.plogic fn pd pa pb) imms → GuardsClean w g p →
    ∃ e, Completes (i r) s e ∧ OnlyGroup s.dev e r ∧ GroupIs e r g fun l =>
      let t := threadAt g l
      if l ∈ execLanes w g p then setPred t pd (f (bit t.p pa) (bit t.p pb)) (q (bit t.pp pa) (bit t.pp pb)) else t

/-- O5. thr.mov, thr.sel, thr.movu.lo and .hi, thr.shfl, thr.ballot, thr.vote.any and .all: in every state in which a path
issues one with no poisoned guard, exec answers a next state in which each executing lane holds the result R133 states
(thr.shfl reads the named lane's register as it stood before, whatever that lane does; a ballot ranges over the
executing lanes, a vote over all lanes of the path), with its poison, and nothing else changes but paths and the issue
order. Completes by its own effect (exec = next): thrMov, thrSel, thrMovuLo, thrMovuHi, thrShfl, thrBallot,
thrVoteAny, thrVoteAll. -/
def Obligations.ThreadMoveResults : Prop :=
  ∀ (s : State) (r : PathRef) (g : Group) (p : Path) (b : Block) (w : Word64) (imms : List Word64) (op : Op)
    (i : PathRef → Instr) (f : Thread → Thread),
    let ls := execLanes w g p
    let path := laneList p.lanes
    (∃ (rd ra rb n : Nat),
      (i, op, f) ∈ [
        (Instr.thrMov, .mov rd ra, fun t => setTreg t rd (treg t ra) (tpoison t ra)),
        (Instr.thrSel, .sel rd ra rb n, fun t =>
          setTreg t rd (if bit t.p n then treg t ra else treg t rb) (bit t.pp n || tpoison t ra || tpoison t rb)),
        (Instr.thrMovuLo, .movu false rd ra, fun t => setTreg t rd ((ureg g ra).setWidth 32) (upoison g ra)),
        (Instr.thrMovuHi, .movu true rd ra, fun t => setTreg t rd ((ureg g ra >>> 32).setWidth 32) (upoison g ra)),
        (Instr.thrShfl, .shfl rd ra rb, fun t =>
          let src := threadAt g ((treg t rb).toNat % 32)
          setTreg t rd (treg src ra) (tpoison t rb || tpoison src ra)),
        (Instr.thrBallot, .ballot rd rb, fun t =>
          setTreg t rd (laneMask fun l => ls.contains l && bit (threadAt g l).p rb) (ls.any fun l => bit (threadAt g l).pp rb)),
        (Instr.thrVoteAny, .vote false rd rb, fun t =>
          setPred t rd (path.any fun l => bit (threadAt g l).p rb) (path.any fun l => bit (threadAt g l).pp rb)),
        (Instr.thrVoteAll, .vote true rd rb, fun t =>
          setPred t rd (path.all fun l => bit (threadAt g l).p rb) (path.any fun l => bit (threadAt g l).pp rb))]) →
    Issues s.dev r g p b w op imms → GuardsClean w g p →
    ∃ e, Completes (i r) s e ∧ OnlyGroup s.dev e r ∧ GroupIs e r g fun l =>
      if l ∈ ls then f (threadAt g l) else threadAt g l

/-- O6. For each uniform instruction and thr.clk, in every state in which a path issues it and its leader executes it:
exec answers a next state in which the destination uniform register of the group holds the stated 64-bit result (of
the leader's register for uni.movt; the other half kept), with its poison, and nothing else changes but paths and the
issue order. Where the leader's guard fails, no uniform register changes. Completes by its own effect (exec = next):
uniAdd, uniSub, uniAnd, uniOr, uniXor, uniShl, uniShr, uniMul, uniMov, uniMovtLo, uniMovtHi, uniLi, thrClk. -/
def Obligations.UniformResults : Prop :=
  (∀ (s : State) (r : PathRef) (g : Group) (p : Path) (b : Block) (w : Word64) (imms : List Word64) (op : Op)
    (i : PathRef → Instr) (f : Group),
    (∃ (ud ua ub : Nat),
      (i, op, f) ∈ [
        (Instr.uniAdd, .uni 0 ud ua ub, setUreg g ud (ureg g ua + ureg g ub) (upoison g ua || upoison g ub)),
        (Instr.uniSub, .uni 1 ud ua ub, setUreg g ud (ureg g ua - ureg g ub) (upoison g ua || upoison g ub)),
        (Instr.uniAnd, .uni 2 ud ua ub, setUreg g ud (ureg g ua &&& ureg g ub) (upoison g ua || upoison g ub)),
        (Instr.uniOr, .uni 3 ud ua ub, setUreg g ud (ureg g ua ||| ureg g ub) (upoison g ua || upoison g ub)),
        (Instr.uniXor, .uni 4 ud ua ub, setUreg g ud (ureg g ua ^^^ ureg g ub) (upoison g ua || upoison g ub)),
        (Instr.uniShl, .uni 5 ud ua ub,
          setUreg g ud (ureg g ua <<< ((ureg g ub).toNat % 64)) (upoison g ua || upoison g ub)),
        (Instr.uniShr, .uni 6 ud ua ub,
          setUreg g ud (ureg g ua >>> ((ureg g ub).toNat % 64)) (upoison g ua || upoison g ub)),
        (Instr.uniMul, .uni 7 ud ua ub, setUreg g ud (ureg g ua * ureg g ub) (upoison g ua || upoison g ub)),
        (Instr.uniMov, .umov ud ua, setUreg g ud (ureg g ua) (upoison g ua)),
        (Instr.uniMovtLo, .umovt false ud ua,
          setUreg g ud (setFld (ureg g ud) 31 0 (treg (threadAt g (leader p)) ua).toNat)
            (upoison g ud || tpoison (threadAt g (leader p)) ua)),
        (Instr.uniMovtHi, .umovt true ud ua,
          setUreg g ud (setFld (ureg g ud) 63 32 (treg (threadAt g (leader p)) ua).toNat)
            (upoison g ud || tpoison (threadAt g (leader p)) ua)),
        (Instr.uniLi, .uli ud, setUreg g ud (imms.headD 0) false),
        (Instr.thrClk, .clk ud, setUreg g ud (reg64 s.dev (acntOff r.cd)) false)]) →
    Issues s.dev r g p b w op imms → LeaderGoes w g p →
    ∃ e h, Completes (i r) s e ∧ OnlyGroup s.dev e r ∧
      groupAt (tileOf e r.cd r.tile) r.slot = some h ∧ h = { f with paths := h.paths }) ∧
  ∀ (s : State) (r : PathRef) (g : Group) (p : Path) (b : Block) (w : Word64) (imms : List Word64) (op : Op)
    (i : PathRef → Instr),
    (∃ (fn ud ua ub : Nat) (hi : Bool),
      (i, op) ∈ [(Instr.uniAdd, .uni 0 ud ua ub), (Instr.uniSub, .uni 1 ud ua ub), (Instr.uniAnd, .uni 2 ud ua ub),
        (Instr.uniOr, .uni 3 ud ua ub), (Instr.uniXor, .uni 4 ud ua ub), (Instr.uniShl, .uni 5 ud ua ub),
        (Instr.uniShr, .uni 6 ud ua ub), (Instr.uniMul, .uni 7 ud ua ub), (Instr.uniMov, .umov ud ua),
        (Instr.uniMovtLo, .umovt false ud ua), (Instr.uniMovtHi, .umovt true ud ua), (Instr.uniLi, .uli ud),
        (Instr.thrClk, .clk ud)]) →
    Issues s.dev r g p b w op imms → guardPoison w (threadAt g (leader p)) = false → guardOk w (threadAt g (leader p)) = false →
    ∃ e h, Completes (i r) s e ∧ OnlyGroup s.dev e r ∧
      groupAt (tileOf e r.cd r.tile) r.slot = some h ∧ h = { g with paths := h.paths }

/-- O7. thr.nop changes no register; thr.exit ends its executing threads and their registers keep their values; thr.bctl
sets the block's trap_invalid; thr.yield holds the path for the lanes of the other paths that were ready as it issued,
and its timeout makes it ready; bar.sync, once what its threads release at block scope has been performed, puts the
executing threads at the block's barrier and looks whether the barrier releases; a fence holds its path with its scope
and issue order, and is released once its conditions hold. Each completes in every state in which it issues, or its
path is so held. Completes by its own effect (exec = next): thrNop, thrExit, thrYield, yieldTimeout, thrBctl, barSync,
fenceG, fenceB, fenceD, fenceS, fenceRelease. -/
def Obligations.ThreadControlEffects : Prop :=
  ∀ (s : State) (r : PathRef) (g : Group) (p : Path) (b : Block) (w : Word64) (imms : List Word64),
    let d := s.dev
    let ls := execLanes w g p
    let k := fun op => issueCtx d r g p b w op imms
    let at_ := issuedDev d r g p w
    (Issues d r g p b w .nop imms → GuardsClean w g p →
      ∃ e, Completes (.thrNop r) s e ∧ OnlyGroup d e r ∧ GroupIs e r g (threadAt g)) ∧
    (Issues d r g p b w .exit imms → GuardsClean w g p →
      ∃ e, Completes (.thrExit r) s e ∧ OnlyTile d e r.cd r.tile ∧
        GroupIs e r g fun l => if l ∈ ls then { threadAt g l with exited := true } else threadAt g l) ∧
    (∀ n, Issues d r g p b w (.bctl n) imms → GuardsClean w g p → ls ≠ [] →
      ∃ e, Completes (.thrBctl r) s e ∧ OnlyTile d e r.cd r.tile ∧ GroupIs e r g (threadAt g) ∧
        blockOf (tileOf e r.cd r.tile) b.id = some { b with trap := n % 2 == 1 }) ∧
    (∀ m, Issues d r g p b w .yield imms → GuardsClean w g p → ls ≠ [] →
      m = readyOthers d r.cd r.tile r.slot b p.lanes → m ≠ 0 →
      Completes (.thrYield r) s (settleSlot (updPath at_ (k .yield) fun q => { q with st := .yielded m }) r.cd r.tile r.slot)) ∧
    (Issues d r g p b w .bar imms → GuardsClean w g p →
      relDone d r.cd r.tile r.slot 1 ((tileOf d r.cd r.tile).ord + 1) (laneMask ls.contains) = true →
      Completes (.barSync r) s (settleSlot (barrierCheck (updGroup at_ (k .bar) fun h =>
        { h with paths := h.paths.flatMap fun q =>
          if q.lanes ≠ p.lanes then [q]
          else
            (if q.lanes &&& laneMask ls.contains = 0 then [] else [{ q with lanes := q.lanes &&& laneMask ls.contains, st := .barrier }]) ++
            if q.lanes &&& ~~~ laneMask ls.contains = 0 then [] else [{ q with lanes := q.lanes &&& ~~~ laneMask ls.contains }] })
        r.cd r.tile b.id) r.cd r.tile r.slot)) ∧
    (∀ i scope, (i, scope) ∈ [(Instr.fenceG r, 0), (Instr.fenceB r, 1), (Instr.fenceD (.thread r), 2), (Instr.fenceS (.thread r), 3)] →
      Issues d r g p b w (.fence scope) imms → GuardsClean w g p → ls ≠ [] →
      Completes i s (settleSlot (updPath at_ (k (.fence scope)) fun q =>
        { q with st := .fence scope ((tileOf d r.cd r.tile).ord + 1) }) r.cd r.tile r.slot)) ∧
    ∀ h q, groupAt (tileOf d r.cd r.tile) r.slot = some h → pathOf h r.lane = some q →
      let free := setTile d r.cd r.tile (setGroup (tileOf d r.cd r.tile) r.slot
        (settleGroup { h with paths := { q with st := .ready } :: otherPaths h r.lane }))
      (∀ u, q.st = .yielded u → Completes (.yieldTimeout r) s free) ∧
      (∀ scope ord, q.st = .fence scope ord → fenceDone d r.cd r.tile r.slot scope ord q.lanes = true →
        Completes (.fenceRelease r) s free)

/-- O8. thr.br, thr.call and thr.br.ind: in every state in which a path issues one with no poisoned guard (and, for
thr.br.ind, no poisoned target), exec answers a next state in which every lane of the path is in a path of the group
at its destination: the branch word plus the signed target, or the register's word, where its guard holds, and the
next word elsewhere. thr.call writes the return word to t63 of the executing lanes; no other thread state changes. A
parked path is released by its timeout, which sets f_join_timeout. Completes by its own effect (exec = next): thrBr,
thrCall, thrBrInd, joinTimeout. -/
def Obligations.BranchDestinations : Prop :=
  (∀ (s : State) (r : PathRef) (g : Group) (p : Path) (b : Block) (w : Word64) (imms : List Word64) (ra join kind : Nat)
    (target : Int) (i : PathRef → Instr),
    (i, kind) ∈ [(Instr.thrBr, 0), (Instr.thrCall, 1), (Instr.thrBrInd, 2)] →
    Issues s.dev r g p b w (.branch kind ra join target) imms → GuardsClean w g p →
    (kind = 2 → ∀ l ∈ execLanes w g p, tpoison (threadAt g l) ra = false) →
    ∃ e h, Completes (i r) s e ∧
      e = { s.dev with tiles := e.tiles, rg := e.rg, tr := e.tr } ∧
      groupAt (tileOf e r.cd r.tile) r.slot = some h ∧ h = { g with thr := h.thr, paths := h.paths } ∧
      (∀ l, threadAt h l = if kind = 1 ∧ l ∈ execLanes w g p then
        setTreg (threadAt g l) 63 (BitVec.ofNat 32 (p.pc + 1)) false else threadAt g l) ∧
      ∀ l ∈ laneList p.lanes, ∃ q ∈ h.paths, bit q.lanes l = true ∧
        q.pc = if l ∈ execLanes w g p then
          (if kind = 2 then (treg (threadAt g l) ra).toNat else wrapInt 54 ((p.pc : Int) + target))
          else (p.pc + (1 + wExt w)) % pcMod) ∧
  ∀ (s : State) (r : PathRef) (h : Group) (q : Path),
    groupAt (tileOf s.dev r.cd r.tile) r.slot = some h → pathOf h r.lane = some q → q.st = .parked →
    Completes (.joinTimeout r) s (setFlag (setTile s.dev r.cd r.tile (setGroup (tileOf s.dev r.cd r.tile) r.slot
      (settleGroup { h with paths := { q with join := q.join.tail, st := .ready } :: otherPaths h r.lane })))
      (tgOff r.cd r.tile 6) 2)

/-- O9. For each of the 49 vector instructions, in every state in which a path issues it, its leader executes it, its
uniform operand (if it uses one) is not poisoned, its checks pass and its queue of eight has room: exec answers a next
state in which the vector queue has that instruction at its end, with its word, its uniform operand, what it reads and
writes and the block's trap_invalid, the threads and uniform registers of the group are as before, and nothing else
changes but paths and the issue order. Where a check fails, the block faults with that check's status instead; while
the queue is full the path is held and nothing changes. Completes by its own effect (exec = next): vxAdd, vxSub,
vxMul, vxMulh, vxMad, vxMin, vxMax, vxAnd, vxOr, vxXor, vxShl, vxShr, vxSra, vxAbs, vxAddFp, vxSubFp, vxMulFp, vxFma,
vxMinFp, vxMaxFp, vxAbsFp, vxNeg, vxCmpEq, vxCmpNe, vxCmpLt, vxCmpLe, vxCmpGt, vxCmpGe, vxCmpUn, vxSel, vxExp2,
vxLog2, vxRcp, vxRsqrt, vxCvt, vxQnt, vxRadd, vxRmin, vxRmax, vxPerm, vxBcast, vxSlideUp, vxSlideDn, vxMov, vxUnpkI8,
vxUnpkI4, vxTr64, vxLd, vxSt. -/
def Obligations.VectorIssue : Prop :=
  ∀ (s : State) (r : PathRef) (g : Group) (p : Path) (b : Block) (w : Word64) (imms : List Word64)
    (i : PathRef → Instr) (op fn f : Nat),
    (i, op, f) ∈ [
      (Instr.vxAdd, 0, 0x0), (Instr.vxSub, 0, 0x1), (Instr.vxMul, 0, 0x2), (Instr.vxMulh, 0, 0x3),
      (Instr.vxMad, 0, 0x4), (Instr.vxMin, 0, 0x5), (Instr.vxMax, 0, 0x6), (Instr.vxAnd, 0, 0x7),
      (Instr.vxOr, 0, 0x8), (Instr.vxXor, 0, 0x9), (Instr.vxShl, 0, 0xA), (Instr.vxShr, 0, 0xB),
      (Instr.vxSra, 0, 0xC), (Instr.vxAbs, 0, 0xD), (Instr.vxAddFp, 1, 0), (Instr.vxSubFp, 1, 1),
      (Instr.vxMulFp, 1, 2), (Instr.vxFma, 1, 3), (Instr.vxMinFp, 1, 4), (Instr.vxMaxFp, 1, 5),
      (Instr.vxAbsFp, 1, 6), (Instr.vxNeg, 1, 7), (Instr.vxCmpEq, 2, 0), (Instr.vxCmpNe, 2, 1),
      (Instr.vxCmpLt, 2, 2), (Instr.vxCmpLe, 2, 3), (Instr.vxCmpGt, 2, 4), (Instr.vxCmpGe, 2, 5),
      (Instr.vxCmpUn, 2, 6), (Instr.vxSel, 2, 8), (Instr.vxExp2, 3, 0), (Instr.vxLog2, 3, 1),
      (Instr.vxRcp, 3, 2), (Instr.vxRsqrt, 3, 3), (Instr.vxRadd, 6, 0), (Instr.vxRmin, 6, 1),
      (Instr.vxRmax, 6, 2), (Instr.vxPerm, 7, 0), (Instr.vxBcast, 7, 1), (Instr.vxSlideUp, 7, 2),
      (Instr.vxSlideDn, 7, 3), (Instr.vxMov, 7, 4), (Instr.vxUnpkI8, 7, 5), (Instr.vxUnpkI4, 7, 6),
      (Instr.vxTr64, 7, 7), (Instr.vxLd, 8, 0), (Instr.vxSt, 8, 1), (Instr.vxCvt, 4, fn), (Instr.vxQnt, 5, fn)] →
    Issues s.dev r g p b w (.vx op f) imms → LeaderGoes w g p →
    let us := if vUsesUs w then [fld w 12 8] else []
    let k := issueCtx s.dev r g p b w (.vx op f) imms
    us.any (upoison g) = false →
    (8 ≤ (tileOf s.dev r.cd r.tile).vx.queue.length → Completes (i r) s s.dev) ∧
    ((tileOf s.dev r.cd r.tile).vx.queue.length < 8 →
    (∀ n, vxCheck k (us.map fun u => (ureg g u).toNat) = .ok n →
      ∃ e, Completes (i r) s e ∧ OnlyTile s.dev e r.cd r.tile ∧ GroupIs e r g (threadAt g) ∧
        tileOf e r.cd r.tile = queued s.dev (tileOf e r.cd r.tile).slots r .vx p b w n) ∧
    ∀ st va, vxCheck k (us.map fun u => (ureg g u).toNat) = .fault st va →
      Completes (i r) s (settleSlot (blockFault (issuedDev s.dev r g p w) r.cd r.tile b.id r.slot (leader p) p.pc st va)
        r.cd r.tile r.slot))

/-- O10. mx.mma, mx.zero, mx.st.acc, mx.ld.acc, al.zero, al.rd.*, sp.split, sp.mma and sp.rd.*: in every state in which a
path issues one, its leader executes it, no uniform operand of it is poisoned, its checks pass and its queue has room
(for sp.* on a CD that has the units and with split in hardware mode): exec answers a next state with that instruction
at the end of the unit's queue, thread and uniform registers as before and nothing else changed but paths and the
issue order; a failing check faults the block; while the queue is full the path is held. With split in host-assisted
mode sp.* is a call; on a CDb it raises ABSENT. al.bind sets the binding; mx.sync takes its place in the engine's
queue, holds its path and is released when the block's earlier unit instructions have completed. Completes by its own
effect (exec = next): mxMma, mxZero, mxStAcc, mxLdAcc, mxSync, mxSyncRelease, alBind, alZero, alRdI32, alRdF32,
spSplit, spMma, spRdF64, spRdF32, spRdBf16. -/
def Obligations.UnitIssue : Prop :=
  ∀ (s : State) (r : PathRef) (g : Group) (p : Path) (b : Block) (w : Word64) (imms : List Word64),
    let d := s.dev
    let k := fun op => issueCtx d r g p b w op imms
    let at_ := issuedDev d r g p w
    let two := [fld w 36 32, fld w 31 27]
    let stores : UnitSel → UnitNew → Dev → Prop := fun u n e =>
      OnlyTile d e r.cd r.tile ∧ GroupIs e r g (threadAt g) ∧
        tileOf e r.cd r.tile = queued d (tileOf e r.cd r.tile).slots r u p b w n
    let faults : Nat → Option Nat → Dev := fun st va =>
      settleSlot (blockFault at_ r.cd r.tile b.id r.slot (leader p) p.pc st va) r.cd r.tile r.slot
    (∀ (i : PathRef → Instr) (op : Op) (u : UnitSel) (us : List Nat) (chk : Ctx → List Nat → UnitCheck),
      (i, op, u, us, chk) ∈ [
        (Instr.mxMma, .mma, .mx, two, mmaCheck),
        (Instr.mxZero, .mxAcc 0, .mx, [], fun k _ => .ok { writes := accBit (mmaAcc k.w) }),
        (Instr.mxStAcc, .mxAcc 1, .mx, [fld w 36 32], fun k vals =>
          checked [chkAlign (vals.headD 0), chkExtent (vals.headD 0) 16384]
            { uops := [vals.headD 0], reads := accBit (mmaAcc k.w), wmem := [(vals.headD 0, 16384)] }),
        (Instr.mxLdAcc, .mxAcc 2, .mx, [fld w 36 32], fun k vals =>
          checked [chkAlign (vals.headD 0), chkExtent (vals.headD 0) 16384]
            { uops := [vals.headD 0], writes := accBit (mmaAcc k.w), rmem := [(vals.headD 0, 16384)] }),
        (Instr.alZero, .al 1, .al, [], fun k _ => .ok { writes := xBit (fld k.w 45 45) }),
        (Instr.alRdI32, .al 2, .al, [], alRdNew), (Instr.alRdF32, .al 3, .al, [], alRdNew)] →
      Issues d r g p b w op imms → LeaderGoes w g p → us.any (upoison g) = false →
      (unitRoom (tileOf d r.cd r.tile) u = false → Completes (i r) s d) ∧
      (unitRoom (tileOf d r.cd r.tile) u = true →
        (∀ n, chk (k op) (us.map fun v => (ureg g v).toNat) = .ok n → ∃ e, Completes (i r) s e ∧ stores u n e) ∧
        ∀ st va, chk (k op) (us.map fun v => (ureg g v).toNat) = .fault st va → Completes (i r) s (faults st va))) ∧
    (∀ (i : PathRef → Instr) (op : Op) (u : UnitSel) (us : List Nat) (chk : Ctx → List Nat → UnitCheck),
      (i, op, u, us, chk) ∈ [
        (Instr.spSplit, .spSplit, .sp, two, splitCheck), (Instr.spMma, .spMma, .mx, two, spMmaCheck),
        (Instr.spRdF64, .spRd 0, .al, [], spRdNew), (Instr.spRdF32, .spRd 1, .al, [], spRdNew),
        (Instr.spRdBf16, .spRd 2, .al, [], spRdNew)] →
      Issues d r g p b w op imms → LeaderGoes w g p →
      (cdFull d r.cd = false →
        Completes (i r) s (settleSlot (raiseStatus at_ r.cd r.tile b.id stAbsent) r.cd r.tile r.slot)) ∧
      (cdFull d r.cd = true → us.any (upoison g) = false →
        ((tileOf d r.cd r.tile).split = true ∨ unitRoom (tileOf d r.cd r.tile) u = true) →
        (∀ n, chk (k op) (us.map fun v => (ureg g v).toNat) = .ok n →
          ((tileOf d r.cd r.tile).split = false → ∃ e, Completes (i r) s e ∧ stores u n e) ∧
          ((tileOf d r.cd r.tile).split = true →
            Completes (i r) s (settleSlot (assistCall at_ (k op)) r.cd r.tile r.slot))) ∧
        ∀ st va, chk (k op) (us.map fun v => (ureg g v).toNat) = .fault st va → Completes (i r) s (faults st va))) ∧
    (Issues d r g p b w (.al 0) imms → LeaderGoes w g p → two.any (upoison g) = false →
      ∃ e, Completes (.alBind r) s e ∧ OnlyTile d e r.cd r.tile ∧ GroupIs e r g (threadAt g) ∧
        (tileOf e r.cd r.tile).bind = ⟨bit w 45, (ureg g (fld w 36 32)).toNat, (ureg g (fld w 31 27)).toNat, bit w 44, bit w 43⟩) ∧
    (Issues d r g p b w (.mxAcc 3) imms → LeaderGoes w g p → unitRoom (tileOf d r.cd r.tile) .mx = true →
      Completes (.mxSync r) s (settleSlot (updPath (pushUnit at_ (k (.mxAcc 3)) .mx {}) (k (.mxAcc 3)) fun q =>
        { q with st := .mxSync ((tileOf d r.cd r.tile).ord + 1) }) r.cd r.tile r.slot)) ∧
    ∀ h q ord, groupAt (tileOf d r.cd r.tile) r.slot = some h → pathOf h r.lane = some q → q.st = .mxSync ord →
      syncDone (tileOf d r.cd r.tile) h.blk ord = true →
      Completes (.mxSyncRelease r) s (setTile d r.cd r.tile (setGroup (tileOf d r.cd r.tile) r.slot
        (settleGroup { h with paths := { q with st := .ready } :: otherPaths h r.lane })))

/-- O11. For instructions that act lane by lane: in every state in which a path issues one and the guard predicate of one
of its lanes is poisoned, exec answers a next state in which the block has faulted with POISON at the lowest such lane
and the instruction has written nothing (an FP32 instruction has raised the statuses of the executing lanes below it
before). The same for a thread load, store or atomic of which the first executing lane has a poisoned address
register, and for a local load or store whose lowest failing lane has one; a load also reports the address that the
registers give. -/
def Obligations.PoisonedOperandFaults : Prop :=
  ∀ (s : State) (r : PathRef) (g : Group) (p : Path) (b : Block) (w : Word64) (imms : List Word64),
    let faults := fun (i : Instr) (e : Dev) (l : Nat) (va : Option Nat) =>
      Completes i s (settleSlot (blockFault e r.cd r.tile b.id r.slot l p.pc stPoison va) r.cd r.tile r.slot)
    let at_ := issuedDev s.dev r g p w
    (∀ (i : PathRef → Instr) (op : Op) (l : Nat),
      (∃ rd ra rb rc src, (i, op) ∈ [(Instr.thrAdd, .alu 0 rd ra src), (Instr.thrMul, .mul 0 rd ra rb rc),
        (Instr.thrDiv, .mul 4 rd ra rb rc), (Instr.thrCmpEq, .cmp 0 rd ra src), (Instr.thrPand, .plogic 0 rd ra rb),
        (Instr.thrMov, .mov rd ra), (Instr.thrSel, .sel rd ra rb rc), (Instr.thrShfl, .shfl rd ra rb),
        (Instr.thrBallot, .ballot rd rb), (Instr.thrExit, .exit), (Instr.barSync, .bar), (Instr.thrNop, .nop)]) →
      Issues s.dev r g p b w op imms →
      (laneList p.lanes).find? (fun l => guardPoison w (threadAt g l)) = some l → faults (i r) at_ l none) ∧
    (∀ (i : PathRef → Instr) (fn l : Nat), (∀ rd ra rb rc : Nat,
      (i, fn) ∈ [(Instr.thrFadd, 0), (Instr.thrFsub, 1), (Instr.thrFmul, 2), (Instr.thrFfma, 3), (Instr.thrFmin, 4),
        (Instr.thrFmax, 5)] →
      Issues s.dev r g p b w (.fp fn rd ra rb rc) imms →
      (laneList p.lanes).find? (fun l => guardPoison w (threadAt g l)) = some l →
      let k := issueCtx s.dev r g p b w (.fp fn rd ra rb rc) imms
      faults (i r) (laneStatus at_ k ((goodLanes k l).map fun j => (j, (fpThread k (threadAt g j)).2))) l none)) ∧
    ∀ (i : Instr) (op : MemOp → Op) (m : MemOp) (l : Nat) (ecc : List (Nat × EccFound)),
      (i, op) ∈ [(Instr.thrLd r ecc, Op.ld), (Instr.thrSt r, Op.st), (Instr.thrAtom r, Op.atom)] →
      Issues s.dev r g p b w (op m) imms → GuardsClean w g p → addrPoison m g (threadAt g l) = true →
      ((execLanes w g p).head? = some l ∨ (m.glob = false ∧ i ≠ .thrAtom r ∧ (execLanes w g p).find? (fun j =>
        addrPoison m g (threadAt g j) || !localOk (localAddr m imms (threadAt g j)) (szBytes m.sz)) = some l)) →
      faults i at_ l (if i = .thrLd r ecc then some (laneVa (issueCtx s.dev r g p b w (op m) imms) m l) else none)

/-- O12. thr.ld and thr.st in local space, in every state in which a path issues one with clean guards and addresses and
no earlier access to its lines still to be performed (and, for a releasing store, nothing it releases): where every
executing lane's bytes lie in tile memory, a load completes with each lane's register holding the bytes at its offset,
little-endian, zero- or sign-extended, with the poison of the lines each register was read from, and a store completes
with each byte stored to holding the byte of the highest-numbered lane that stores it, every other byte of memory and
every thread and uniform register as before. The lowest lane outside tile memory faults the block with XLAT. thr.atom
in local space faults with NOATOMIC. The store's clause concerns a package no CD of which is down. Completes by its
own effect (exec = next): thrLd, thrSt. -/
def Obligations.LocalAccesses : Prop :=
  ∀ (s : State) (r : PathRef) (g : Group) (p : Path) (b : Block) (w : Word64) (imms : List Word64) (m : MemOp),
    let d := s.dev
    let ls := execLanes w g p
    let n := szBytes m.sz
    let off := fun l => localAddr m imms (threadAt g l)
    let pa := fun l => tilePa r.cd r.tile (off l).toNat
    let k := fun op => issueCtx d r g p b w op imms
    let faults := fun (i : Instr) (l st : Nat) =>
      Completes i s (settleSlot (blockFault (issuedDev d r g p w) r.cd r.tile b.id r.slot l p.pc st
        (some (wrapInt 57 (off l)))) r.cd r.tile r.slot)
    m.glob = false → GuardsClean w g p → (∀ l ∈ ls, addrPoison m g (threadAt g l) = false) →
    (Issues d r g p b w (.ld m) imms → (∀ l ∈ ls, localOk (off l) n = true) → localWaits (k (.ld m)) m ls = false →
      ∃ e, Completes (.thrLd r []) s e ∧ OnlyGroup d e r ∧ GroupIs e r g fun l =>
        if l ∈ ls then putRegs setTreg (threadAt g l) m.rd (loadedRegs m.sz m.sx (pBytesAt d (pa l) n)) else threadAt g l) ∧
    (Issues d r g p b w (.st m) imms → (∀ l ∈ ls, localOk (off l) n = true) → localWaits (k (.st m)) m ls = false →
      releaseWaits d (k (.st m)) m ls = false → d.mem.lost = [] → r.cd < 4 → r.tile < 180 →
      (∀ l ∈ ls, ∀ i < n, (wellLine d ((pa l + i) / 64)).valid = false) →
      ∃ e, Completes (.thrSt r) s e ∧ e = { d with tiles := e.tiles, mem := e.mem } ∧ GroupIs e r g (threadAt g) ∧
        ∀ a, byteAt e a = match ls.reverse.find? fun l => decide (pa l ≤ a) && decide (a < pa l + n) with
          | some l => (storeBytes (threadAt g l) m).getD (a - pa l) 0
          | none => byteAt d a) ∧
    (∀ l ecc, Issues d r g p b w (.ld m) imms → ls.find? (fun l => !localOk (off l) n) = some l →
      faults (.thrLd r ecc) l stXlat) ∧
    (∀ l, Issues d r g p b w (.st m) imms → ls.find? (fun l => !localOk (off l) n) = some l → faults (.thrSt r) l stXlat) ∧
    ∀ l, Issues d r g p b w (.atom m) imms → ls.head? = some l → faults (.thrAtom r) l stNoatomic

/-- O13. thr.ld, thr.st and thr.atom in global space, in every state in which a path issues one with clean guards and
addresses and every lane's bytes translate and pass the checks: the load or atomic completes its issue with one access
outstanding that holds its destination, size, operation and one part for each executing lane, and its destination
registers await it; the store's bytes enter the store buffer, merged into the entries of their lines, where the buffer
has room for the new lines and what it must follow has been performed. The first lane that fails a check faults the
block with that check's status. Statuses that refuse a part without a fault reach the block. Where a translation
waits, the path is held. Completes by its own effect (exec = next): thrLd, thrSt, thrAtom. -/
def Obligations.GlobalAccesses : Prop :=
  ∀ (s : State) (r : PathRef) (g : Group) (p : Path) (b : Block) (w : Word64) (imms : List Word64) (m : MemOp) (e : Dev),
    let ls := execLanes w g p
    let at_ := issuedDev s.dev r g p w
    let k := fun op => issueCtx s.dev r g p b w op imms
    let xl := fun (op : Op) acc atomic => xlatAccess acc atomic at_ (k op) m ls
    let x := tileOf e r.cd r.tile
    let sends := fun (i : Instr) (op : Op) (o : Outstanding) ps =>
      Completes i s (settleSlot (if ps = [] then e else sendAccess e (k op) o ls ps) r.cd r.tile r.slot)
    let faults := fun (i : Instr) (l st va : Nat) =>
      Completes i s (settleSlot (blockFault e r.cd r.tile b.id r.slot l p.pc st (some va)) r.cd r.tile r.slot)
    m.glob = true → GuardsClean w g p → (∀ l ∈ ls, addrPoison m g (threadAt g l) = false) →
    (∀ ecc ps, Issues s.dev r g p b w (.ld m) imms → xl (.ld m) .read false = (e, .ok ps) →
      sends (.thrLd r ecc) (.ld m)
        { ord := (tileOf s.dev r.cd r.tile).ord + 1, blk := b.id, slot := r.slot, lanes := laneMask ls.contains, rd := m.rd,
          sz := m.sz, sx := m.sx, aop := none, acq := m.sem == 1, rel := false, scope := m.scope, pc := p.pc, trap := b.trap,
          parts := ps.map fun z => ⟨z.1, z.2, 0, 0, false, none⟩ } ps) ∧
    (∀ ps, Issues s.dev r g p b w (.atom m) imms → xl (.atom m) .write true = (e, .ok ps) →
      sends (.thrAtom r) (.atom m)
        { ord := (tileOf s.dev r.cd r.tile).ord + 1, blk := b.id, slot := r.slot, lanes := laneMask ls.contains, rd := m.rd,
          sz := m.sz, sx := false, aop := some m.aop, acq := m.sem % 2 == 1, rel := decide (2 ≤ m.sem), scope := m.scope,
          pc := p.pc, trap := b.trap,
          parts := ps.map fun z =>
            let t := threadAt g z.1
            ⟨z.1, z.2, dataVal t m.sz m.rb, dataVal t m.sz m.rd,
              dataPoison t m.sz m.rb || (m.aop == 9 && dataPoison t m.sz m.rd),
              if z.2.any fun c => c.st != 0 then some (0, false, false) else none⟩ } ps) ∧
    (∀ ps, Issues s.dev r g p b w (.st m) imms → xl (.st m) .write false = (e, .ok ps) →
      let ws := ps.foldl (fun ws z =>
        addChunks z.2 (storeBytes (threadAt g z.1) m) (dataPoison (threadAt g z.1) m.sz m.rd) ws) []
      storeEnters e (k (.st m)) m ls ps = true →
      Completes (.thrSt r) s (settleSlot (raiseStatus (setTile e r.cd r.tile { x with
        stores := ws.foldl (bufferLine ⟨x.ord, b.id, r.slot, laneMask ls.contains⟩) x.stores }) r.cd r.tile b.id (chunkStatus ps))
        r.cd r.tile r.slot)) ∧
    (∀ ecc l st va, Issues s.dev r g p b w (.ld m) imms → xl (.ld m) .read false = (e, .fault l st va) →
      faults (.thrLd r ecc) l st va) ∧
    (∀ l st va, Issues s.dev r g p b w (.st m) imms → xl (.st m) .write false = (e, .fault l st va) →
      faults (.thrSt r) l st va) ∧
    (∀ l st va, Issues s.dev r g p b w (.atom m) imms → xl (.atom m) .write true = (e, .fault l st va) →
      faults (.thrAtom r) l st va) ∧
    ∀ i op acc atomic ecc, (i, op, acc, atomic) ∈ [(Instr.thrLd r ecc, Op.ld m, Access.read, false),
      (.thrSt r, .st m, .write, false), (.thrAtom r, .atom m, .write, true)] →
      Issues s.dev r g p b w op imms → xl op acc atomic = (e, .wait) → Completes i s s.dev

/-- O14. GLOBAL_ACCESS_RESPONSE: where the named access may return and no part of it is refused or out of reach, a load
completes with each of its lanes' registers holding the bytes that its parts have got, or those of the store buffer
over those at the point of performance, an atomic with each lane's old value, and the access is no longer outstanding.
For one part of a misaligned load, the accesses at its address get those bytes and the load stays outstanding.
STORE_BUFFER_DRAIN: an entry leaves; each byte of its mask is then the entry's at the point of performance, every
other byte of memory is as before, the line's poison follows R311, and the entry is gone from the buffer. Completes by
its own effect (exec = next): globalAccessResponse, storeBufferDrain. -/
def Obligations.AccessesPerform : Prop :=
  (∀ (s : State) (cd tile ord : Nat) (o : Outstanding) (g : Group),
    let d := s.dev
    let x := tileOf d cd tile
    let regs := fun (f : LaneAcc → List (Word32 × Bool)) l =>
      match o.parts.find? fun a => a.lane == l with
      | some a => putRegs (returnReg o.ord) (threadAt g l) o.rd (f a)
      | none => threadAt g l
    x.out.find? (fun o => o.ord == ord) = some o → mayReturn x o = true → groupAt x o.slot = some g →
    (∀ a ∈ o.parts, ∀ c ∈ a.chunks, c.st ≠ stState ∧ (c.st = 0 → deadTo d cd (c.pa / 64) = false)) →
    o.parts.Pairwise (fun a b => a.lane ≠ b.lane) →
    (o.aop = none → ∃ e, Completes (.globalAccessResponse cd tile ord none []) s e ∧
      (tileOf e cd tile).out = x.out.filter (fun q => q.ord != ord) ∧ GroupIs e ⟨cd, tile, o.slot, 0⟩ g (regs fun a =>
        loadedRegs o.sz o.sx (a.chunks.flatMap (chunkBytes (readLines d [] (o.parts.flatMap accLines)) x)))) ∧
    ∀ aop, o.aop = some aop → (∀ a ∈ o.parts, ∀ v p i, a.done = some (v, p, i) → i = false) →
      ∃ e, Completes (.globalAccessResponse cd tile ord none []) s e ∧
        (tileOf e cd tile).out = x.out.filter (fun q => q.ord != ord) ∧ GroupIs e ⟨cd, tile, o.slot, 0⟩ g (regs fun a =>
          match a.done with
          | some (v, p, _) => dataRegs o.sz v p
          | none => [])) ∧
  (∀ (s : State) (cd tile ord pa : Nat) (o : Outstanding),
    let d := s.dev
    let x := tileOf d cd tile
    let one := { o with parts := o.parts.map fun a => { a with chunks := a.chunks.filter fun c => c.pa == pa } }
    let e := readLines d [] (one.parts.flatMap accLines)
    x.out.find? (fun o => o.ord == ord) = some o → o.aop = none → mayReturn x one = true → deadTo d cd (pa / 64) = false →
    Completes (.globalAccessResponse cd tile ord (some pa) []) s (setTile e cd tile { x with
      out := x.out.map fun q => if q.ord = ord then mapChunks q fun c =>
        if c.pa = pa ∧ c.st = 0 ∧ c.got = none then { c with got := some (chunkBytes e x c) } else c else q })) ∧
  ∀ (s : State) (cd tile line : Nat) (en : StoreEntry),
    let d := s.dev
    let x := tileOf d cd tile
    x.stores.find? (fun e => e.line == line) = some en → deadTo d cd line = false →
    lineLost d line = false → ((wellLine d line).valid = true → (farLine? d line).isSome = true) →
    ∃ e, Completes (.storeBufferDrain cd tile line .none) s e ∧
      tileOf e cd tile = { x with stores := x.stores.filter fun q => q.line != line } ∧
      (∀ c t, tileKey c t ≠ tileKey cd tile → tileOf e c t = tileOf d c t) ∧
      (∀ i < 64, byteAt e (64 * line + i) = if bit en.mask i then lineByte en.data i else byteAt d (64 * line + i)) ∧
      (∀ a, a / 64 ≠ line → byteAt e a = byteAt d a) ∧
      poisonAt e line = (en.poison || poisonAt (homeFill d line) line && en.mask != BitVec.allOnes 64)

/-- O15. MX_START, AL_START, SLICER_START and VX_START: where the head of the queue is free of dependences (or chains, the
aligner is free for segments and no sp.mma holds the engine), exec answers a next state in which it has left the queue
and runs with its results, and the rest of the queue stays; MX_START also hands its segments to the aligner, and takes
an mx.sync from the queue. An mx.mma without segments computes for each element the sum over its depth of row times
column operand, added to what it accumulates onto, held to the signed 32-bit range. The completion commands (of the
engine, in its turn among chained sums) write the results of the named running instruction, take it from the unit, and
raise its statuses. Completes by its own effect (exec = next): mxStart, mxComplete, alStart, alComplete, slicerStart,
slicerComplete, vxStart, vxComplete. -/
def Obligations.UnitStartsAndCompletes : Prop :=
  (∀ (s : State) (cd tile stall : Nat) (i : UnitInstr) (q : List UnitInstr),
    let x := tileOf s.dev cd tile
    (x.mx.queue = i :: q → isSync i.word = true →
      Completes (.mxStart cd tile stall []) s (setTile s.dev cd tile { x with mx := ⟨q, x.mx.run, i.ord⟩ })) ∧
    (x.mx.queue = i :: q → isSync i.word = false → (depsMet x i = true ∨ chains x i = true) → alignerFree x i = true →
      engineFree x = true →
      ∃ e j, Completes (.mxStart cd tile stall []) s e ∧ e = { s.dev with tiles := e.tiles, rg := e.rg } ∧
        tileOf e cd tile = { x with
          mx := ⟨q, x.mx.run ++ [j], i.ord⟩, al := { x.al with run := x.al.run ++ segmentPart s.dev cd tile i } } ∧
        j.ord = i.ord ∧ j.word = i.word ∧ (j.writes = i.writes % 2 ^ 12) ∧
        (wOp i.word = 0x30 → mmaSeg i.word = false → ∀ n < mmaRows i.word * mmaCols i.word,
          let row := fun k => mmaRowVal s.dev cd tile i.word (i.uops.getD 0 0) (i.uops.getD 1 0) (n / mmaCols i.word) k
          let col := fun k => mmaColVal s.dev cd tile i.word (i.uops.getD 0 0) (i.uops.getD 1 0) (n % mmaCols i.word) k
          let old := priorAcc x (mmaAcc i.word) n
          let sum := ((List.range (mmaK i.word)).map fun k => (row k).1 * (col k).1).sum +
            if mmaAccum i.word then old.v.toInt else 0
          (mmaAcc i.word * 4096 + n, (⟨BitVec.ofInt 32 (max (-(2 ^ 31)) (min (2 ^ 31 - 1) sum)),
            (List.range (mmaK i.word)).any (fun k => (row k).2 || (col k).2) || (mmaAccum i.word && old.p)⟩ : Elem)) ∈
            j.res.acc)) ∧
    (x.al.queue = i :: q → depsMet x i = true → (∀ j ∈ x.mx.queue, handsSegments j = true → i.ord ≤ j.ord) →
      (∀ j ∈ x.al.run, wOp j.word ≠ 0x39) →
      Completes (.alStart cd tile []) s (setTile s.dev cd tile { x with
        al := ⟨q, x.al.run ++ [{ i with res := alignerRes x i }], i.ord⟩ })) ∧
    (x.sp.queue = i :: q → depsMet x i = true →
      Completes (.slicerStart cd tile []) s (setTile s.dev cd tile { x with
        sp := ⟨q, x.sp.run ++ [{ i with res := splitRes s.dev cd tile i }], i.ord⟩ })) ∧
    (x.vx.queue = i :: q → depsMet x i = true →
      ∃ e j, Completes (.vxStart cd tile stall []) s e ∧ e = { s.dev with tiles := e.tiles, rg := e.rg } ∧
        tileOf e cd tile = { x with vx := ⟨q, x.vx.run ++ [j], i.ord⟩ } ∧ j = { i with res := vxRes s.dev cd tile i })) ∧
  ∀ (s : State) (cd tile ord : Nat) (i : UnitInstr),
    let d := s.dev
    let x := tileOf d cd tile
    let written := fun u => writeRes (setTile d cd tile (dropRunning x u ord)) cd tile ord i.res
    (runningAt x .mx ord = some i → inTurn x i = true → Completes (.mxComplete cd tile ord) s
      (raiseRes (setFlagMask (if i.res.count = 0 then written .mx else addCtr (written .mx) (regOff cd 0xB tile 2) i.res.count)
        (regOff cd 8 tile 1) i.res.flags) cd tile 2 i i.res)) ∧
    (runningAt x .al ord = some i → runningAt x .mx ord = none → Completes (.alComplete cd tile ord) s
      (raiseRes (setFlagMask (setFlagMask (written .al) (regOff cd 9 tile 1) i.res.alFlags) (regOff cd 0xB tile 1) i.res.flags)
        cd tile (if wOp i.word = 0x39 ∨ wOp i.word = 0x3B then 4 else 3) i i.res)) ∧
    (runningAt x .sp ord = some i → Completes (.slicerComplete cd tile ord) s
      (raiseRes (setFlagMask (written .sp) (regOff cd 0xB tile 1) i.res.flags) cd tile 4 i i.res)) ∧
    (runningAt x .vx ord = some i → Completes (.vxComplete cd tile ord) s
      (raiseRes (setFlagMask (written .vx) (regOff cd 0xC tile 1) i.res.flags) cd tile 5 i i.res))

/-- O16. gong.add, .set, .max, .arm, .disarm and gong.wait.ge, .eq, by a thread path whose leader executes it or by a
stream that starts it: where the operand is not poisoned and the gong check passes, exec answers a next state in which
the update is under way (or, with cv, handed to its convoy), a stream's update has retired, and a waiting path or
queue is held. A check that ends the operation gives its status and no effect; one that faults faults the block, or
retires with its status on a stream. Completes by its own effect (exec = next): gongAdd, gongSet, gongMax, gongArm,
gongDisarm, gongWaitGe, gongWaitEq. -/
def Obligations.GongUpdatesSent : Prop :=
  (∀ (s : State) (r : PathRef) (g : Group) (p : Path) (b : Block) (w : Word64) (imms : List Word64) (e : Dev),
    let d := s.dev
    let gong := if bit w 1 then fld (ureg g (fld w 6 2)) 16 0 else fld w 23 7
    let v := if wExt w = 1 then imms.headD 0 else ureg g (fld w 6 2)
    let who := Who.path r.cd r.tile r.slot p.lanes.toNat
    let clean := (bit w 1 || wExt w == 0) = true → upoison g (fld w 6 2) = false
    let ends := fun (i : Instr) e => Completes i s (settleSlot e r.cd r.tile r.slot)
    (∀ (i : Issuer → Instr) (fn : Nat) (f : GongFn),
      (i, fn, f) ∈ [(Instr.gongAdd, 0, GongFn.add), (Instr.gongSet, 1, GongFn.set), (Instr.gongMax, 2, GongFn.max),
        (Instr.gongArm, 3, GongFn.arm (fld w 36 24)), (Instr.gongDisarm, 4, GongFn.disarm)] →
      Issues d r g p b w (.gong fn) imms → LeaderGoes w g p → clean →
      let chk := updateCheck (issuedDev d r g p w) (.tile r.cd r.tile) b.space b.part gong w
      (chk = (e, .go) →
        let u : GongUpd := ⟨gong, f, v, fld w 45 44, who, (tileOf d r.cd r.tile).ord + 1⟩
        (bit w 43 = false → ends (i (.thread r)) { e with gg := { e.gg with upd := e.gg.upd ++ [u] } }) ∧
        (bit w 43 = true → ends (i (.thread r)) (convoyUpdate e (fld w 42 24) b.cls u))) ∧
      (∀ st, chk = (e, .ends st) → ends (i (.thread r)) (raiseStatus e r.cd r.tile b.id st)) ∧
      ∀ st va, chk = (e, .fault st va) →
        ends (i (.thread r)) (blockFault e r.cd r.tile b.id r.slot (leader p) p.pc st (some va))) ∧
    ∀ (i : Issuer → Instr) (eq : Bool),
      (i, eq) ∈ [(Instr.gongWaitGe, false), (Instr.gongWaitEq, true)] →
      Issues d r g p b w (.gwait eq) imms → LeaderGoes w g p → clean →
      let chk := gongCheck (issuedDev d r g p w) (.tile r.cd r.tile) b.space gong
      (chk = (e, .go) → ∃ h : Dev, ends (i (.thread r)) h ∧
        h.gg.wait = e.gg.wait ++ [⟨gong, eq, v, fld w 45 44, who, false, .none, (reg64 e hdPcntOff).toNat, p.pc⟩] ∧
        h = { e with tiles := h.tiles, gg := { e.gg with wait := h.gg.wait } } ∧
        (groupAt (tileOf h r.cd r.tile) r.slot).bind (pathOf · (leader p)) = some { movedPath p w with st := .gong }) ∧
      (∀ st, chk = (e, .ends st) → ends (i (.thread r)) (raiseStatus e r.cd r.tile b.id st)) ∧
      ∀ st va, chk = (e, .fault st va) →
        ends (i (.thread r)) (blockFault e r.cd r.tile b.id r.slot (leader p) p.pc st (some va))) ∧
  ∀ (s : State) (q : Nat) (w : Word64) (imms : List Word64) (e : Dev),
    let d := s.dev
    let gong := fld w 23 7
    (∀ (i : Issuer → Instr) (fn : Nat) (f : GongFn),
      (i, fn, f) ∈ [(Instr.gongAdd, 0, GongFn.add), (Instr.gongSet, 1, GongFn.set), (Instr.gongMax, 2, GongFn.max),
        (Instr.gongArm, 3, GongFn.arm (fld w 36 24)), (Instr.gongDisarm, 4, GongFn.disarm)] →
      Starts d q (.gong fn) w imms →
      let chk := updateCheck d (.stream (queueCd q)) (queueSpace d q) (qPart d q) gong w
      let u : GongUpd := ⟨gong, f, imms.headD 0, fld w 45 44, .queue q, streamOrd e q⟩
      (chk = (e, .go) → bit w 43 = false → Completes (i (.stream q)) s
        (started d q w (retireInstr { e with gg := { e.gg with upd := e.gg.upd ++ [u] } } q (1 + wExt w)))) ∧
      (chk = (e, .go) → bit w 43 = true → Completes (i (.stream q)) s
        (started d q w (retireInstr (convoyUpdate e (fld w 42 24) (qClass e q) u) q (1 + wExt w)))) ∧
      ∀ st va, chk = (e, .ends st) ∨ chk = (e, .fault st va) →
        Completes (i (.stream q)) s (started d q w (retireWith e q (1 + wExt w) st))) ∧
    ∀ (i : Issuer → Instr) (eq : Bool),
      (i, eq) ∈ [(Instr.gongWaitGe, false), (Instr.gongWaitEq, true)] → Starts d q (.gwait eq) w imms →
      gongCheck d (.stream (queueCd q)) (queueSpace d q) gong = (e, .go) →
      ∃ h, Completes (i (.stream q)) s (traceStart h q (queueOf d q) w) ∧
        queueOf h q = { queueOf e q with state := .wait, wait := .gong } ∧
        h.gg.wait = e.gg.wait ++
          [⟨gong, eq, imms.headD 0, fld w 45 44, .queue q, false, .none, (reg64 e hdPcntOff).toNat, 0⟩]

/-- O17. GONG_UPDATE_PERFORMED of an update under way that is ready and whose issuer can reach the gong: exec answers a
next state in which the update is under way no more; the gong's value is value + operand modulo 2^64 for add, the
operand for set, the unsigned maximum for max, and unchanged for arm and disarm; its chime slot is empty if it was
disarmed or its threshold holds, and otherwise holds the arm just made or the one before; every other gong is as
before. A wait for ge holds exactly when value >= operand, one for eq exactly when value = operand. Completes by its
own effect (exec = next): gongUpdatePerformed. -/
def Obligations.GongFunctions : Prop :=
  (∀ (s : State) (i : Nat) (u : GongUpd),
    let x := gongOf s.dev u.gong
    s.dev.gg.upd[i]? = some u → updReady s.dev u = true → whoDead s.dev u.who (gongCd u.gong) = false →
    ∃ e, Completes (.gongUpdatePerformed i) s e ∧ e.gg.upd = s.dev.gg.upd.eraseIdx i ∧
      (∀ g, g ≠ u.gong → gongOf e g = gongOf s.dev g) ∧
      let v := match u.fn with
        | .add => BitVec.ofNat 64 (x.value.toNat + u.operand.toNat)
        | .set => u.operand
        | .max => BitVec.ofNat 64 (max x.value.toNat u.operand.toNat)
        | _ => x.value
      let a := match u.fn with
        | .arm entry => some (u.operand, entry)
        | .disarm => none
        | _ => x.arm
      (gongOf e u.gong).value = v ∧
        (gongOf e u.gong).arm = a.filter fun z => decide (v.toNat < z.1.toNat)) ∧
  ∀ (v : Word64) (w : Waiter), waitHolds v w = true ↔ if w.eq then v = w.operand else w.operand.toNat ≤ v.toNat

/-- O18. GONG_WAIT_ARRIVAL, with no earlier update of its issuer to the gong unit under way, releases a wait whose
condition holds (a stream's retires, a path becomes ready) and else lets it take an entry R290 allows. A host store to
an operation of a fitted gong sends the update at system scope, and waits while a FENCE holds it behind an open cache-
block operation; a host load returns the value, from any of the three operations, and zero for any other access.
CHIME_MESSAGE_WRITE moves the message that is due to those written (one to a core under update is lost). A stream
fence waits, and retires once the queue's moves and updates are done. Completes by its own effect (exec = next):
chimeMessageWrite, fenceD, fenceS, streamFenceRetire, gongWaitArrival, hostGongStoreSet, hostGongStoreAdd,
hostGongStoreMax, hostGongLoad. -/
def Obligations.GongWaitsAndHost : Prop :=
  ∀ (s : State),
    let d := s.dev
    (∀ (i : Nat) (w : Waiter), d.gg.wait[i]? = some w → w.arrived = false → updateAhead d w = false → whoDead d w.who (gongCd w.gong) = false →
      (waitHolds (gongOf d w.gong).value w = true → waitFree d w = true →
        Completes (.gongWaitArrival i) s (releaseWait d w)) ∧
      (waitHolds (gongOf d w.gong).value w = false →
        Completes (.gongWaitArrival i) s { d with gg := { d.gg with wait := d.gg.wait.map fun v =>
          if v = w then { w with arrived := true, entry := entryFor (dropWait d w) w } else v } })) ∧
    (∀ (i : Nat → Nat → Word64 → Option Nat → Instr) (op : Nat) (fn : GongFn) (g : Nat) (v : Word64) (after : Option Nat),
      (i, op, fn) ∈ [(Instr.hostGongStoreSet, 0, GongFn.set), (Instr.hostGongStoreAdd, 1, GongFn.add),
        (Instr.hostGongStoreMax, 2, GongFn.max)] →
      g < 2 ^ 17 → cdFitted d.variant (gongCd g) = true →
      Completes (i (0x300000000000 + 64 * g + 8 * op) 8 v after) s (if heldByCbo d after then d else
        { d with gg := { d.gg with upd := d.gg.upd ++ [⟨g, fn, v, 3, .host, 0⟩] } })) ∧
    (∀ core g op fenced, g < 2 ^ 17 → op < 3 → (fenced && cboOpen d core) = false →
      Completes (.hostGongLoad core (0x300000000000 + 64 * g + 8 * op) 8 fenced) s
        (hostSees d (.value core (if cdFitted d.variant (gongCd g) then (gongOf d g).value.toNat else 0) false))) ∧
    (∀ core addr n, n ≠ 8 ∨ addr % 8 ≠ 0 → Completes (.hostGongLoad core addr n false) s (hostSees d (.value core 0 false))) ∧
    (∀ i m, d.gg.chimeDue[i]? = some m → Completes (.chimeMessageWrite i) s { d with gg := { d.gg with
      chimeDue := d.gg.chimeDue.eraseIdx i
      chimeOut := if coreUpdating d m.hart then d.gg.chimeOut else d.gg.chimeOut ++ [m] } }) ∧
    (∀ i scope q w imms, (i, scope) ∈ [(Instr.fenceD (.stream q), 2), (Instr.fenceS (.stream q), 3)] →
      Starts d q (.fence scope) w imms →
      Completes i s (started d q w (setQueue d q { queueOf d q with wait := .fence, fenceSys := scope == 3 }))) ∧
    ∀ q, (queueOf d q).wait = .fence → (queueOf d q).state = .run → streamFenceDone d q = true →
      Completes (.streamFenceRetire q) s (retireInstr d q 1)

/-- O19. A stream that starts ctl.nop retires it. ctl.complete with an aligned address that translates to the far tier or
scratch of its partition writes the 32-byte record, clears the accumulator, counts one in seq, raises the queue's
chime if asked, and retires; any other address is refused with STATE. cfg.set of a permitted register stores the
masked bits and retires; it names absent hardware: ABSENT; another partition's register, a convoy opened on another
partition's channel or a refused value: STATE; Q.DOORBELL counts as a doorbell write by a stream. cfg.fence holds the
queue and retires when its writes are applied. blk.launch, once the updates that its queue posted have been performed,
starts to place its blocks. A word that is no stream instruction holds the queue with reason ILLEGAL. Completes by its
own effect (exec = next): ctlNop, ctlComplete, cfgSet, cfgFence, cfgFenceRetire, blkLaunch, reservedOpcode. -/
def Obligations.StreamControl : Prop :=
  ∀ (s : State) (q : Nat) (w : Word64) (imms : List Word64),
    let d := s.dev
    let n := 1 + wExt w
    let done := fun e => started d q w e
    (Starts d q .ctlNop w imms → Completes (.ctlNop q) s (done (retireInstr d q n))) ∧
    (Starts d q .ctlComplete w imms →
      let va := (imms.headD 0).toNat
      (va % 32 ≠ 0 → Completes (.ctlComplete q) s (done (refuseState d q n))) ∧
      ∀ e, va % 32 = 0 →
        (∀ c st, translate d (.stream (queueCd q)) (queueSpace d q) (va % vaMod) .write = (e, .cause c st) →
          Completes (.ctlComplete q) s (done (refuseState e q n))) ∧
        ∀ pa, translate d (.stream (queueCd q)) (queueSpace d q) (va % vaMod) .write = (e, .ok pa) →
          (recordTarget e q pa = false → Completes (.ctlComplete q) s (done (refuseState e q n))) ∧
          (recordTarget e q pa = true →
            let f := writeAt e pa (completionBytes e q (fld w 42 42)) false
            let f := setQueue f q { queueOf f q with accum := 0, seq := (queueOf f q).seq + 1 }
            Completes (.ctlComplete q) s (done (retireInstr (if bit w 0 then raiseChime f q else f) q n)))) ∧
    (Starts d q .cfgSet w imms →
      let off := fld w 31 0
      let value : Word32 := (imms.headD 0).setWidth 32
      let mask : Word32 := ((imms.headD 0) >>> 32).setWidth 32
      let a := attempt d off value mask
      ∀ keep : Word32,
      (writeAbsent d a = true → Completes (.cfgSet q keep) s (done (retireWith d q n stAbsent))) ∧
      (writeAbsent d a = false →
        (qPart d q ≠ 0 → regOwnedBy d off (qPart d q) = false → Completes (.cfgSet q keep) s (done (refuseState d q n))) ∧
        ((qPart d q = 0 ∨ regOwnedBy d off (qPart d q) = true) → opensForeign d q a = true →
          Completes (.cfgSet q keep) s (done (refuseState d q n))) ∧
        ((qPart d q = 0 ∨ regOwnedBy d off (qPart d q) = true) → opensForeign d q a = false →
          (isDoorbell off = true →
            Completes (.cfgSet q keep) s (done (retireInstr (doorbell d (offQueue off) .stream (fld value 15 0)) q n))) ∧
          (isDoorbell off = false →
            ((regRetired d off || writeRefused d a) = true → Completes (.cfgSet q keep) s (done (refuseState d q n))) ∧
            ((regRetired d off || writeRefused d a) = false → ∀ row, regRow? off = some row →
              let bits := mask &&& BitVec.ofNat 32 (row.rwb ||| row.rov)
              let e := storeReg d off value (mask &&& ~~~ (keep &&& clearable off))
              Completes (.cfgSet q keep) s (done (retireInstr (if bits = 0 then e else
                setQueue e q { queueOf e q with cfg := (queueOf e q).cfg ++ [⟨off, bits⟩] }) q n))))))) ∧
    (Starts d q .cfgFence w imms →
      Completes (.cfgFence q) s (done (setQueue d q { queueOf d q with state := .wait, wait := .cfgFence }))) ∧
    ((queueOf d q).wait = .cfgFence → (queueOf d q).state = .wait → (queueOf d q).cfg.all (cfgApplied d) = true →
      Completes (.cfgFenceRetire q) s (retireInstr (setQueue d q { queueOf d q with cfg := [] }) q 1)) ∧
    (Starts d q .launch w imms → holdsNew d = false → postedUpdates d q = false → cdFitted d.variant (gongCd (launchOf d q w imms).gong) = true →
      let l := launchOf d q w imms
      let e := setDisp d (queueCd q) { dispOf d (queueCd q) with nextLaunch := (dispOf d (queueCd q)).nextLaunch + 1 }
      (l.fixed = true → (∃ t ∈ namedTiles l, mayName d q t = false) →
        Completes (.blkLaunch q) s (done (refuseState d q n))) ∧
      ((l.fixed = true → ∀ t ∈ namedTiles l, mayName d q t = true) →
        Completes (.blkLaunch q) s (done (setQueue e q { queueOf e q with wait := .launch, launch := some l })))) ∧
    (canStart d q = true → streamWord (queueOf d q) = none →
      Completes (.reservedOpcode (.stream q)) s (holdQueue d q 4)) ∧
    ∀ (r : PathRef) (g₀ g : Group) (p₀ p : Path) (b : Block),
      let x := tileOf d r.cd r.tile
      groupAt x r.slot = some g₀ → pathOf g₀ r.lane = some p₀ → blockOf x g₀.blk = some b → mayIssue d r.cd x b = true →
      fetched x b p₀.pc = .word w → decodeThread w = none → issuingPath x g₀ r.slot w p₀ = some (g, p) →
      Completes (.reservedOpcode (.thread r)) s (blockFault d r.cd r.tile b.id r.slot (leader p) p.pc stIllegal none)

/-- O20. RECORD_READ and RECORD_REREAD: for a queue that wants a record, one sealed with the generation after the last
fetched is taken in (its words, position 1, that generation, the line after it); an unsealed one is read again, and
after its ninth read the queue is HELD with TORN, or POISON if it was poisoned. Q_DOORBELL from the queue's producer:
a count ahead by less than 0x8000 is accepted, an EMPTY queue goes to RUN and an idle package runs; a count equal to
the records fetched makes a queue with none in hand EMPTY, and a count behind is refused with f_db_stale; a source
that is no producer is refused with a flag. Q.ACTION: hold goes to HELD with reason HOST; flush makes fetched and
retired the doorbell count, empties the record in hand and goes to EMPTY; resume sends a HELD queue on; skip retires
the refused instruction; a bit is taken by its command, flush before hold before resume before skip, and an action
that a management write brought is taken the same way. Completes by its own effect (exec = next): qDoorbell,
recordRead, recordReread, qResume, qSkip, qHold, qFlush. -/
def Obligations.StreamRecordsAndActions : Prop :=
  ∀ (s : State) (q : Nat),
    let d := s.dev
    let x := queueOf d q
    (∀ (i : Nat → Instr) (first noToken : Bool),
      (i, first) ∈ [((Instr.recordRead · noToken), true), (Instr.recordReread, false)] → wantsRecord x = true → (x.reads == 0) = first →
      let z := flagIf (first && noToken && qClass d q == 0) d (arbOff (queueCd q)) 0
      let e := fillLines z (recordLines z q)
      let r := readRecord e q x.line
      let gen := (x.fetched + 1) % 0x10000
      (sealed r.1 r.2 gen = true → 16 ≤ r.1.length →
        ∃ f, Completes (i q) s f ∧
          queueOf f q = (let y := { x with
            fetched := gen, gen := gen, words := r.1, pos := 1, lines := r.1.length / 8, reads := 0
            line := (x.line + r.1.length / 8) % ringLines e q }
            if r.1.length - 2 < 1 then recordDone y else y)) ∧
      (sealed r.1 r.2 gen = false → x.reads < 8 →
        Completes (i q) s (setQueue e q { x with reads := x.reads + 1 })) ∧
      (sealed r.1 r.2 gen = false → x.reads = 8 →
        Completes (i q) s (holdQueue (setQueue e q { x with reads := 0 }) q (if r.2 then 3 else 2)))) ∧
    (∀ count after, count < 0x10000 → heldByCbo d after = false → cdFitted d.variant (queueCd q) = true →
      (qProducer d q ≠ 0 → Completes (.qDoorbell q count after) s (setFlag d (qOff q 5) 21)) ∧
      (qProducer d q = 0 → x.state ≠ .disabled →
        let ahead := (count + 0x10000 - x.fetched) % 0x10000
        (0 < ahead → ahead < 0x8000 → Completes (.qDoorbell q count after) s (setQueue
          (if x.state = .empty ∨ x.state = .run then workArrives d else d) q { x with
          count := count
          state := if x.state = .empty then .run else x.state
          before := if x.before = .empty then .run else x.before })) ∧
        (ahead = 0 → x.words ≠ [] → Completes (.qDoorbell q count after) s (setQueue d q { x with count := count })) ∧
        (ahead = 0 → x.words = [] → Completes (.qDoorbell q count after) s (setQueue d q { x with
          count := count, reads := 0
          state := if x.state = .run then .empty else x.state
          before := if x.before = .run then .empty else x.before })) ∧
        (0x8000 ≤ ahead → Completes (.qDoorbell q count after) s (setFlag d (qOff q 5) 20)))) ∧
    (actionReady x = true → let d := readyAction d q
      (actionBit d q 3 = true → (dispOf d (queueCd q)).state = 0 → ∃ e, Completes (.qFlush q) s e ∧
        queueOf e q = { x with
          fetched := x.count, retired := x.count, gen := x.count, words := [], pos := 0, reads := 0, wait := .none
          launch := none, state := .empty
          line := regFld (takeAction d q 8) (qOff q 6) 31 16 }) ∧
      (actionBit d q 3 = false → actionBit d q 2 = true →
        Completes (.qHold q) s (holdQueue (takeAction d q 7) q 5)) ∧
      (actionBit d q 3 = false → actionBit d q 2 = false →
        (actionBit d q 0 = true → x.state = .held → Completes (.qResume q) s
          (wakeQueue (setQueue (takeAction d q 1) q { x with reads := 0 }) q)) ∧
        (actionBit d q 1 = true → x.state = .held → x.reason = 1 ∨ x.reason = 4 → x.words ≠ [] →
          Completes (.qSkip q) s (wakeQueue (retireInstr (setQueue (takeAction d q 2) q { x with state := .run }) q
            (1 + wExt (x.words.getD x.pos 0))) q))))

/-- O21. BLOCK_PLACEMENT puts the block on the named tile (FIXED) or on a qualifying tile with the most free slots, lowest
id among equals (ANY), in the lowest free slots, and the launch retires with its last block. BLOCK_START gives every
lane l of group i t0 = 32 i + l and t1 = l, the group u0 to u3 of R120, one path of all lanes at word 0. BLOCK_END
frees its slots, adds its status to its queue's accumulator, and then sends an add of 1 to its end gong.
BLOCK_WATCHDOG_EXPIRY faults a started block of a tile that is clocked with BARRIER_STRANDED. INSTRUCTION_FETCH puts
the translated line, or its failure, in the instruction cache, with what the line holds or, where it was written while
the launch ran, an earlier content. Completes by its own effect (exec = next): blockPlacement, blockStart, blockEnd,
blockWatchdogExpiry, instructionFetch. -/
def Obligations.BlockLife : Prop :=
  (∀ (s : State) (q i t : Nat) (l : Launch),
    let d := s.dev
    let c := queueCd q
    (queueOf d q).launch = some l → (queueOf d q).state = .run → i < l.blocks → isPlaced l i = false →
    tileQualifies d q t l.groups = true →
    (l.fixed = true → t = (l.first + i * l.stride) % 180) →
    (l.fixed = false → t < 180 ∧ ∀ u < 180, tileQualifies d q u l.groups = true →
      (freeSlots (tileOf d c u)).length ≤ (freeSlots (tileOf d c t)).length ∧
      ((freeSlots (tileOf d c u)).length = (freeSlots (tileOf d c t)).length → t ≤ u)) →
    let e := placeBlock d q t i l
    let m := markPlaced l i
    (m.next < l.blocks → Completes (.blockPlacement q i) s (setQueue e q { queueOf d q with launch := some m })) ∧
      (l.blocks ≤ m.next → Completes (.blockPlacement q i) s
        (retireInstr (setQueue e q { queueOf d q with launch := none }) q 4)) ∧
      ∃ b, (tileOf e c t).blocks = (tileOf d c t).blocks ++ [b] ∧ b.queue = q ∧ b.index = i ∧ b.count = l.blocks ∧
        b.arg = l.arg ∧ b.gong = l.gong ∧ b.started = false ∧ b.faulted = false ∧ b.status = 0 ∧
        ∀ k < l.groups, ∃ g, groupAt (tileOf e c t) ((freeSlots (tileOf d c t)).getD k 0) = some g ∧
          g.blk = b.id ∧ g.index = k) ∧
  (∀ (s : State) (cd tile blk slot l : Nat) (b : Block) (g : Group),
    blockOf (tileOf s.dev cd tile) blk = some b → b.started = false →
    groupAt (tileOf s.dev cd tile) slot = some g → g.blk = blk → l < 32 →
    ∃ e h, Completes (.blockStart cd tile blk) s e ∧ groupAt (tileOf e cd tile) slot = some h ∧
      treg (threadAt h l) 0 = BitVec.ofNat 32 (32 * g.index + l) ∧ treg (threadAt h l) 1 = BitVec.ofNat 32 l ∧
      (∀ n, 2 ≤ n → n < 64 → treg (threadAt h l) n = 0) ∧ (threadAt h l).p = 0 ∧
      ureg h 0 = b.arg ∧ ureg h 1 = BitVec.ofNat 64 (b.index + b.count * 2 ^ 32) ∧
      ureg h 2 = BitVec.ofNat 64 (tile + cd * 2 ^ 8 + b.part * 2 ^ 10 + b.groups * 2 ^ 14 + g.index * 2 ^ 18) ∧
      ureg h 3 = BitVec.ofNat 64 b.queue ∧
      h.paths = [⟨BitVec.allOnes 32, 0, [], .ready⟩] ∧
      blockOf (tileOf e cd tile) blk = some { b with started := true }) ∧
  (∀ (s : State) (cd tile blk : Nat) (b : Block),
    blockOf (tileOf s.dev cd tile) blk = some b → mayEnd s.dev cd tile b = true →
    ∃ e f, Completes (.blockEnd cd tile blk) s { e with gg := { e.gg with
        upd := s.dev.gg.upd ++ [⟨b.gong, .add, 1, 2, .blockEnd, 0⟩] } } ∧
      e = accumulate f b.queue b.status ∧ f.gg.upd = s.dev.gg.upd ∧
      (tileOf f cd tile).blocks = (tileOf s.dev cd tile).blocks.filter (fun z => z.id != blk) ∧
      ∀ slot g, groupAt (tileOf f cd tile) slot = some g → g.blk ≠ blk) ∧
  (∀ (s : State) (cd tile blk : Nat) (b : Block),
    blockOf (tileOf s.dev cd tile) blk = some b → b.started = true → mayIssue s.dev cd (tileOf s.dev cd tile) b = true →
    blockLive (tileOf s.dev cd tile) blk = true →
    let z := strandedAt (tileOf s.dev cd tile) blk
    Completes (.blockWatchdogExpiry cd tile blk) s
      (setFlag (blockFault s.dev cd tile blk z.1 z.2.1 z.2.2 stStranded none) (tgOff cd tile 6) 1)) ∧
  ∀ (s : State) (r : PathRef) (k : Nat) (seen : Option Line) (g : Group) (p : Path) (b : Block) (e : Dev),
    let x := tileOf s.dev r.cd r.tile
    let va := wordVa b (p.pc + k) / 64 * 64
    groupAt x r.slot = some g → pathOf g r.lane = some p → blockOf x g.blk = some b → b.faulted = false → k ≤ 3 →
    (∀ l ∈ x.icache, l.space = b.space → l.va ≠ va) →
    (∀ c st, translate s.dev (.tile r.cd r.tile) b.space va .fetch = (e, .cause c st) →
      Completes (.instructionFetch r k seen) s (setTile e r.cd r.tile { tileOf e r.cd r.tile with
        icache := (⟨b.space, va, 0, stXlat⟩ :: (tileOf e r.cd r.tile).icache).take 512 })) ∧
    ∀ pa, translate s.dev (.tile r.cd r.tile) b.space va .fetch = (e, .ok pa) →
      let f := fillLines e [pa / 64]
      let shows := fun (data : Line) => Completes (.instructionFetch r k seen) s (setTile f r.cd r.tile { tileOf f r.cd r.tile with
        icache := (⟨b.space, va, data, fetchStatus f b.part pa⟩ :: (tileOf f r.cd r.tile).icache).take 512 })
      (∀ data, seen = some data → heldBefore f r.cd b.launch (pa / 64) data = true → shows data) ∧
      ((∀ data, seen = some data → heldBefore f r.cd b.launch (pa / 64) data = false) → shows (lineAt f (pa / 64)).1)

/-- O22. drv.move* and drv.fill by a thread whose leader executes it, or by a stream, put one move at the end of a drover
queue that has room (a local descriptor is read at issue). DRV_DESCRIPTOR_FETCH reads the descriptor of the first
queued move. DRV_MOVE_START of a well-formed local move whose gong and bytes all pass moves it (a reduction goes to
its homes), and no byte of memory outside its destination pieces changes but as the accesses of its source lines at
their homes change it; a malformed descriptor ends it with ILLEGAL before any byte moves. DRV_MOVE_COMPLETE adds its
status to its queue's accumulator, removes it, and adds 1 to its gong if that passed. Completes by its own effect
(exec = next): drvMove, drvFill, drvDescriptorFetch, drvMoveStart, drvMoveComplete. -/
def Obligations.DroverMoves : Prop :=
  (∀ (s : State) (i : Issuer → Instr) (fill : Bool),
    (i, fill) ∈ [(Instr.drvMove, false), (Instr.drvFill, true)] →
    let d := s.dev
    (∀ (r : PathRef) (g : Group) (p : Path) (b : Block) (w : Word64) (imms : List Word64),
      let key := tileDrover r.cd r.tile
      let at_ := issuedDev d r g p w
      let ureg_ := ureg g (fld w 46 42)
      let mk := fun addr words => newMove fill w addr words b.cls b.queue b.part b.space (some (r.cd, r.tile))
        ((tileOf d r.cd r.tile).ord + 1)
      let ends := fun e => Completes (i (.thread r)) s (settleSlot e r.cd r.tile r.slot)
      Issues d r g p b w (.drv fill) imms → LeaderGoes w g p → drvQueued (droverOf d key) < 16 →
      (bit w 47 = false → ends (pushMove at_ key (mk (some ((imms.headD 0).toNat % vaMod)) []))) ∧
      (bit w 47 = true → upoison g (fld w 46 42) = false →
        (ureg_.toNat % 64 = 0 → ureg_.toNat < tileBytes →
          let pa := tilePa r.cd r.tile ureg_.toNat
          poisonAt d (pa / 64) = false →
          ends (pushMove at_ key (mk none ((List.range 8).map fun j => BitVec.ofNat 64 (valAt d (pa + 8 * j) 8))))) ∧
        (ureg_.toNat % 64 ≠ 0 → ends (blockFault at_ r.cd r.tile b.id r.slot (leader p) p.pc stIllegal none)))) ∧
    ∀ (q : Nat) (w : Word64) (imms : List Word64),
      Starts d q (.drv fill) w imms → holdsNew d = false → drvQueued (droverOf d (streamDrover (queueCd q))) < 16 →
      Completes (i (.stream q)) s (started d q w (retireInstr (pushMove d (streamDrover (queueCd q))
        (newMove fill w (some ((imms.headD 0).toNat % vaMod)) [] (qClass d q) q (qPart d q) (queueSpace d q) none 0))
        q (1 + wExt w)))) ∧
  (∀ (s : State) (drover a : Nat) (m : Move) (e : Dev) (pas : List (Nat × Nat)),
    let x := droverOf s.dev drover
    let f := readLines e [] (pas.map fun z => z.1 / 64)
    x.moves.find? (fun m => m.phase == .queued) = some m → drvInFlight x < drvCap drover → m.addr = some a →
    drvRange s.dev (moveSel drover m) m.space m.part .read (rangeLines a 64) [] = (e, .inr pas) →
    (∀ z ∈ pas, poisonAt f (z.1 / 64) = false) →
    Completes (.drvDescriptorFetch drover []) s (updMove f ⟨drover, m.id⟩ fun v => { v with
      phase := .read
      words := (List.range 8).map fun i => BitVec.ofNat 64 (leNat (((gather f pas).drop (8 * i)).take 8)) })) ∧
  (∀ (s : State) (drover id : Nat) (m : Move) (e : Dev),
    let k : MoveId := ⟨drover, id⟩
    let c := descOf m
    moveOf s.dev k = some m → m.phase = .read → moveGong s.dev (moveSel drover m) m c = (e, some 0) →
    (descOk m = false → Completes (.drvMoveStart drover id []) s
      (endMove (updMove e k fun m => { m with gongOk := c.gv }) k stIllegal 0 none)) ∧
    ∀ f ps, descOk m = true → c.dsp ≠ 2 → (m.fill = false → c.ssp ≠ 2) →
      checkPieces e (moveSel drover m) m c (movePieces m c) [] = (f, .inr ps) →
      let h := updMove (updMove f k fun m => { m with gongOk := c.gv }) k fun m => { m with touch := pieceUnits f ps }
      (c.red ≠ 0 → Completes (.drvMoveStart drover id []) s (moveReduce h k m c ps [])) ∧
      (c.red = 0 → Completes (.drvMoveStart drover id []) s (moveLocal h k m c ps []) ∧
        ∀ a, (∀ p ∈ ps, ∀ x, p.dst = some x → ¬ (x ≤ a ∧ a < x + p.n)) →
          byteAt (moveLocal h k m c ps []) a = byteAt (readLines f [] (ps.filterMap fun p => p.src.map (· / 64))) a)) ∧
  ∀ (s : State) (drover id : Nat) (m : Move),
    moveOf s.dev ⟨drover, id⟩ = some m → m.phase = .moved →
    ∃ e, Completes (.drvMoveComplete drover id) s e ∧
      (queueOf e m.queue).accum = (queueOf s.dev m.queue).accum ||| m.status ∧
      (droverOf e drover).moves = (droverOf s.dev drover).moves.filter (fun v => v.id != id) ∧
      e.gg.upd = s.dev.gg.upd ++ (if m.gongOk then [⟨(descOf m).gong, .add, 1, 2 + (descOf m).scope,
        if m.tile.isNone then Who.queue m.queue else .drover, 0⟩] else []) ∧
      e.mem = s.dev.mem

/-- O23. REGISTER_WRITE to a register that its unit has and that refuses nothing: exec answers a next state in which each
RW bit of the register has the written value at once and is not buffered, each W1C-S bit written 1 reads 0 unless
hardware sets it in the same A-cycle, every other bit reads as before; the RW-B bits are in the register's buffer with
the written value (a command bit written 0 is not), merged over what was buffered; every other register reads as
before. A write to an address that names no register changes nothing, nor does one that a FENCE holds behind a cache-
block operation still open. Completes by its own effect (exec = next): registerWrite. -/
def Obligations.RegisterWindow : Prop :=
  (∀ (s : State) (off : Nat) (value keep : Word32) (after : Option Nat) (row : RegRow),
    let d := s.dev
    let mask := windowMask off &&& ~~~ (cmdBits off &&& ~~~ value)
    let m := mask &&& ~~~ (keep &&& clearable off)
    let buf := BitVec.ofNat 32 (row.rwb ||| row.rov) &&& m
    regRow? off = some row → isDoorbell off = false → unitAbsent d off = false → regRetired d off = false →
    heldByCbo d after = false → writeAbsent d (attempt d off value mask) = false → writeRefused d (attempt d off value mask) = false →
    ∃ e, Completes (.registerWrite off value keep after) s e ∧
      (∀ i < 32, bit (regRaw e off) i =
        if row.w1c.testBit i && bit m i && bit value i then false
        else if row.rw.testBit i && bit m i then bit value i
        else bit (regRaw d off) i) ∧
      (∀ o, o ≠ off → regRaw e o = regRaw d o) ∧
      e.rg.votes = d.rg.votes ∧
      (row.pair = 0 → ∀ i < 32,
        bit (regBuf e off).mask i = (bit buf i || bit (regBuf d off).mask i) ∧
        bit (regBuf e off).value i = if bit buf i then bit value i else bit (regBuf d off).value i) ∧
      e = { d with rg := e.rg, gg := e.gg }) ∧
  ∀ (s : State) (off : Nat) (value keep : Word32) (after : Option Nat),
    (regRow? off = none ∧ isDoorbell off = false) ∨ heldByCbo s.dev after = true →
    Completes (.registerWrite off value keep after) s s.dev

/-- O24. Where the copies of a register agree, flipping voted bits of one copy leaves its applied value as it was.
VOTED_SCRUB in a powered package leaves the applied value of every register as it was; where the table of copies is in
its canonical form, each register whose copies differ gets its copies rewritten to agree and its disagreement count
raised by the number of bit positions found in disagreement, saturating at 0xFFFF; a register to which a boundary
application fell in the same P-cycle counts none. Completes by its own effect (exec = next): votedScrub. -/
def Obligations.VotedRegisters : Prop :=
  (∀ (d : Dev) (off copy : Nat) (bits : Word32), Sparse.get noVotes d.rg.votes off = {} →
    regVal (upset d off copy bits) off = regVal d off) ∧
  ∀ (s : State) (same : List Nat), powered s.dev = true → ∃ e, Completes (.votedScrub same []) s e ∧ (∀ off, regVal e off = regVal s.dev off) ∧
    (Sparse.wf noVotes s.dev.rg.votes = true → ∀ off v, (off, v) ∈ s.dev.rg.votes →
      let differ := (v.a ^^^ v.b) ||| (v.b ^^^ v.c)
      differ ≠ 0 → Sparse.get noVotes e.rg.votes off = {} ∧
        (off ∈ same → Sparse.get noDis e.rg.dis off = Sparse.get noDis s.dev.rg.dis off) ∧
        (off ∉ same →
          (Sparse.get noDis e.rg.dis off).count = min 0xFFFF ((Sparse.get noDis s.dev.rg.dis off).count + popcount differ)))

/-- O25. BUFFERED_WRITE_APPLY: where one register of the instance is buffered and ready and no management write waits, its
applicable bits take the buffered values, the others stay, and those bits leave the buffer (registers with further
consequences aside). QUEUE_BOUNDARY applies the buffers, then enables a DISABLED queue with a permitted ring (its
generations and positions at zero), refuses another ring with STATE, and disables a queue whose enable is 0.
TILE_BLOCK_BOUNDARY applies the tile's buffers and split. TILE_PARTITION_MOVE, where the partition changes, zeroes the
tile's memory and state and leaves every other byte. Completes by its own effect (exec = next): bufferedWriteApply,
queueBoundary, tileBlockBoundary, tilePartitionMove. -/
def Obligations.NaturalBoundaries : Prop :=
  (∀ (s : State) (die unit inst off : Nat),
    let d := s.dev
    let b := regBuf d off
    let bits := b.mask &&& genericBits d off
    bufferedIn d (offInstance (regOff die unit inst 0)) = [off] → bufReady d off = true → bits ≠ 0 →
    (∀ w ∈ d.rg.mgmt, offInstance w.off ≠ offInstance (regOff die unit inst 0)) →
    offInstance off = offInstance (regOff die unit inst 0) → offReg off < 0x1FF → off % 4 = 0 →
    offUnit off ∉ [3, 0x11, 0x12, 0x19, 0x27, 0x2A] → Sparse.get noVotes d.rg.votes off = {} →
    ∃ e, Completes (.bufferedWriteApply die unit inst) s e ∧
      regVal e off = mergeMask (regVal d off) b.value bits ∧
      (regBuf e off).mask = b.mask &&& ~~~ genericBits d off ∧
      (∀ o, o ≠ off → o ≠ genOff off → regVal e o = regVal d o)) ∧
  (∀ (s : State) (q : Nat),
    let d := s.dev
    let st := (queueOf d q).state
    let e := boundary (boundary d (offInstance (qOff q 0)) (queueBits q))
      (offInstance (regOff (queueCd q) 0x17 (q % 1024) 0)) (queueBits q)
    cdFitted d.variant (queueCd q) = true → qPart e q = qPart d q →
    (st = .disabled → qEnable e q = true → ringOk e q = true → (dispOf e (queueCd q)).state = 0 →
      ∃ f, Completes (.queueBoundary q) s f ∧ f = { e with qs := f.qs } ∧ queueOf f q = { queueOf e q with
        state := .empty, fetched := 0, retired := 0, count := 0, line := 0, seq := 0, words := [], pos := 0, reads := 0 } ∧
        ∀ p, p ≠ q → queueOf f p = queueOf e p) ∧
    (st = .disabled → qEnable e q = true → ringOk e q = false →
      Completes (.queueBoundary q) s (setFlag (accumulate (setRegFld e (qOff q 2) 0 0 0) q stState) (qOff q 5) 16)) ∧
    (st = .empty ∨ st = .held → qEnable e q = false →
      Completes (.queueBoundary q) s (setQueue e q { queueOf e q with
        state := .disabled, words := [], pos := 0, reads := 0, wait := .none, launch := none, cfg := [] }))) ∧
  ∀ (s : State) (cd tile : Nat),
    let d := s.dev
    cdFitted d.variant cd = true → tile < 180 →
    ((tileOf d cd tile).blocks = [] →
      let e := loadMgmt (boundary d (offInstance (tgOff cd tile 0)) tileBits) (fnOff cd) 0x10
      (splitBuffered e cd = none → Completes (.tileBlockBoundary cd tile) s e) ∧
      ∀ v, splitBuffered e cd = some v → ∃ f, Completes (.tileBlockBoundary cd tile) s f ∧
        tileOf f cd tile = { tileOf e cd tile with split := v }) ∧
    (tileFree d cd tile = true → (tileOf d cd tile).retired = false →
      let e := boundary d (offInstance (tgOff cd tile 0)) tilePartBits
      (tilePart e cd tile = tilePart d cd tile → Completes (.tilePartitionMove cd tile) s e) ∧
      (tilePart e cd tile ≠ tilePart d cd tile → ∃ f, Completes (.tilePartitionMove cd tile) s f ∧
        tileOf f cd tile = clearedTile (tileOf e cd tile) ∧
        ∀ a, rawByte f a = if tilePa cd tile 0 ≤ a ∧ a < tilePa cd tile 0 + 0x200000 then 0 else rawByte e a))

/-- O26. READ_TO_CLEAR of a register with RC bits returns its value and clears those bits, a companion read returns
pending, last bit and count and clears the count, and an address that names no register reads zero.
HOST_WINDOW_ACCESS: a load of bytes of tile windows and of slices in scratch mode returns them and changes no memory,
a store writes them, an atomic to them and an access with a byte in a hole, a retired tile or a slice not in scratch
mode raise an access fault (and drop the core's reservation), and an absent CD and unfitted far tier read zero and
take no store. An access that a FENCE orders after cache-block operations is stated for when they have completed.
HOST_PRIVATE_ACCESS: aligned loads of the ROM and of the flash window return their bytes, of the PUF helper and
operator regions zero; a store or an atomic, a misaligned load and a hole raise an access fault. Completes by its own
effect (exec = next): readToClear, hostWindowAccess, hostPrivateAccess. -/
def Obligations.HostAccesses : Prop :=
  ∀ (s : State) (core : Nat) (fenced : Bool),
    let d := s.dev
    let sees := fun (i : Instr) (h : HostResult) => Completes i s (hostSees d h)
    let faults := fun (i : Instr) => ∃ e, Completes i s e ∧ e.coh.out = d.coh.out ++ [.fault core] ∧
      Sparse.get noLr e.coh.lr core = none ∧ e = { d with coh := { d.coh with out := e.coh.out, lr := e.coh.lr } }
    (fenced && cboOpen d core) = false →
    (∀ off, unitAbsent d off = false → regRetired d off = false → offReg off < 0x200 → rcBits off ≠ 0 →
      ∃ e, Completes (.readToClear core off fenced) s e ∧
        e.coh.out = d.coh.out ++ [.value core (regVal d off).toNat false] ∧
        regRaw e off = regVal d off &&& ~~~ rcBits off ∧ ∀ o, o ≠ off → regRaw e o = regRaw d o) ∧
    (∀ off row, unitAbsent d off = false → regRetired d off = false → 0x200 ≤ offReg off → regRow? (off - 0x800) = some row →
      row.rwb ||| row.rov ≠ 0 →
      let x := Sparse.get noDis d.rg.dis (off - 0x800)
      let pend := companionPending d (off - 0x800)
      ∃ e, Completes (.readToClear core off fenced) s e ∧
        e.coh.out = d.coh.out ++ [.value core (BitVec.ofNat 32
          ((if pend then 1 else 0) + x.lastBit * 256 + x.count * 65536)).toNat false] ∧
        Sparse.get noDis e.rg.dis (off - 0x800) = { x with count := 0 } ∧ e.rg.val = d.rg.val) ∧
    (∀ off, 0x200 ≤ offReg off → regRow? (off - 0x800) = none → sees (.readToClear core off fenced) (.value core 0 false)) ∧
    (∀ pa n op ecc, 0 < n → n ≤ 8 →
      let kind := fun i => paKind d (pa + i)
      let open_ := fun k => (∃ c t, k = PaKind.tile c t ∧ tileRetired d c t = false) ∨
        ∃ c t, k = PaKind.scratch c t ∧ sliceMode d c t = 1
      let closed_ := fun k => k = PaKind.hole ∨ (∃ c t, k = PaKind.tile c t ∧ tileRetired d c t = true) ∨
        ∃ c t, k = PaKind.scratch c t ∧ sliceMode d c t ≠ 1
      ((∀ i < n, open_ (kind i)) →
        (op = .load → sees (.hostWindowAccess core pa n op fenced []) (.value core (valAt d pa n) (poisonIn d pa n))) ∧
        (∀ v, op = .store v → Completes (.hostWindowAccess core pa n op fenced ecc) s (writeAt d pa (leBytes n v) false)) ∧
        (op = .atomic → faults (.hostWindowAccess core pa n op fenced ecc))) ∧
      ((∃ i < n, closed_ (kind i)) → faults (.hostWindowAccess core pa n op fenced ecc)) ∧
      ((∀ i < n, kind i = .noCd ∨ kind i = .unfitted) →
        (op = .load → sees (.hostWindowAccess core pa n op fenced ecc) (.value core 0 false)) ∧
        (∀ v, op = .store v → Completes (.hostWindowAccess core pa n op fenced ecc) s d))) ∧
    ∀ pa n op, 0x400000000000 ≤ pa →
      (op ≠ .load → faults (.hostPrivateAccess core pa n op)) ∧
      (op = .load → n ∈ [1, 2, 4, 8] →
        (pa % n ≠ 0 → faults (.hostPrivateAccess core pa n op)) ∧
        (pa % n = 0 →
          (pa < 0x400000040000 → sees (.hostPrivateAccess core pa n op) (.value core
            (leNat ((List.range n).map fun i => Config.romByte (pa - 0x400000000000 + i))) false)) ∧
          (0x400010000000 ≤ pa → pa < 0x400014000000 → sees (.hostPrivateAccess core pa n op) (.value core
            (leNat ((List.range n).map fun i => let o := pa - 0x400010000000 + i
              if 0xA0000 ≤ o ∧ o < 0xC0000 then 0 else flashByte d o)) false)) ∧
          (0x400000040000 ≤ pa → (pa < 0x400010000000 ∨ 0x400014000000 ≤ pa) →
            faults (.hostPrivateAccess core pa n op))))

/-- O27. SECTOR_READ leaves storage as it is and, where an error is found, puts the sector among those to be rewritten,
poisoned where it is uncorrectable or was poisoned; SECTOR_REWRITE stores exactly that sector's 64 bytes and takes it
off. HOME_FILL brings a missing line home with its bytes and poison. PATROL_SCRUB in a powered package advances its
channel's position, REFRESH_WINDOW its mode of scrub; FT_SCRUB and COMMANDED_SCRUB_DONE start and end the commanded
scrub. FT_MAPOUT takes the victim frame out of the map and the channel to SOURCE; SHARE_COPY relocates one share
(poisoning it where it is lost); MAPOUT_DONE ends at MAPPED_OUT. CORRECTED_LINE_REWRITE and WELL_TILE_SCRUB act on
their line. A class M access that its budget holds sets f_m_budget and does nothing else. Completes by its own effect
(exec = next): correctedLineRewrite, homeFill, refreshWindow, sectorRead, sectorRewrite, patrolScrub, ftScrub,
commandedScrubDone, ftMapout, shareCopy, mapoutDone, wellTileScrub. -/
def Obligations.FarTierSectors : Prop :=
  ∀ (s : State),
    let d := s.dev
    (∀ line ondie found late noToken c l, farLine? d line = some (c, l) →
      Completes (.sectorRead line ondie found late noToken true) s (setFlag d (arbOff c) 1) ∧
      ∃ e, Completes (.sectorRead line ondie found late noToken false) s e ∧ e.mem.bytes = d.mem.bytes ∧
        (ftOf e c).rewr = if found = .none then (ftOf d c).rewr else
          addRewrite (ftOf d c).rewr ⟨line, rawLine d line, found == .two || sectorPoison d c line⟩) ∧
    (∀ line c l r, farLine? d line = some (c, l) → (ftOf d c).rewr.find? (fun r => r.line == line) = some r →
      ∃ e, Completes (.sectorRewrite line) s e ∧ (ftOf e c).rewr = (ftOf d c).rewr.filter (fun r => r.line != line) ∧
        (∀ i < 64, rawByte e (line * 64 + i) = lineByte r.data i) ∧ ∀ a, a / 64 ≠ line → rawByte e a = rawByte d a) ∧
    (∀ line ondie c l, farLine? d line = some (c, l) → (wellLine d line).valid = false → lineLost d line = false →
      sliceMode d c (homeSlice d c l) ≠ 2 →
      ∃ e, Completes (.homeFill line none ondie .none) s e ∧
        wellLine e line = { valid := true, dirty := false, poison := sectorPoison d c line, data := rawLine d line }) ∧
    (∀ cd chan ondie found, scrubMode d cd chan = false → chanState d cd chan = 0 → cdFitted d.variant cd = true →
      pwrState d ≠ 2 → powered d = true →
      let pos := Sparse.get chanUp (ftOf d cd).patrol chan
      Completes (.patrolScrub cd chan ondie found true) s (setFlag d (arbOff cd) 1) ∧
      ∃ e, Completes (.patrolScrub cd chan ondie found false) s e ∧ e.mem.bytes = d.mem.bytes ∧
        Sparse.get chanUp (ftOf e cd).patrol chan =
          if pos + 1 < shareSectors d.variant * ftCount d.variant then pos + 1 else 0) ∧
    (∀ cd chan, bit (regBuf d (fnOff cd)).mask 5 = true → chanState d cd chan < 3 → cdFitted d.variant cd = true →
      ∃ e, Completes (.refreshWindow cd chan) s e ∧ scrubMode e cd chan = bit (regBuf d (fnOff cd)).value 5) ∧
    (∀ cd, cmdPending d (ftOff cd 2) = true →
      let v := regVal (applyField d (ftOff cd 2) 0x3FFFFF) (ftOff cd 2)
      ∃ e, Completes (.ftScrub cd) s e ∧ (ftOf e cd).scrub = some (fld v 6 0, fld v 13 7, fld v 20 14)) ∧
    (∀ cd r, cd < 4 → (ftOf d cd).scrub = some r →
      ∃ e, Completes (.commandedScrubDone cd [] false) s e ∧ (ftOf e cd).scrub = none ∧ flag e (ftOff cd 8) 3 = true ∧
        e.mem.bytes = d.mem.bytes) ∧
    (∀ cd, cmdPending d (ftOff cd 1) = true →
      let e := applyField d (ftOff cd 1) 0x1FFFF
      let v := regVal e (ftOff cd 1)
      let f := setReg e (ftOff cd 1) (v &&& 0xFFFF)
      (mapoutOk f cd (fld v 6 0) (fld v 13 7) = false → Completes (.ftMapout cd) s (setFlag f (ftOff cd 8) 2)) ∧
      (mapoutOk f cd (fld v 6 0) (fld v 13 7) = true → ∃ h, Completes (.ftMapout cd) s h ∧
        (ftOf h cd).gone = fld v 13 7 :: (ftOf d cd).gone ∧ Sparse.get chanUp (ftOf h cd).chan (fld v 6 0) = 2 ∧
        (ftOf h cd).mapout.map (·.channel) = some (fld v 6 0) ∧
        ∀ ln, inFrame d cd (fld v 13 7) ln = true → wellLine h ln = {})) ∧
    (∀ cd found m share slot rest, (ftOf d cd).mapout = some m → m.left = (share, slot) :: rest →
      (m.fast = false → Completes (.shareCopy cd found true) s (setFlag d (arbOff cd) 1)) ∧
      ∃ e, Completes (.shareCopy cd found false) s e ∧ slotOf (ftOf e cd) share = slot ∧
        (ftOf e cd).mapout = some { m with left := rest } ∧
        (m.lost = false → e.mem.bytes = d.mem.bytes) ∧
        (m.lost = true → ∀ j < shareSectors d.variant, rawPoison e (shareLine d cd share j) = true)) ∧
    (∀ cd m, cd < 4 → (ftOf d cd).mapout = some m → m.left = [] →
      ∃ e, Completes (.mapoutDone cd) s e ∧ (ftOf e cd).mapout = none ∧
        Sparse.get chanUp (ftOf e cd).chan m.channel = 3 ∧ flag e (ftOff cd 8) 0 = true) ∧
    (∀ line, Completes (.correctedLineRewrite line) s { d with mem := { d.mem with rewr := d.mem.rewr.erase line } }) ∧
    ∀ line ecc,
      ((∀ c t, paKind d (line * 64) ≠ .tile c t) → Completes (.wellTileScrub line ecc) s (eccRead d line ecc)) ∧
      ∀ c t x, paKind d (line * 64) = .tile c t → pwrState d ≠ 2 → Sparse.find? d.tiles (tileKey c t) = some x →
        Completes (.wellTileScrub line ecc) s (if x.gated then d else eccRead d line ecc)

/-- O28. HOME_ATOMIC: where the line has no host copy, no open transaction and its turn has come, a thread's atomic on
clean data gives its lane the old value and leaves its result (integer, compare-and-swap or FP32 sum) at its place; a
reduce-write applies its elements to the line and is done. WELL_SHRINK_STEP and WELL_GROW_STEP start a step towards
the target where none runs, growing over a zeroed slice; BUCKET_TRANSFER, with no transaction open on the bucket,
writes its lines back, gives the bucket its new home, and ends the step with the last bucket. Completes by its own
effect (exec = next): homeAtomic, wellShrinkStep, wellGrowStep, bucketTransfer. -/
def Obligations.HomeOperations : Prop :=
  (∀ (s : State) (cd tile ord lane : Nat) (o : Outstanding) (a : LaneAcc) (c : Chunk) (rest : List Chunk) (aop : Nat),
    let d := s.dev
    let x := tileOf d cd tile
    let ln := c.pa / 64
    let n := szBytes o.sz
    x.out.find? (fun o => o.ord == ord) = some o → o.aop = some aop →
    o.parts.find? (fun a => a.lane == lane && a.done.isNone) = some a → a.chunks = c :: rest →
    earlierSameLine x o.slot ord lane [ln] = false →
    (∀ e ∈ x.stores, e.line = ln → ∀ b ∈ e.by_, ord ≤ b.ord) →
    (o.rel = true → relDone d cd tile o.slot o.scope ord o.lanes = true) → deadTo d cd ln = false → lineLost d ln = false →
    txnOn d ln = none → firstInLine d ln (.device [0, cd, tile, ord, lane]) = true → dirOf d ln = {} →
    (farLine? d ln).isSome = true → poisonAt (homeFill d ln) ln = false → a.poison = false → aop < 11 →
    (o.sz = 2 ∨ o.sz = 3) → c.pa % n = 0 →
    let old := valAt d c.pa n
    let sum := fpAdd f32 .even old (a.data.toNat % 2 ^ 32)
    ∃ e, Completes (.homeAtomic (.atomic cd tile ord lane) .none false) s e ∧
      tileOf e cd tile = { x with out := x.out.map fun q => if q.ord = ord then { q with parts := q.parts.map fun b =>
        if b.lane = lane then { b with done := some (BitVec.ofNat 64 old, false, aop == 0xA && sum.inv) } else b } else q } ∧
      valAt e c.pa n = (if aop = 0xA then sum.bits
        else atomicInt aop (8 * n) old (a.data.toNat % 2 ^ (8 * n)) (a.cmp.toNat % 2 ^ (8 * n))) % 2 ^ (8 * n) ∧
      ∀ b, (b < c.pa ∨ c.pa + n ≤ b) → byteAt e b = byteAt d b) ∧
  (∀ (s : State) (id : Nat) (r : RedWrite),
    let d := s.dev
    s.dev.reds.find? (fun r => r.id == id) = some r → txnOn d r.line = none →
    firstInLine d r.line (.device [1, id]) = true → dirOf d r.line = {} →
    let f := homeFill (unwait d r.line (.device [1, id])) r.line
    let z := redLine r.red (lineAt f r.line).1 r.data r.mask
    ((lineAt f r.line).2 = true → Completes (.homeAtomic (.reduce id) .none false) s
      (redDone (breakResv f r.line) r stPoison)) ∧
    ((lineAt f r.line).2 = false → Completes (.homeAtomic (.reduce id) .none false) s
      (redDone (countHome (putLine f r.line z.1 r.mask r.poison) r.line) r (z.2 ||| if r.poison then stPoison else 0)))) ∧
  ∀ (s : State) (cd : Nat),
    let d := s.dev
    let w := wellOf d cd
    let t := wellTarget d cd
    (cdFitted d.variant cd = true → w.step = .none → t < w.current →
      Completes (.wellShrinkStep cd) s (setWell d cd { w with
        step := .shrink, stepSlice := w.current - 1, left := bucketsAt d cd (w.current - 1), target := t })) ∧
    (cdFitted d.variant cd = true → w.step = .none → w.current < t → mayJoin d cd w.current = true →
      ∃ e, Completes (.wellGrowStep cd) s e ∧
        wellOf e cd = { w with step := .grow, stepSlice := w.current, left := 256 / (w.current + 1), target := t } ∧
        ∀ a, rawByte e a = if sliceBase cd w.current ≤ a ∧ a < sliceBase cd w.current + 0x800000 then 0 else rawByte d a) ∧
    ∀ b sl, nextTransfer d cd = some (b, sl) →
      (∀ t ∈ d.coh.txns, inBucket d cd b t.line = false ∧ ∀ v, t.victim = some v → inBucket d cd b v = false) →
      ∃ e, Completes (.bucketTransfer cd false) s e ∧ bucketHome e cd b = sl ∧
        (∀ ln, inBucket d cd b ln = true → (wellLine e ln).valid = false) ∧
        (1 < w.left → (wellOf e cd).left = w.left - 1 ∧ (wellOf e cd).step = w.step) ∧
        (w.left ≤ 1 → (wellOf e cd).step = .none ∧
          (wellOf e cd).current = if w.step = .shrink then w.stepSlice else w.stepSlice + 1)

/-- O29. L2_MISS: a load or fetch that hits and a store to E or M send nothing (the line comes into an L1, the store makes
it M); one to unfitted far tier reads zero or writes nothing; a miss that may be sent sends RdS, RdX, or Upg with the
store kept. L2_VICTIM drops a shared line silently and sends EvictClean for E and WB for O and M under a credit.
HART_AMO, HART_LR, HART_SC and the cbo instructions send Amo, Lr, Sc, Cln, Flu and Inv, an SC without a matching LR,
or after a trap, failing at once. Statements about accesses that no FENCE holds behind an open cache-block operation
and lines of a CD that is not down. Completes by its own effect (exec = next): l2Miss, l2Victim, hartAmo, hartLr,
hartSc, hartCboClean, hartCboFlush, hartCboInval. -/
def Obligations.CoreAccesses : Prop :=
  ∀ (s : State) (core line : Nat) (fenced : Bool),
    let d := s.dev
    let x := l2Of d core line
    let sent := fun (e : Dev) (k : ReqKind) store fetch =>
      { e with coh := { e.coh with
          mshr := e.coh.mshr ++ [⟨core, line, k, store, false, false, false, fetch⟩]
          net := e.coh.net ++ [⟨core, line, .req k (Sparse.get noSent e.coh.sent (line * 64 + core))⟩] } }
    let wb := fun (e : Dev) (b : MsgBody) clean =>
      { e with coh := { e.coh with
          wbs := e.coh.wbs ++ [⟨core, line, (homeOf d line).1, (homeOf d line).2, clean⟩]
          sent := Sparse.set noSent e.coh.sent (line * 64 + core) (if clean then 2 else 1)
          net := e.coh.net ++ [⟨core, line, b⟩] } }
    let gone := setL2 d core line {}
    let keep := if x.st = .m then L2State.e else .s
    (mshrOf d core line = none →
      (x.st = .s → Completes (.l2Victim core line) s gone) ∧
      (lineLost d line = false → hasCredit d core line = true →
        (x.st = .e → Completes (.l2Victim core line) s (wb gone .evictClean true)) ∧
        (x.st = .m ∨ x.st = .o → Completes (.l2Victim core line) s (wb gone (.wb x.data x.poison .i) false)))) ∧
    (∀ data mask trapped, trapped = true ∨ Sparse.get noLr d.coh.lr core ≠ some line →
      Completes (.hartSc core line data mask trapped fenced) s
        (hostSees (if trapped then setLr d core none else d) (.sc core false))) ∧
    ((fenced && cboOpen d core) = false →
      (∀ fetch, x.st ≠ .i → Completes (.l2Miss core line none fetch fenced) s (setL2 d core line
        (if fetch then { x with l1i := true } else { x with l1d := true }))) ∧
      (∀ st fetch, x.st = .m ∨ x.st = .e → Completes (.l2Miss core line (some st) fetch fenced) s
        (setL2 d core line { x with st := .m, data := mergeMask x.data st.1 (bitMask st.2), l1d := true })) ∧
      (paKind d (line * 64) = .unfitted → x.st = .i →
        (∀ fetch, Completes (.l2Miss core line none fetch fenced) s (hostSees d (.value core 0 false))) ∧
        ∀ st fetch, Completes (.l2Miss core line (some st) fetch fenced) s d) ∧
      (lineLost d line = false → maySend d core line = true →
        (x.st = .i → ∀ fetch, Completes (.l2Miss core line none fetch fenced) s (sent d .rdS none fetch) ∧
          ∀ st, Completes (.l2Miss core line (some st) fetch fenced) s (sent d .rdX (some st) fetch)) ∧
        (∀ st fetch, x.st = .s ∨ x.st = .o →
          Completes (.l2Miss core line (some st) fetch fenced) s (sent d .upg (some st) fetch)) ∧
        (∀ off sz op v, op < 9 → sz = 2 ∨ sz = 3 → off % 2 ^ sz = 0 → off < 64 →
          Completes (.hartAmo core line off sz op v fenced) s (sent d (.amo off sz op v) none false)) ∧
        (∀ off sz, sz = 2 ∨ sz = 3 → off % 2 ^ sz = 0 → off < 64 →
          Completes (.hartLr core line off sz fenced) s (sent (setLr d core (some line)) (.lr off sz) none false)) ∧
        (∀ data mask, Sparse.get noLr d.coh.lr core = some line →
          Completes (.hartSc core line data mask false fenced) s (sent d (.sc data mask) none false)) ∧
        (x.st = .i ∨ x.st = .s ∨ x.st = .e →
          Completes (.hartCboClean core line fenced) s (sent d .cln none false)) ∧
        (x.st = .m ∨ x.st = .o → hasCredit d core line = true → Completes (.hartCboClean core line fenced) s
          (sent (wb (setL2 d core line { x with st := keep }) (.wb x.data x.poison keep) false) .cln none false)) ∧
        (∀ i : Instr, i = .hartCboFlush core line fenced ∨ i = .hartCboInval core line true fenced →
          (x.st = .i → Completes i s (sent d .flu none false)) ∧
          (x.st = .s → Completes i s (sent gone .flu none false)) ∧
          (x.st = .e → hasCredit d core line = true → Completes i s (sent (wb gone .evictClean true) .flu none false)) ∧
          (x.st = .m ∨ x.st = .o → hasCredit d core line = true → Completes i s
            (sent (wb gone (.wb x.data x.poison .i) false) .flu none false))) ∧
        Completes (.hartCboInval core line false fenced) s (sent gone .inv none false)))

/-- O30. SNPS, SNPX, SNPINV, SNPRECALL and SNPCLEAN at a core that holds the line: the message is gone, the line keeps the
state of the table, an owner sends FwdData to the requester of SnpS or SnpX, a dirty line goes home as SnpData, and
else the acknowledgement of the table goes; a core that holds nothing answers InvAck, or RSP-GONE while a WB is under
way. DATA and FWDDATA grant the line to the waiting request, with the store made in a line granted E or M; COMP
completes it, AMODATA shows the hart its value, and WBACK returns the credit; a completed request leaves and sends
CompAck. Completes by its own effect (exec = next): snps, snpx, snpinv, snprecall, snpclean, comp, wback, data,
fwddata, amodata. -/
def Obligations.CoreReplies : Prop :=
  (∀ (s : State) (core line : Nat) (i : Nat → Nat → Instr) (k : FwdKind) (m : CohMsg) (req : Option Nat) (comp : Bool),
    let d := s.dev
    let x := l2Of d core line
    (i, k) ∈ [(Instr.snps, FwdKind.snpS), (Instr.snpx, .snpX), (Instr.snpinv, .snpInv), (Instr.snprecall, .snpRecall),
      (Instr.snpclean, .snpClean)] →
    findMsg d core line (fun b => match b with | .fwd q _ _ => q == k | _ => false) = some m → m.body = .fwd k req comp →
    (x.st = .i → Completes (i core line) s (sendMsg (dropMsg d m) core line
      (if k ≠ .snpInv ∧ (d.coh.wbs.any fun w => w.core == core && w.line == line && !w.clean) = true then .gone else .invAck))) ∧
    ∀ (keep : L2State) (grant : Option L2State) (reply : MsgBody),
      (k, x.st, keep, grant, reply) ∈ [
        (FwdKind.snpS, L2State.m, L2State.o, some L2State.s, MsgBody.snpAck .o), (.snpS, .o, .o, some .s, .snpAck .o),
        (.snpS, .e, .s, some .s, .snpAck .s), (.snpS, .s, .s, none, .invAck),
        (.snpX, .m, .i, some .m, .snpAck .i), (.snpX, .o, .i, some .m, .snpAck .i), (.snpX, .e, .i, some .m, .snpAck .i),
        (.snpX, .s, .i, none, .invAck),
        (.snpInv, .m, .i, none, .invAck), (.snpInv, .o, .i, none, .invAck), (.snpInv, .e, .i, none, .invAck),
        (.snpInv, .s, .i, none, .invAck),
        (.snpRecall, .m, .i, none, .snpData x.data x.poison), (.snpRecall, .o, .i, none, .snpData x.data x.poison),
        (.snpRecall, .e, .i, none, .invAck), (.snpRecall, .s, .i, none, .invAck),
        (.snpClean, .m, .e, none, .snpData x.data x.poison), (.snpClean, .o, .s, none, .snpData x.data x.poison),
        (.snpClean, .e, .e, none, .snpAck .e), (.snpClean, .s, .s, none, .snpAck .s)] →
      ∃ e, Completes (i core line) s e ∧
        l2Of e core line = (if keep = .i then {} else { x with st := keep }) ∧
        (∀ c l, l * 64 + c ≠ line * 64 + core → l2Of e c l = l2Of d c l) ∧
        e.coh.net = d.coh.net.erase m ++ (match grant, req with
          | some g, some n => [⟨n, line, .fwdData x.data g x.poison comp⟩]
          | _, _ => []) ++ [⟨core, line, reply⟩]) ∧
  (∀ (s : State) (core line : Nat) (i : Nat → Nat → Instr) (b : Line → L2State → Bool → Bool → MsgBody)
    (sel : MsgBody → Bool) (m : CohMsg) (q : Mshr) (x : Line) (g : L2State) (p comp : Bool),
    let d := s.dev
    (i, b, sel) ∈ [
      (Instr.data, MsgBody.data, fun z => match z with | .data _ _ _ _ => true | _ => false),
      (Instr.fwddata, MsgBody.fwdData, fun z => match z with | .fwdData _ _ _ _ => true | _ => false)] →
    findMsg d core line sel = some m → m.body = b x g p comp → mshrOf d core line = some q →
    ∃ e, Completes (i core line) s e ∧
      l2Of e q.core q.line = (match q.store with
        | some st => if g = .m ∨ g = .e then ⟨.m, mergeMask x st.1 (bitMask st.2), p, q.fetch, true⟩
          else ⟨g, x, p, q.fetch, !q.fetch⟩
        | none => ⟨g, x, p, q.fetch, !q.fetch⟩) ∧
      Sparse.get noSent e.coh.sent (q.line * 64 + q.core) = 0 ∧
      (comp = false ∨ q.compIn = true → e.coh.net = d.coh.net.erase m ++ [⟨q.core, q.line, .compAck⟩]) ∧
      (comp = true → q.compIn = false → mshrOf e core line = some { q with dataIn := true, needComp := true })) ∧
  ∀ (s : State) (core line : Nat) (m : CohMsg) (q : Mshr),
    let d := s.dev
    (∀ g sc, findMsg d core line (fun b => match b with | .comp _ _ => true | _ => false) = some m → m.body = .comp g sc →
      mshrOf d core line = some q →
      let f := match sc with
        | some ok => hostSees (dropMsg d m) (.sc core ok)
        | none => dropMsg d m
      (q.kind = .rdX → Completes (.comp core line) s (completeReq f { q with compIn := true })) ∧
      (q.kind = .upg → q.dataIn = false → (l2Of d core line).st ≠ .i → Completes (.comp core line) s
        (completeReq (grantLine f q (l2Of d core line).data g (l2Of d core line).poison) { q with dataIn := true })) ∧
      (q.kind ≠ .rdX → q.kind ≠ .upg → Completes (.comp core line) s (completeReq f { q with dataIn := true }))) ∧
    (∀ v p, findMsg d core line (fun b => match b with | .amoData _ _ => true | _ => false) = some m → m.body = .amoData v p →
      mshrOf d core line = some q → Completes (.amodata core line) s
        (completeReq (hostSees (dropMsg d m) (.value core v.toNat p)) { q with dataIn := true })) ∧
    ∀ w, findMsg d core line (fun b => b == .wbAck) = some m →
      d.coh.wbs.find? (fun w => w.core == core && w.line == line) = some w →
      Completes (.wback core line) s { d with coh := { d.coh with net := d.coh.net.erase m, wbs := d.coh.wbs.erase w } }

/-- O31. RDS, RDX, UPG, AMO, LR, SC, CLN, FLU and INV: a request whose line has no transaction, whose slice has one free,
that no reservation defers, that awaits no earlier write-back, whose bucket is not in transfer, that names a victim
where it needs one and whose turn it is opens its transaction with the forwards of R372 (an Upg of a core that holds
nothing is served as RdX); any other waits. An Sc ends its own core's deferral and comes before what it deferred. With
no copy anywhere, RdS and RdX are answered at once by the home copy with a grant of E or M, and the entry names the
core alone. Of RdS and RdX they go to the owner, be it the requester, and to the sharers but not to the requester; of
Upg to all but the requester. Completes by its own effect (exec = next): rds, rdx, upg, amo, lr, sc, cln, flu, inv. -/
def Obligations.HomeRequests : Prop :=
  (∀ (s : State) (core line : Nat) (victim : Option Nat) (i : Instr) (sel : ReqKind → Bool) (v : Option Nat),
    let d := s.dev
    let e := dirOf d line
    (i, sel, v) ∈ [
      (Instr.rds core line victim, (fun k => k == .rdS), victim), (Instr.rdx core line victim, (fun k => k == .rdX), victim),
      (Instr.upg core line victim, (fun k => k == .upg), victim),
      (Instr.amo core line, (fun k => match k with | .amo _ _ _ _ => true | _ => false), none),
      (Instr.lr core line, (fun k => match k with | .lr _ _ => true | _ => false), none),
      (Instr.sc core line, (fun k => match k with | .sc _ _ => true | _ => false), none),
      (Instr.cln core line, (fun k => k == .cln), none), (Instr.flu core line, (fun k => k == .flu), none),
      (Instr.inv core line, (fun k => k == .inv), none)] →
    ∀ m k prior, findMsg d core line (fun b => match b with | .req k _ => sel k | _ => false) = some m → m.body = .req k prior →
      let served := servedAs e core k
      let b := match k with
        | .sc _ _ => let f := frontReq d line core
          { f with coh := { f.coh with defer := f.coh.defer.filter fun r => r != (core, line) } }
        | _ => d
      let free := txnOn b line = none ∧ openAt b (homeOf b line) < 128 ∧ inHand b line = false ∧
        awaitsPrior b line core prior = false ∧ firstInLine b line (.core core) = true ∧
        (breaksResv e served = true → ∀ r ∈ b.coh.defer, r.2 = line → r.1 = core) ∧
        (needsVictim b line served = true → ∃ w, v = some w ∧ victimOk b line w = true)
      (¬ free → Completes i s (waitReq b line (.core core))) ∧
      (free → Completes i s (openRequest (unwait (dropMsg b m) line (.core core)) line (.core core) served
        (if needsVictim b line served then v else none)))) ∧
  (∀ (s : State) (core line : Nat) (m : CohMsg) (prior : Nat) (i : Nat → Nat → Option Nat → Instr) (k : ReqKind)
    (g : L2State),
    let d := s.dev
    (i, k, g) ∈ [(Instr.rds, ReqKind.rdS, L2State.e), (Instr.rdx, .rdX, .m)] →
    findMsg d core line (fun b => match b with | .req q _ => q == k | _ => false) = some m → m.body = .req k prior →
    txnOn d line = none → d.coh.txns = [] → d.coh.waiting = [] → d.coh.defer = [] → dirOf d line = {} →
    inHand d line = false → needsVictim d line k = false →
    let x := lineAt (homeFill d line) line
    ∃ e, Completes (i core line none) s e ∧ dirOf e line = { st := .de, owner := core, sharers := 0 } ∧
      e.coh.net = d.coh.net.erase m ++ [⟨core, line, .data x.1 g x.2 false⟩] ∧
      (∀ l, l ≠ line → dirOf e l = dirOf d l)) ∧
  ∀ (e : DirEntry) (core n : Nat) (k : FwdKind),
    let owner := hasOwner e = true ∧ n = e.owner
    let sharer := n < 64 ∧ bit e.sharers n = true ∧ (hasOwner e = true → n ≠ e.owner)
    ((n, k) ∈ forwards e (some core) .rdS ↔ owner ∧ k = .snpS) ∧
    ((n, k) ∈ forwards e (some core) .rdX ↔ (owner ∧ k = .snpX) ∨ (n ≠ core ∧ sharer ∧ k = .snpInv)) ∧
    ((n, k) ∈ forwards e (some core) .upg ↔ n ≠ core ∧ (owner ∨ sharer) ∧ k = .snpInv)

/-- O32. COMPACK marks its transaction acknowledged and closes it when done. SNPACK, INVACK, RSP_GONE and SNPDATA take the
counted response out of the open transaction (RSP-GONE waits for its WB) and go on, SnpAck O leaving the owner beside
sharers; with none open they are stray. WB from a named owner makes the home copy its 64 bytes, updates the entry and
is acknowledged; EvictClean the same without data; from a core not named both are stray, acknowledged without effect.
FWD_TIMEOUT (here with other responses still to come) poisons the home copy and takes the core out of the entry;
LR_DEFERRAL_END ends that deferral. Completes by its own effect (exec = next): compack, snpack, invack, rspGone,
evictclean, snpdata, wb, fwdTimeout, lrDeferralEnd. -/
def Obligations.HomeResponses : Prop :=
  (∀ (s : State) (core line : Nat) (m : CohMsg),
    let d := s.dev
    let e := dropMsg d m
    (findMsg d core line (fun b => b == .compAck) = some m →
      (∀ t, d.coh.txns.find? (fun t => t.line == line && t.who == .core core && !t.acked) = some t →
        Completes (.compack core line) s (closeTxn (setTxn e { t with acked := true }) line)) ∧
      (d.coh.txns.find? (fun t => t.line == line && t.who == .core core && !t.acked) = none →
        Completes (.compack core line) s (strayMsg e line))) ∧
    (∀ i kept x p, (i, m.body) ∈ [(Instr.snpack core line, MsgBody.snpAck kept), (Instr.invack core line, .invAck),
        (Instr.rspGone core line, .gone), (Instr.snpdata core line, .snpData x p)] →
      findMsg d core line (fun b => match m.body, b with
        | .snpAck _, .snpAck _ => true
        | .invAck, .invAck => true
        | .gone, .gone => true
        | .snpData _ _, .snpData _ _ => true
        | _, _ => false) = some m → txnOn d line = none → Completes i s (strayMsg e line)) ∧
    ∀ t n, txnOn d line = some t →
      let counted := fun (f : Dev) (u : Txn) => advance (setTxn f { u with pend := t.pend.erase n }) t.line
      let e := noteCrossed (dropMsg d m) line core
      let x := dirOf d line
      (∀ kept, findMsg d core line (fun b => match b with | .snpAck _ => true | _ => false) = some m → m.body = .snpAck kept →
        t.pend.find? (fun z => z.line == line && z.core == core && (z.kind == .snpS || z.kind == .snpX || z.kind == .snpClean) &&
          !z.gone) = some n →
        Completes (.snpack core line) s (counted
          (if kept = .o ∧ n.kind = .snpS then setDir e line (ownerOwns x)
          else if kept = .s ∧ n.kind ≠ .snpX then setDir e line (ownerShares x) else e) t)) ∧
      (findMsg d core line (fun b => b == .invAck) = some m →
        t.pend.find? (fun z => z.line == line && z.core == core && true && !z.gone) = some n →
        Completes (.invack core line) s (counted (ownerClean e t n).1 (ownerClean e t n).2)) ∧
      (findMsg d core line (fun b => b == .gone) = some m →
        t.pend.find? (fun z => z.line == line && z.core == core && !z.gone) = some n → n.left = false →
        Completes (.rspGone core line) s
          (setTxn (dropMsg d m) { t with pend := t.pend.map fun q => if q = n then { n with gone := true } else q })) ∧
      ∀ x p, findMsg d core line (fun b => match b with | .snpData _ _ => true | _ => false) = some m → m.body = .snpData x p →
        t.pend.find? (fun z => z.line == line && z.core == core && (z.kind == .snpRecall || z.kind == .snpClean) && !z.gone) =
          some n → n.kind = .snpRecall →
        Completes (.snpdata core line) s (counted (writeLine e line x fullMask p) t)) ∧
  ∀ (s : State) (core line : Nat),
    let d := s.dev
    (∀ m x p keep, findMsg d core line (fun b => match b with | .wb _ _ _ => true | _ => false) = some m →
      m.body = .wb x p keep →
      (wbAccepted d core line = false → Completes (.wb core line) s
        (sendMsg (strayMsg (dropMsg d m) line) core line .wbAck)) ∧
      (hasOwner (dirOf d line) = true → (dirOf d line).owner = core → txnOn d line = none → lineLost d line = false →
        (farLine? d line).isSome = true →
        ∃ e, Completes (.wb core line) s e ∧ lineAt e line = (x, p) ∧
          e.coh.net = d.coh.net.erase m ++ [⟨core, line, .wbAck⟩] ∧
          dirOf e line = tidyDir (match keep with
            | .e => soleOwner core
            | .s => ownerShares (dirOf d line)
            | _ => dropOwner (dirOf d line)))) ∧
    (∀ m, findMsg d core line (fun b => b == .evictClean) = some m →
      (wbAccepted d core line = false → Completes (.evictclean core line) s
        (sendMsg (strayMsg (dropMsg d m) line) core line .wbAck)) ∧
      (hasOwner (dirOf d line) = true → (dirOf d line).owner = core → txnOn d line = none →
        ∃ e, Completes (.evictclean core line) s e ∧ e.mem = d.mem ∧
          e.coh.net = d.coh.net.erase m ++ [⟨core, line, .wbAck⟩] ∧
          dirOf e line = tidyDir (dropOwner (dirOf d line)))) ∧
    (∀ t n, txnOn d line = some t → t.pend.find? (fun z => z.line == line && z.core == core) = some n →
      d.coh.txns = [t] → t.line = line → t.pend.erase n ≠ [] →
      ∃ e, Completes (.fwdTimeout core line) s e ∧ (wellLine e line).poison = true ∧
        (e.coh.txns.map (·.pend)) = [t.pend.erase n] ∧ bit (dirOf e line).sharers core = false) ∧
    Completes (.lrDeferralEnd core line) s
      { d with coh := { d.coh with defer := d.coh.defer.filter fun r => r != (core, line) } }

/-- O33. TABLE_WALK_COMPLETE for an uncached page of an instance in hardware mode: a leaf is then what the access's caches
serve, and a cause sets f_fault and is left for the access. HOST_ASSIST_MISS in host-assisted mode fills the lowest
free request slot and raises the instance's chime, or sets f_full where none is free. XLAT_INV drops from every
covered instance each cached entry that matches and is then in progress; INVALIDATION_COMPLETE ends it once what it
waits for is done. XLAT_FILL of a slot not waiting or with another sequence number sets a flag; a fault answer is left
as its cause; a checked leaf is cached and the slot freed. After a walk or a fill of a channel the messages that
waited for it go on (drainFor). Completes by its own effect (exec = next): tableWalkComplete, hostAssistMiss, xlatInv,
invalidationComplete, xlatFill. -/
def Obligations.TranslationService : Prop :=
  (∀ (s : State) (sel : TlbSel) (sp : Space) (va : Nat) (acc : Access),
    let d := s.dev
    let i := selInst sel
    va < 2 ^ 57 → i < 64 → outsideSpace d sp va = false → cachedLeaf d sel sp va = none →
    (∀ a ∈ (xinst d i).answers, answers sel sp va acc a = false) →
    (hostXlat d i = false →
      let done := fun e => Completes (.tableWalkComplete sel sp va acc) s (drainFor e i)
      (∀ w level, (walk d i sp va).stop = .leaf w level →
        ∃ e, done e ∧
          (xinst e i).cache.head? = some (tlbTag sp va (leafShift sp level) w level) ∧
          cachedLeaf e sel sp va = some (tlbTag sp va (leafShift sp level) w level)) ∧
      ∀ c, (walk d i sp va).stop = .cause c →
        ∃ e, done e ∧ flag e (xlatOff i 5) 0 = true ∧
          (xinst e i).answers = (xinst d i).answers ++ [⟨sel, sp, va, acc, c, c⟩] ∧ cachedLeaf e sel sp va = none) ∧
    (hostXlat d i = true →
      (∀ k < 16, ¬ ((slotAt (xinst d i) k).waiting = true ∧ (slotAt (xinst d i) k).sel = sel ∧ (slotAt (xinst d i) k).space = sp ∧
        (slotAt (xinst d i) k).acc = acc ∧ (slotAt (xinst d i) k).va = va)) →
      (∀ k < 16, (slotAt (xinst d i) k).waiting = false → (∀ j < k, (slotAt (xinst d i) j).waiting = true) →
        Completes (.hostAssistMiss sel sp va acc) s
          (raiseChime (setSlot d i k ⟨true, ((slotAt (xinst d i) k).seq + 1) % 256, va, sp, acc, sel⟩) (4096 + xlatCode i))) ∧
      ((∀ k < 16, (slotAt (xinst d i) k).waiting = true) →
        Completes (.hostAssistMiss sel sp va acc) s (setFlag d (xlatOff i 5) 2)))) ∧
  ∀ (s : State) (code : Nat),
    let d := s.dev
    (cmdReady d (codeOff code 0) = true → invalOf d code = none →
      let f := applyField (applyPair d (codeOff code 2)) (codeOff code 0) (BitVec.allOnes 32)
      let v := regVal f (codeOff code 0)
      (fld v 3 2 ≠ 3 → (code = 0 ∨ bit v 1 = decide (16 ≤ code)) →
        ∃ e inv, Completes (.xlatInv code) s e ∧ invalOf e code = some inv ∧ inv.host = bit v 1 ∧ inv.kind = fld v 3 2 ∧
          inv.part = fld v 7 4 ∧ inv.space = fld v 19 8 ∧ inv.va = (reg64 f (codeOff code 2)).toNat ∧
          ∀ i ∈ covered code (bit v 1), ∀ t, (t ∈ (xinst e i).cache ↔ t ∈ (xinst d i).cache ∧ invEntry inv t = false)) ∧
      (fld v 3 2 = 3 → Completes (.xlatInv code) s (setRegFld f (codeOff code 0) 0 0 0))) ∧
    (∀ v, invalOf d code = some v → invDone d code v = true →
      Completes (.invalidationComplete code) s (setRegFld (setInval d code none) (codeOff code 0) 0 0 0)) ∧
    (code ≠ 0 → cmdReady d (codeOff code 0xA) = true →
      let f := applyField (applyPair d (codeOff code 0xC)) (codeOff code 0xA) (BitVec.allOnes 32)
      let v := regVal f (codeOff code 0xA)
      let g := setRegFld f (codeOff code 0xA) 17 17 0
      let i := codeInst code
      let r := slotAt (xinst d i) (fld v 3 0)
      let h := setSlot g i (fld v 3 0) { r with waiting := false }
      let fills := fun e => Completes (.xlatFill code) s (drainFor e i)
      ((r.waiting = false ∨ r.seq ≠ fld v 11 4) → fills (setFlag g (xlatOff i 5) 1)) ∧
      (r.waiting = true → r.seq = fld v 11 4 →
        (bit v 12 = true → fills
          (leaveAnswer (latchXlat h i r.space r.va r.acc 8) r.sel r.space r.va r.acc 8 (fld v 16 13))) ∧
        (bit v 12 = false →
          let w := reg64 h (codeOff code 0xC)
          let c := fillCause h r.space w (fld v 19 18) r.va r.acc
          (c ≠ 0 → fills (leaveAnswer (latchXlat h i r.space r.va r.acc c) r.sel r.space r.va r.acc c c)) ∧
          (c = 0 → ∀ level, fillLevel r.space (fld v 19 18) = some level →
            ∃ e, fills e ∧ (slotAt (xinst e i) (fld v 3 0)).waiting = false ∧
              (xinst e i).cache.head? = some (tlbTag r.space r.va (leafShift r.space level) w level)))))

/-- O34. RX_SEND, RX_WRITE, RX_READ_REQ, RX_REDUCE, RX_GONG, RX_DOORBELL and RX_CHECK, for a message that the channel can
read: on a convoy neither OPEN nor CLOSING it is answered with NAK NOCONV; from a source that is not the peer it sets
f_reject. With the expected PSN and room in its queue it is accepted (the expected PSN advances by one modulo 2^32)
and performed: done, it is acknowledged; refused, a NAK with the reason goes; handed out (REDUCE), it is held; one
that must follow earlier messages, or has to wait, is held behind them. Without room it is dropped with f_drop. With
an earlier PSN the acknowledgement goes again; with a later one, NAK SEQ goes, once per retransmission timeout.
Messages that carry no acknowledgement and no congestion mark. Completes by its own effect (exec = next): rxSend,
rxWrite, rxReadReq, rxReduce, rxGong, rxDoorbell, rxCheck. -/
def Obligations.SequencedReception : Prop :=
  ∀ (s : State) (ch typ : Nat) (i : Nat → RxMsg → Instr) (r : RxMsg),
    let d := s.dev
    let idx := r.m.dst
    let v := convoyOf d ch idx
    let e := acceptMsg d ch idx r
    let h : RxHeld := { rx := r, reduce := false }
    let keep := fun f hs => setConvoy f ch idx { convoyOf f ch idx with held := hs }
    (i, typ) ∈ [(Instr.rxSend, 1), (Instr.rxWrite, 2), (fun ch r => Instr.rxReadReq ch r [], 3), (Instr.rxReduce, 5),
      (Instr.rxGong, 6), (Instr.rxDoorbell, 7), (Instr.rxCheck, 8)] →
    ch < 48 → readable d ch typ r = true → r.m.ackv = false → r.ce = false → (typ = 6 → w2f r.m 18 17 ≠ 3) →
    (v.st ≠ .open_ → v.st ≠ .closing → Completes (i ch r) s (sendNak d ch idx (srcIdx r.m) 2 0 r.m.psn)) ∧
    (v.st = .open_ ∨ v.st = .closing →
      (fromPeer d ch v r = false → Completes (i ch r) s (setFlag d (chnOff ch 5) 9)) ∧
      (fromPeer d ch v r = true → rqCap r.m.cls < rqUsed d ch r.m.cls + msgWords r.m →
        Completes (i ch r) s (setFlag d (chnOff ch 5) 1)) ∧
      (fromPeer d ch v r = true → rqUsed d ch r.m.cls + msgWords r.m ≤ rqCap r.m.cls →
        (r.m.psn = v.rcvNxt →
          (convoyOf e ch idx).rcvNxt = (v.rcvNxt + 1) % 2 ^ 32 ∧ (convoyOf e ch idx).held = v.held ∧
          ((∃ q ∈ v.held, q.reduce = false ∨ inOrder typ = true) → Completes (i ch r) s (keep e (v.held ++ [h]))) ∧
          ((∀ q ∈ v.held, q.reduce = true ∧ inOrder typ = false) →
            let out := performMsg [] false (readOut e ch r) ch idx r
            (out = .wait → Completes (i ch r) s (keep e (v.held ++ [h]))) ∧
            (∀ f pois, out = .done f pois → Completes (i ch r) s (acknowledge (keep f v.held) ch idx r.m pois false)) ∧
            (∀ f reason cause, out = .nak f reason cause →
              Completes (i ch r) s (acknowledge (keep (sendNak f ch idx (convoyOf f ch idx).peer reason cause r.m.psn) v.held)
                ch idx r.m false true)) ∧
            (∀ f, out = .later f → Completes (i ch r) s (keep f (v.held ++ [{ h with reduce := true }]))))) ∧
        (r.m.psn ≠ v.rcvNxt →
          (psnBefore r.m.psn v.rcvNxt = true → (r.m.typ = 3 → r.m.retx = false) →
            Completes (i ch r) s (sendAck d ch idx)) ∧
          (psnBefore r.m.psn v.rcvNxt = false → v.nakAt = none →
            Completes (i ch r) s (sendNak (setConvoy d ch idx { v with nakAt := some (reg64 d hdPcntOff).toNat })
              ch idx v.peer 1 0 v.rcvNxt)))))

/-- O35. CONVOY_SEND: where a message waits, a tracking record is free and the message may be sent, exec answers a next
state in which it has been transmitted, in its frame, with the convoy's next PSN, which advances by one modulo 2^32,
it stands among the messages sent, and the rest of the waiting messages stay. A two-sided transfer of an OPENING
convoy is put at the end of those that wait. On the raw convoy of an Ethernet channel whose link is up a SEND is one
frame with exactly its bytes and their FCS. Completes by its own effect (exec = next): convoySend. -/
def Obligations.ConvoySends : Prop :=
  (∀ (s : State) (ch idx : Nat) (r : TxRec) (rest : List TxRec) (ecc : List (Nat × EccFound)) (noToken : Bool),
    let d := s.dev
    let v := convoyOf d ch idx
    ch < 48 → idx ≠ 0 → v.sendq = r :: rest → v.st = .open_ ∨ v.st = .closing → recsHeld d ch < recPool → maySendMsg d ch idx r = true →
    ∃ e m, Completes (.convoySend ch idx none ecc noToken) s e ∧ m = { r.msg with psn := v.sndNxt, data := m.data } ∧
      ((r.src = [] ∨ r.msg.typ = 3) → m.data = r.msg.data) ∧
      (chanOf e ch).tx = (chanOf d ch).tx ++ [.ctp m (frameOf d ch idx m)] ∧
      (convoyOf e ch idx).sndNxt = (v.sndNxt + 1) % 2 ^ 32 ∧ (convoyOf e ch idx).sendq = rest ∧
      (convoyOf e ch idx).recs = v.recs ++ [{ r with msg := m }] ∧
      ∀ c, c ≠ ch → chanOf e c = chanOf d c) ∧
  (∀ (s : State) (ch idx : Nat) (t : TwoSided) (ecc : List (Nat × EccFound)) (noToken : Bool), idx ≠ 0 → (convoyOf s.dev ch idx).st = .opening →
    Completes (.convoySend ch idx (some t) ecc noToken) s (setConvoy s.dev ch idx { convoyOf s.dev ch idx with
      sendq := (convoyOf s.dev ch idx).sendq ++ [twoSidedMsg ch idx (convoyOf s.dev ch idx).peer t] })) ∧
  ∀ (s : State) (ch tag index : Nat) (last : Bool) (bytes : List Byte) (ecc : List (Nat × EccFound)) (noToken : Bool),
    (convoyOf s.dev ch 0).st = .open_ → isDirect s.dev ch = false → linkUp s.dev ch = true →
    ∃ e, Completes (.convoySend ch 0 (some (.send tag index last bytes)) ecc noToken) s e ∧
      (chanOf e ch).tx = (chanOf s.dev ch).tx ++ [.raw (bytes ++ fcsBytes bytes)]

/-- O36. RX_OPEN_ACK with the expected first PSN makes an OPENING convoy OPEN, another PSN puts it in ERROR; RX_OPEN also
answers with OPEN_ACK, and gives NAK STATE while the package is evacuated. RX_CLOSE is answered and closes the convoy
once nothing accepted waits; RX_CLOSE_ACK closes a CLOSING one. RX_ACK takes the ring credit and the acknowledgement.
RX_NAK: SEQ sends again from its PSN, NOCONV ends an OPEN convoy, a refusal ends the refused message, another reason
is stray. RX_CREDIT sets the peer's counts; RX_PROBE is answered; RX_PROBE_RESP ends the probe; RX_READ_RESP writes
its bytes once. Messages that carry no acknowledgement of their own and no congestion mark. Completes by its own
effect (exec = next): rxReadResp, rxOpen, rxOpenAck, rxClose, rxCloseAck, rxAck, rxNak, rxCredit, rxProbe,
rxProbeResp. -/
def Obligations.ControlReception : Prop :=
  ∀ (s : State) (ch : Nat) (r : RxMsg), ch < 48 →
    let d := s.dev
    let idx := r.m.dst
    let v := convoyOf d ch idx
    let e := noteReceived d ch r.m
    let ok := fun typ => readable d ch typ r = true ∧ v.st ≠ .closed ∧ fromPeer d ch v r = true ∧ r.m.ackv = false ∧ r.ce = false
    let nowOpen := setConvoy e ch idx { v with st := .open_, tries := 0 }
    (fwRuns d ch = true →
      (ok 0xA → v.st = .opening →
        (w2f r.m 31 0 = v.rcvNxt → Completes (.rxOpenAck ch r) s nowOpen) ∧
        (w2f r.m 31 0 ≠ v.rcvNxt → Completes (.rxOpenAck ch r) s (convoyError e ch idx))) ∧
      (readable d ch 9 r = true →
        (d.evac = true → Completes (.rxOpen ch r) s (sendNak e ch idx (srcIdx r.m) 5 0 r.m.psn)) ∧
        (d.evac = false → fromPeer d ch v r = true → v.st = .opening → w2f r.m 31 0 = v.rcvNxt →
          Completes (.rxOpen ch r) s (sendOpen nowOpen ch idx 0xA)) ∧
        (d.evac = false → fromPeer d ch v r = true → v.st = .open_ → Completes (.rxOpen ch r) s (sendOpen e ch idx 0xA)) ∧
        (d.evac = false → v.st = .closed → Completes (.rxOpen ch r) s (sendNak e ch idx (srcIdx r.m) 2 0 r.m.psn))) ∧
      (ok 0xB → v.st ≠ .error →
        (v.held ≠ [] → Completes (.rxClose ch r) s (setConvoy e ch idx { v with closeWait := true })) ∧
        (v.held = [] → Completes (.rxClose ch r) s (closeConvoy (sendMessage (setConvoy e ch idx { v with closeWait := true })
          ch idx (control ch idx v.peer 0xC 0 0 0)) ch idx))) ∧
      (ok 0xC → v.st = .closing → ∃ f, Completes (.rxCloseAck ch r) s f ∧ f = closeConvoy e ch idx ∧
        (convoyOf f ch idx).st = .closed ∧ (convoyOf f ch idx).sendq = [] ∧ (convoyOf f ch idx).recs = [])) ∧
    (readable d ch 0xD r = true → v.st ≠ .closed → fromPeer d ch v r = true → r.ce = false →
      Completes (.rxAck ch r) s (processAck (setConvoy e ch idx { v with txCredit := (v.peerRing + w2f r.m 31 0) % 2 ^ 32 }) ch idx
        (if r.m.ackv then r.m.ack else v.sndUna) (w2f r.m 32 32 == 1) r.m.ecne)) ∧
    (ok 0xE →
      (w2f r.m 3 0 = 1 → unacked v ≠ [] → v.host = false →
        Completes (.rxNak ch r) s (resendFrom e ch idx (w2f r.m 63 32) false)) ∧
      (w2f r.m 3 0 = 2 → v.st = .open_ → Completes (.rxNak ch r) s (convoyError e ch idx)) ∧
      (3 ≤ w2f r.m 3 0 → w2f r.m 3 0 ≤ 6 → Completes (.rxNak ch r) s (refused e ch idx (w2f r.m 63 32))) ∧
      (7 ≤ w2f r.m 3 0 → Completes (.rxNak ch r) s (setFlag e (chnOff ch 5) 9))) ∧
    (readable d ch 0xF r = true → isDirect d ch = true → ∃ f, Completes (.rxCredit ch r) s f ∧
      ∀ k < 4, Sparse.get zeroCnt (chanOf f ch).peerFreed k = fld r.m.w3 (16 * k + 15) (16 * k)) ∧
    (∀ turnaround, ok 0x14 → Completes (.rxProbe ch r turnaround) s
      (sendMessage e ch idx (control ch idx v.peer 0x15 0 r.m.w2 (BitVec.ofNat 64 turnaround)))) ∧
    (∀ p, ok 0x15 → (chanOf d ch).probe = some p → p.convoy = idx → ∃ f, Completes (.rxProbeResp ch r) s f ∧
      (chanOf f ch).probe = none) ∧
    ∀ q mid, ok 0x4 → v.recs.find? (fun q => q.msg.typ == 3 && q.msg.psn == r.m.psn && fld q.msg.w2 31 0 == w2f r.m 31 0) = some q →
      q.owner = .move mid → badData r = false →
      let off := fld r.m.w3 31 0
      let n := min r.m.data.length q.left
      q.got.contains off = false → n < q.left →
      Completes (.rxReadResp ch r) s (
        let f := writePayload e r (rangeAt q.src off r.m.data.length) 0
        let f := setConvoy f ch idx (updRead (convoyOf f ch idx) r.m.psn fun t =>
          { t with left := q.left - n, got := t.got ++ [off] })
        settleMove (updMove f mid fun t => { t with bytes := t.bytes - n }) mid)

/-- O37. RAW_FRAME on an open raw convoy is a ring record; without one, or without room, it is dropped with f_drop.
FRAME_DISCARD and PAUSE_FRAME set their flags. ACK_TIMER sends the acknowledgement due; CREDIT_REPORT sends the counts
of a direct channel that has freed words since its last report. RTO_EXPIRY sends again from the oldest unfinished
message (asking the host where the transport is host-assisted); OPEN_RESEND and CLOSE_RESEND send again up to the
retry limit and then end the convoy; PROBE_TIMEOUT ends the probe with LINK. LINK_TRAINING_RETRY, LINK_UP and
LINK_DOWN set the link, with its flag and chime; a link that comes up sends unacknowledged messages again. Completes
by its own effect (exec = next): rawFrame, frameDiscard, pauseFrame, ackTimer, creditReport, rtoExpiry, openResend,
closeResend, probeTimeout, linkTrainingRetry, linkUp, linkDown. -/
def Obligations.LinkTimersAndFrames : Prop :=
  ∀ (s : State) (ch idx : Nat),
    let d := s.dev
    let x := chanOf d ch
    let v := convoyOf d ch idx
    (∀ bytes, linkUp d ch = true → isDirect d ch = false →
      isCtpFrame (chanMac d ch) (chanIp d ch) (regFld d (chnOff ch 0xC) 15 0) bytes = false → 60 ≤ bytes.length → bytes.length ≤ 4218 →
      ((convoyOf d ch 0).st ≠ .open_ → Completes (.rawFrame ch bytes) s (setFlag d (chnOff ch 5) 1)) ∧
      ((convoyOf d ch 0).st = .open_ →
        (∀ e p, ringRecord d ch 0 1 bytes.length false false 0 0 0 bytes = .done e p → Completes (.rawFrame ch bytes) s e) ∧
        (∀ e n c, ringRecord d ch 0 1 bytes.length false false 0 0 0 bytes = .nak e n c →
          Completes (.rawFrame ch bytes) s (setFlag e (chnOff ch 5) 1)) ∧
        (ringRecord d ch 0 1 bytes.length false false 0 0 0 bytes = .wait →
          Completes (.rawFrame ch bytes) s (setFlag d (chnOff ch 5) 1)))) ∧
    (linkUp d ch = true → Completes (.frameDiscard ch) s (setFlag d (chnOff ch 5) 0)) ∧
    (linkUp d ch = true → isDirect d ch = false → Completes (.pauseFrame ch) s (setFlag d (chnOff ch 5) 7)) ∧
    (v.ackDue = true → Completes (.ackTimer ch idx) s (sendAck d ch idx)) ∧
    (isDirect d ch = true → linkUp d ch = true → x.freed ≠ x.reported → ∃ e w3, Completes (.creditReport ch) s e ∧
      (chanOf e ch).tx = x.tx ++ [.ctp (control ch 0 0 0x0F 0 0 w3) (directFrame (ctpBytes (control ch 0 0 0x0F 0 0 w3)))] ∧
      ((∀ k < 4, Sparse.get zeroCnt x.freed k < 2 ^ 16) → ∀ k < 4, fld w3 (16 * k + 15) (16 * k) = Sparse.get zeroCnt x.freed k)) ∧
    (∀ r, v.recs.find? (fun r => !r.acked || r.left != 0) = some r →
      (v.host = false → Completes (.rtoExpiry ch idx) s (resendFrom d ch idx r.msg.psn true)) ∧
      (v.host = true → v.askedTo = false → Completes (.rtoExpiry ch idx) s
        (hostRequest (setConvoy d ch idx { v with askedTo := true }) ch 1 idx r.msg.psn (4240 + ch)))) ∧
    (fwRuns d ch = true →
      (v.st = .opening →
        (v.tries ≤ v.retryLimit → Completes (.openResend ch idx) s
          (sendOpen (setConvoy d ch idx { v with tries := v.tries + 1 }) ch idx 9)) ∧
        (v.retryLimit < v.tries → Completes (.openResend ch idx) s (convoyError d ch idx))) ∧
      (v.st = .closing → unacked v = [] → v.sendq = [] →
        (v.tries ≤ v.retryLimit → Completes (.closeResend ch idx) s
          (sendMessage (setConvoy d ch idx { v with tries := v.tries + 1 }) ch idx (control ch idx v.peer 0xB 0 0 0))) ∧
        (v.retryLimit < v.tries → Completes (.closeResend ch idx) s (closeConvoy d ch idx))) ∧
      (chanEnabled d ch = true →
        (x.link = 0 → ∃ e, Completes (.linkTrainingRetry ch) s e ∧ (chanOf e ch).link = 1) ∧
        (x.link = 1 → x.convoys = [] → ∃ e, Completes (.linkUp ch) s e ∧
          (chanOf e ch).link = if regFld d (chnOff ch 0) 7 7 = 1 then 3 else 2))) ∧
    (∀ p, x.probe = some p → Completes (.probeTimeout ch) s (cmdDone (setChannel d ch { x with probe := none }) ch 3)) ∧
    (x.link ≠ 0 → ∃ e, Completes (.linkDown ch) s e ∧ (chanOf e ch).link = 0 ∧ (chanOf e ch).convoys = x.convoys) ∧
    (x.link = 0 → Completes (.linkDown ch) s d)

/-- O38. For each operation, in every state in which the channel's firmware runs and CHN.CMD holds it: OPEN loads a
context from a good image at a usable address (else STATE or XLAT); CLOSE starts closing, or closes the raw convoy;
RESET closes; READ writes the live context; RETX sends again from its PSN; SETWIN sets the window; SPILL spills where
it can; RING_HEAD frees ring lines and performs what waited; RED_DONE completes a handed-out REDUCE; HREQ_HEAD frees
request records; PROBE sends a probe. The command bit reads 0 after each but PROBE, which its response ends. Completes
by its own effect (exec = next): chnOpen, chnClose, chnReset, chnRead, chnRetx, chnSetwin, chnSpill, chnRingHead,
chnRedDone, chnHreqHead, chnProbe. -/
def Obligations.ChannelCommands : Prop :=
  ∀ (s : State) (ch : Nat),
    let d := s.dev
    let o := chnOff ch 2
    let f := applyField (applyPair d (chnOff ch 3)) o (BitVec.allOnes 32)
    let idx := regFld f o 12 0
    let arg := (reg64 f (chnOff ch 3)).toNat
    let x := chanOf f ch
    let v := convoyOf f ch idx
    let img := fun i => valAt f (arg + 8 * i) 8
    let taken := fun op => fwRuns d ch = true ∧ cmdPending d o = true ∧ fld (bufferedVal d o) 16 13 = op
    (taken 0 →
      (argOk f (chanPart f ch) arg 128 32 = false → Completes (.chnOpen ch) s (cmdDone f ch 2)) ∧
      (argOk f (chanPart f ch) arg 128 32 = true →
        ((f.evac = true ∨ openOk f ch idx img = false) → Completes (.chnOpen ch) s (cmdDone f ch 1)) ∧
        (f.evac = false → openOk f ch idx img = true → idx ≠ 0 → ∃ e, Completes (.chnOpen ch) s e ∧
          e = cmdDone (setConvoy f ch idx (convoyFrom f ch img)) ch 0 ∧ (convoyOf e ch idx).st = .opening) ∧
        (f.evac = false → openOk f ch idx img = true → idx = 0 → ∃ e, Completes (.chnOpen ch) s e ∧
          (convoyOf e ch 0).st = .open_))) ∧
    (taken 1 →
      (v.st = .closed ∨ v.st = .error → Completes (.chnClose ch) s (cmdDone f ch 1)) ∧
      (v.st ≠ .closed → v.st ≠ .error →
        (idx ≠ 0 → Completes (.chnClose ch) s (cmdDone (setConvoy f ch idx { v with st := .closing, tries := 0 }) ch 0)) ∧
        (idx = 0 → Completes (.chnClose ch) s (cmdDone (closeConvoy f ch idx) ch 0)))) ∧
    (taken 2 → ∃ e, Completes (.chnReset ch) s e ∧ e = cmdDone (closeConvoy f ch idx) ch 0 ∧ (convoyOf e ch idx).st = .closed) ∧
    (taken 3 → argOk f (chanPart f ch) arg 128 32 = true → Completes (.chnRead ch) s
      (cmdDone (writeAt f arg ((convoyImage v).flatMap (leBytes 8)) false) ch 0)) ∧
    (taken 4 → let e := retransmit f ch idx (arg % 2 ^ 32)
      Completes (.chnRetx ch) s (cmdDone (setConvoy e ch idx { convoyOf e ch idx with askedTo := false, askedNak := false }) ch 0)) ∧
    (taken 5 → Completes (.chnSetwin ch) s
      (cmdDone (setConvoy f ch idx { v with cwnd := arg % 2 ^ 24, askedEcn := false }) ch 0)) ∧
    (taken 6 → let g := setChannel f ch { x with convoys := x.convoys.map fun v => (v.1, { v.2 with askedRec := false }) }
      ((convoyOf g ch idx).recs.all (·.spilled) = true → Completes (.chnSpill ch) s (cmdDone g ch 0)) ∧
      ((convoyOf g ch idx).recs.all (·.spilled) = false →
        (∀ e, spillConvoy g ch idx = some e → Completes (.chnSpill ch) s (cmdDone e ch 0)) ∧
        (spillConvoy g ch idx = none → Completes (.chnSpill ch) s (cmdDone (setFlag g (chnOff ch 5) 6) ch 0)))) ∧
    (taken 7 → Completes (.chnRingHead ch) s
      (cmdDone (drainHeld (v.held.length + 1) (setConvoy f ch idx { v with ringHead := arg % 2 ^ 32 }) ch idx) ch 0)) ∧
    (taken 8 → Completes (.chnRedDone ch) s (cmdDone (reduceDone f ch idx (arg % 2 ^ 32)) ch 0)) ∧
    (taken 9 → Completes (.chnHreqHead ch) s
      (cmdDone (flushHreq (x.hreqWait.length + 1) (setChannel f ch { x with hreqHead := arg % 2 ^ 32 }) ch) ch 0)) ∧
    (taken 10 →
      (argOk f (chanPart f ch) arg 32 32 = false → Completes (.chnProbe ch) s (cmdDone f ch 2)) ∧
      (argOk f (chanPart f ch) arg 32 32 = true → v.st ≠ .open_ ∨ idx = 0 → Completes (.chnProbe ch) s (cmdDone f ch 1)) ∧
      (argOk f (chanPart f ch) arg 32 32 = true → v.st = .open_ → idx ≠ 0 → linkUp f ch = true →
        ∃ e, Completes (.chnProbe ch) s e ∧ (chanOf e ch).probe = some ⟨idx, arg, reg64 f hdAcntOff⟩ ∧
          let m := control ch idx v.peer 0x14 0 (reg64 f hdAcntOff) 0
          (chanOf e ch).tx = x.tx ++ [.ctp m (frameOf f ch idx m)]))

/-- O39. RX_PEAL_ARM, RX_PEAL_ARM_ACK, RX_PEAL_STRIKE and RX_PEAL_ABORT accepted in sequence from their peer, in hardware
mode: ARM on the parent convoy of an INSTALLED slot of its epoch starts the arm phase, and for a slot in another state
or epoch is answered as refused; an answer counts once for its child in the wait, and after the wait is answered with
PEAL_ABORT; STRIKE of an ARMED slot with no strike due acts at its time (at once with f_late where that has passed),
and sets f_open on a hop without cadence; ABORT ends an ARMED slot as ABORTED; other epochs and states are stray.
Completes by its own effect (exec = next): rxPealArm, rxPealArmAck, rxPealStrike, rxPealAbort. -/
def Obligations.PealMessages : Prop :=
  ∀ (s : State) (ch sl : Nat) (r : RxMsg), ch < 48 →
    let d := s.dev
    let idx := r.m.dst
    let v := convoyOf d ch idx
    let e := readOut (acceptMsg d ch idx r) ch r
    let x := pealOf e sl
    let ok := fun typ => readable d ch typ r = true ∧ r.m.ackv = false ∧ r.ce = false ∧ v.st = .open_ ∧ fromPeer d ch v r = true ∧
      rqUsed d ch r.m.cls + msgWords r.m ≤ rqCap r.m.cls ∧ r.m.psn = v.rcvNxt ∧ (∀ q ∈ v.held, q.reduce = true) ∧
      pealSlot? e r = some sl ∧ pealToHost e ch typ (some sl) = false
    let acked := fun f => acknowledge (setConvoy f ch idx { convoyOf f ch idx with held := v.held }) ch idx r.m false false
    (ok 0x10 →
      (x.state ≠ 1 ∨ sameEpoch x r = false → Completes (.rxPealArm ch r) s (acked (pealRefuse e ch idx (pealNode x) r))) ∧
      (x.state = 1 → sameEpoch x r = true → hasParent x = true → parentConvoy x = (ch, idx) →
        Completes (.rxPealArm ch r) s (acked (pealArms e sl)))) ∧
    (ok 0x11 →
      (∀ i, (pealChildren x).find? (fun i => childConvoy x i == (ch, idx)) = some i →
        (x.state = 2 → sameEpoch x r = true → i ∉ x.ackd → i ∉ x.answered →
          Completes (.rxPealArmAck ch r) s (acked (pealIfIn (setPeal e sl (pealCount x i r)) sl)) ∧
          (pealAt r 10 1 = 0 → (pealCount x i r).ackd = x.ackd ++ [i] ∧
            (pealCount x i r).sumArmed = x.sumArmed + pealAt r 12 4 ∧ (pealCount x i r).sumLost = x.sumLost + pealAt r 16 4) ∧
          (pealAt r 10 1 ≠ 0 → (pealCount x i r).ackd = x.ackd ∧ (pealCount x i r).answered = x.answered ++ [i])) ∧
        (3 ≤ x.state → sameEpoch x r = true → i ∉ x.ackd →
          Completes (.rxPealArmAck ch r) s (acked (sendPeal e ch idx 0x13 (pealPlain x 0)))) ∧
        (x.state = 1 ∨ sameEpoch x r = false ∨ i ∈ x.ackd → Completes (.rxPealArmAck ch r) s (acked (pealStray e sl)))) ∧
      ((pealChildren x).find? (fun i => childConvoy x i == (ch, idx)) = none →
        Completes (.rxPealArmAck ch r) s (acked (pealStray e sl)))) ∧
    (∀ broken, ok 0x12 →
      (x.state = 3 → sameEpoch x r = true → x.due = none →
        let f := if broken || r.m.retx || !cadenceHop e ch then setFlag e (pealOff sl 5) 1 else e
        Completes (.rxPealStrike ch r broken) s (acked (pealStrikes f sl (pealAt r 20 4))) ∧
        (pealAt r 20 4 ≤ ((pealDepth x).2 - (pealDepth x).1) * 2176 →
          (pealOf (pealStrikes f sl (pealAt r 20 4)) sl).due = some (pealAt r 20 4))) ∧
      (x.state ≠ 3 ∨ sameEpoch x r = false ∨ x.due ≠ none →
        Completes (.rxPealStrike ch r broken) s (acked (pealStray e sl)))) ∧
    (ok 0x13 →
      (x.state = 3 → sameEpoch x r = true → Completes (.rxPealAbort ch r) s (acked (pealAborts e sl 5)) ∧
        (pealOf (pealAborts e sl 5) sl).state = 5) ∧
      (x.state ≠ 3 ∨ sameEpoch x r = false → Completes (.rxPealAbort ch r) s (acked (pealStray e sl))))

/-- O40. For each op of PEAL.CMD taken on one of the 16 slots: INSTALL of a good descriptor at a usable address makes an
IDLE slot INSTALLED with its 32 words; ARM at the root of an INSTALLED slot starts the arm phase; CANCEL at an ARMING
root makes its decision abort; UNINSTALL empties the slot; SEND puts one peal message on its convoy and sets f_open;
while the slot is ARMING or ARMED every op but CANCEL ends with STATE, and a bad address with XLAT. PEAL_ARM_WAIT_END
ends an arm phase; PEAL_ACTION_TIME strikes the slot; PEAL_HOLD_EXPIRY of an ARMED slot makes it EXPIRED with its
flag. Completes by its own effect (exec = next): pealInstall, pealCmdArm, pealCancel, pealUninstall, pealCmdSend,
pealArmWaitEnd, pealActionTime, pealHoldExpiry. -/
def Obligations.PealCommandsAndTimers : Prop :=
  (∀ (s : State) (slot : Nat),
    let d := s.dev
    let o := pealOff slot 0
    let f := applyField (applyPair d (pealOff slot 1)) o allBits
    let a := (reg64 f (pealOff slot 1)).toNat
    let x := pealOf d slot
    let taken := fun op => slot < 16 ∧ cmdPending d o = true ∧ fld (bufferedVal d o) 2 0 = op
    let refused := fun i => Completes i s (pealEnd f slot 1)
    (∀ i op, (i, op) ∈ [(Instr.pealInstall slot, 1), (Instr.pealCmdArm slot, 2), (Instr.pealUninstall slot, 4),
        (Instr.pealCmdSend slot, 5)] → taken op → x.state = 2 ∨ x.state = 3 → refused i) ∧
    (taken 1 → x.state ≠ 2 → x.state ≠ 3 →
      let y := { x with
        state := 1, words := (List.range 32).map fun i => BitVec.ofNat 64 (valAt f (a + 8 * i) 8)
        answered := [], ackd := [], cancel := false, due := none, host := false }
      (argOk f 0 a 256 64 = false → Completes (.pealInstall slot) s (pealEnd f slot 2)) ∧
      (argOk f 0 a 256 64 = true →
        (x.state = 0 → pealFits f y = true → Completes (.pealInstall slot) s (pealEnd (setPeal f slot y) slot 0)) ∧
        (x.state ≠ 0 ∨ pealFits f y = false → refused (.pealInstall slot)))) ∧
    (taken 2 → x.state ≠ 2 → x.state ≠ 3 →
      (x.state = 1 → hasParent x = false → Completes (.pealCmdArm slot) s (pealArms (pealEnd f slot 0) slot)) ∧
      (x.state ≠ 1 ∨ hasParent x = true → refused (.pealCmdArm slot))) ∧
    (taken 3 →
      (x.state = 2 → hasParent x = false →
        Completes (.pealCancel slot) s (pealEnd (setPeal f slot { x with cancel := true }) slot 0)) ∧
      (x.state ≠ 2 ∨ hasParent x = true → refused (.pealCancel slot))) ∧
    (taken 4 → x.state ≠ 2 → x.state ≠ 3 → ∃ e, Completes (.pealUninstall slot) s e ∧
      pealOf e slot = { x with state := 0, words := [], host := false } ∧ ∀ t, t ≠ slot → pealOf e t = pealOf d t) ∧
    (taken 5 → x.state = 0 →
      let c := regFld f o 24 6
      let ch := c / 8192
      let idx := c % 8192
      let typ := valAt f a 8 / 16 % 64
      argOk f 0 a 64 64 = true → idx ≠ 0 → 0x10 ≤ typ → typ ≤ 0x13 → takesTx f (ch, idx) = true →
      ∃ e m, Completes (.pealCmdSend slot) s e ∧
        (convoyOf e ch idx).sendq = (convoyOf f ch idx).sendq ++ [{ msg := m, owner := .none, src := [] }] ∧
        m.typ = typ ∧ m.cls = 0 ∧ m.last = true ∧ m.data = bytesAt f (a + 32) 32)) ∧
  ∀ (s : State) (slot : Nat),
    let x := pealOf s.dev slot
    (x.state = 2 → Completes (.pealArmWaitEnd slot) s (pealArmEnds s.dev slot)) ∧
    (∀ t, x.state = 3 → x.due = some t → ∃ e, Completes (.pealActionTime slot) s e ∧
      pealOf e slot = { x with state := 4, due := none } ∧
      e.gg.upd = s.dev.gg.upd ++ if pealFld x 4 17 17 = 1 ∧ cdFitted s.dev.variant (gongCd (pealFld x 4 16 0)) = true then
        [⟨pealFld x 4 16 0, .add, 1, 3, .host, 0⟩] else []) ∧
    (slot < 16 → x.state = 3 → x.due = none → ∃ e, Completes (.pealHoldExpiry slot) s e ∧
      (pealOf e slot).state = 6 ∧ flag e (pealOff slot 5) 3 = true)

/-- O41. ROOTCLK_LOSS: every die has holdover 1, lock 0 and its flag; all 48 links are DOWN; ALERT flag 2 and a health
event. ROOTCLK_RETURN: holdover 0, lock 1 and cycle counters 0 where holdover was 1 (that it is a new lock in the
sense of R475 is the model's reading, log entry 43). PLL_UNLOCK stops the die's clocks, nothing else.
FLIGHT_MEASUREMENT of a direct UP link: its flight capped at 4,095, valid, above or within 680. LEVEL_SATURATION: the
`sat` bit of the class, the flag and the chime of the level. Other registers of the same kind stay. Completes by its
own effect (exec = next): rootclkLoss, rootclkReturn, pllUnlock, flightMeasurement, levelSaturation. -/
def Obligations.ReferenceAndLevels : Prop :=
  ∀ (s : State),
    let d := s.dev
    (regFld d (clkOff 4 0) 3 3 ≠ 1 → ∃ e, Completes .rootclkLoss s e ∧
      (∀ c ∈ dies d, fld (regRaw e (clkOff c 0)) 3 3 = 1 ∧ fld (regRaw e (clkOff c 0)) 2 2 = 0 ∧ flag e (clkOff c 1) 0 = true) ∧
      (∀ ch, ch < 48 → (chanOf e ch).link = 0) ∧ flag e (pwrOff 7) 2 = true ∧ Told d e 3 5 0) ∧
    (∃ e, Completes .rootclkReturn s e ∧
      e = { d with rg := e.rg, tr := e.tr, pw := { d.pw with acnt := e.pw.acnt, phase := e.pw.phase } } ∧ ∀ c ∈ dies d,
      (regFld d (clkOff c 0) 3 3 = 0 → regRaw e (clkOff c 0) = regRaw d (clkOff c 0)) ∧
      (regFld d (clkOff c 0) 3 3 = 1 → fld (regRaw e (clkOff c 0)) 3 3 = 0 ∧ fld (regRaw e (clkOff c 0)) 2 2 = 1 ∧
        reg64 e (clkOff c 2) = 0 ∧ reg64 e (clkOff c 4) = 0 ∧
        ∀ i, i ≠ 2 → i ≠ 3 → bit (regRaw e (clkOff c 0)) i = bit (regRaw d (clkOff c 0)) i)) ∧
    (∀ die ∈ dies d, die ∉ d.pw.stopped → ∃ e, Completes (.pllUnlock die) s e ∧
      e = { d with rg := e.rg, pw := { d.pw with stopped := d.pw.stopped ++ [die] } } ∧
      fld (regRaw e (clkOff die 0)) 2 2 = 0 ∧ ∀ o, o ≠ clkOff die 0 → regRaw e o = regRaw d o) ∧
    (∀ ch f, (chanOf d ch).link = 2 → isDirect d ch = true → ∃ e, Completes (.flightMeasurement ch f) s e ∧
      e = { d with rg := e.rg } ∧
      (let v := regRaw e (hopOff ch);
        fld v 11 0 = min 4095 f ∧ bit v 12 = true ∧ bit v 13 = decide (680 < f) ∧ bit v 14 = decide (f ≤ 680)) ∧
      ∀ o, o ≠ hopOff ch → regRaw e o = regRaw d o) ∧
    ∀ level cls, level < 4 → cls < 4 → regFld d (lvlOff level 1) cls cls = 0 → ∃ e, Completes (.levelSaturation level cls) s e ∧
      (∀ i, bit (regRaw e (lvlOff level 1)) i = if i = cls then true else bit (regRaw d (lvlOff level 1)) i) ∧
      flag e (lvlOff level 2) 0 = true ∧ Chimed e (4812 + level)

/-- O42. RAIL_TELEMETRY with one sample for each rail: RAIL.TEL holds the three values of each, clamped; for VIN also
PWR.POWER measured. ENERGY_ESTIMATE of a die: the queues' toll counters and the shared one grow by their charges; the
die stretches for current exactly when its current is above its rail's present limit, other dies as before, and CLK
shows the stretch for droop or current. CALIBRATION_FIT in a powered package: gain and offset are stored for an
accepted fit; a fit out of 0.75 to 1.33 or not close leaves them and sets f_cal. Completes by its own effect (exec =
next): railTelemetry, energyEstimate, calibrationFit. -/
def Obligations.TelemetryAndEstimates : Prop :=
  ∀ (s : State),
    let d := s.dev
    (∀ samples, (samples.map (·.rail)).Nodup → (∀ x ∈ samples, x.rail < 13) → ∃ e, Completes (.railTelemetry samples) s e ∧
      e = { d with rg := e.rg } ∧
      (∀ x ∈ samples,
        (let v := regRaw e (railOff x.rail 0);
          fld v 11 0 = min 4095 x.volts ∧ fld v 23 12 = min 4095 x.amps ∧ fld v 31 24 = min 255 x.temp) ∧
        (x.rail = 12 → fld (regRaw e (pwrOff 6)) 31 16 = min 0xFFFF (x.volts * x.amps / 100))) ∧
      ∀ r, r < 13 → (∀ x ∈ samples, x.rail ≠ r) → regRaw e (railOff r 0) = regRaw d (railOff r 0)) ∧
    (∀ (die : Nat) (charges : Charges) (amps : Nat), die ∈ dies d → (∀ x ∈ charges.queues, x.1 < 4096) →
      (∀ x ∈ charges.parts, x.1 < 16) → (∀ o, offUnit o = 0x21 → Sparse.get noVotes d.rg.votes o = {}) →
      ∃ e, Completes (.energyEstimate die charges amps) s e ∧
        (∀ c, c ∈ e.pw.edc ↔ if c = die then railLimit d (railOfDie die) < amps else c ∈ d.pw.edc) ∧
        (fld (regRaw e (clkOff die 0)) 5 5 = 1 ↔ droopOf d die ≠ 0 ∨ railLimit d (railOfDie die) < amps) ∧
        reg64 e (tollPart 16) = reg64 d (tollPart 16) + BitVec.ofNat 64 charges.shared ∧
        ∀ q, q < 4096 → reg64 e (tollQueue q) = reg64 d (tollQueue q) +
          BitVec.ofNat 64 ((charges.queues.filter fun x => x.1 == q).map (·.2)).sum) ∧
    ∀ fits, powered d = true → (fits.map (·.rail)).Nodup → (∀ x ∈ fits, x.rail < 12) → ∃ e, Completes (.calibrationFit fits) s e ∧
      ∀ x ∈ fits,
        (12288 ≤ x.gain → 100 * x.gain ≤ 133 * 16384 → x.close = true →
          (let v := regRaw e (railOff x.rail 1);
            fld v 15 0 = x.gain ∧ fld v 31 16 = wrapInt 16 x.offset)) ∧
        (x.gain < 12288 ∨ 133 * 16384 < 100 * x.gain ∨ x.close = false →
          regRaw e (railOff x.rail 1) = regRaw d (railOff x.rail 1) ∧ flag e (pwrOff 8) 0 = true)

/-- O43. DROOP_TRIP and DROOP_RELEASE of a detector the die has: that detector's mark is set or cleared, other marks stay,
and CLK shows the stretch. THERMAL_CRITICAL: the setting decided is OP 3 with k = 1, reason THERM, flag, chime and
health event. THERMTRIP of a powered package stops it with cause 4. PHASE_SHED of a rail with a phase left: one more
phase lost, ALERT flag 3 and the health event. Completes by its own effect (exec = next): phaseShed, droopTrip,
droopRelease, thermalCritical, thermtrip. -/
def Obligations.FastLimits : Prop :=
  ∀ (s : State),
    let d := s.dev
    (∀ die det, die ∈ dies d → det < detectors die →
      (∃ e, Completes (.droopTrip die det) s e ∧
        (∀ i, (droopOf e die).testBit i = (decide (i = det) || (droopOf d die).testBit i)) ∧
        (∀ c, c ≠ die → droopOf e c = droopOf d c) ∧ fld (regRaw e (clkOff die 0)) 5 5 = 1) ∧
      ∃ e, Completes (.droopRelease die det) s e ∧
        (∀ i, i < 8 → (droopOf e die).testBit i = (!decide (i = det) && (droopOf d die).testBit i)) ∧
        (∀ c, c ≠ die → droopOf e c = droopOf d c) ∧
        (fld (regRaw e (clkOff die 0)) 5 5 = 1 ↔ droopOf e die ≠ 0 ∨ die ∈ d.pw.edc)) ∧
    (∀ die sensor, die ∈ dies d → (d.pw.change = none → d.pw.next = none) →
      ∃ e, Completes (.thermalCritical die sensor) s e ∧ present e = (3, 1) ∧ e.pw.crit = true ∧
        e.pw.why = d.pw.why ||| 4 ∧ flag e (pwrOff 7) 1 = true ∧ Chimed e 4818 ∧ Told d e 9 die sensor) ∧
    (∀ die sensor, powered d = true → ∃ e, Completes (.thermtrip die sensor) s e ∧ Stopped d e 4) ∧
    ∀ rail, rail < 12 → railLost d rail < (railTable rail).1 → ∃ e, Completes (.phaseShed rail) s e ∧
      (∀ r, railLost e r = if r = rail then railLost d r + 1 else railLost d r) ∧
      flag e (pwrOff 7) 3 = true ∧ Told d e 2 5 rail

/-- O44. WAKE_ASSERT in Dormant with AUX powers the waystation, with no volatile content left, or is held while VIN is
low; otherwise nothing changes. AUX_LOSS clears cause and held wake; AUX_RETURN restores AUX. VIN_OVER and VIN_UNDER
stop a powered package with causes 3 and 2. VIN_SAG and HOLDUP_ASSERT brace a running package, once. VIN_RISE lets a
held WAKE act. VIN_LEAVES_NORMAL_RANGE sets ALERT flag 5. HOLDUP_DEASSERT clears the pin. BRACE_WINDOW_CLOSE closes
the window and takes end action 0 (nothing), 1 (Rest) or 2 (stop, cause 5). Completes by its own effect (exec = next):
wakeAssert, vinOver, vinUnder, vinSag, holdupAssert, braceWindowClose, auxLoss, auxReturn, vinRise,
vinLeavesNormalRange, holdupDeassert. -/
def Obligations.SupplyTrouble : Prop :=
  ∀ (s : State),
    let d := s.dev
    let only := fun i (p : Power) => Completes i s { d with pw := p }
    let wakes := fun (e : Dev) (vin : VinRange) => e.pw.vpm = true ∧ e.pw.on = false ∧ e.pw.wakeHeld = false ∧ e.pw.aux = d.pw.aux ∧
      e.pw.vin = vin ∧ e.fl = d.fl ∧ e.mg.operator = d.mg.operator ∧ e.rg = (Dev.dark d.variant d.fl).rg ∧ e.mem.bytes = []
    (powered d = true ∨ d.pw.aux = false → Completes .wakeAssert s d) ∧
    (powered d = false → d.pw.aux = true →
      (d.pw.vin = .normal ∨ d.pw.vin = .high → ∃ e, Completes .wakeAssert s e ∧ wakes e d.pw.vin) ∧
      (d.pw.vin = .low ∨ d.pw.vin = .sag → only .wakeAssert { d.pw with wakeHeld := true })) ∧
    only .auxLoss { d.pw with aux := false, cause := 0, wakeHeld := false } ∧
    only .auxReturn { d.pw with aux := true } ∧
    only .holdupDeassert { d.pw with holdup := false } ∧
    (powered d = false → only .vinOver { d.pw with vin := .high } ∧ only .vinUnder { d.pw with vin := .sag } ∧
      ∀ high, only (.vinLeavesNormalRange high) { d.pw with vin := if high then .high else .low }) ∧
    (powered d = true →
      (∃ e, Completes .vinOver s e ∧ Stopped d e 3 ∧ e.pw.vin = .high) ∧
      (∃ e, Completes .vinUnder s e ∧ Stopped d e 2 ∧ e.pw.vin = .sag) ∧
      ∀ high, ∃ e, Completes (.vinLeavesNormalRange high) s e ∧ e.pw = { d.pw with vin := if high then .high else .low } ∧
        flag e (pwrOff 7) 5 = true) ∧
    (d.pw.on = false ∨ d.pw.brace.isSome = true → ∃ e, Completes .vinSag s e ∧ e.pw = { d.pw with vin := .sag }) ∧
    (d.pw.on = true → d.pw.brace = none → ∃ e, Completes .vinSag s e ∧ Braced d e false ∧ e.pw.vin = .sag) ∧
    (d.pw.wakeHeld = true → powered d = false → ∃ e, Completes .vinRise s e ∧ wakes e .normal) ∧
    (d.pw.wakeHeld = false ∨ powered d = true → only .vinRise { d.pw with vin := .normal }) ∧
    (d.pw.aux = false → Completes .holdupAssert s d) ∧
    (d.pw.aux = true → d.pw.on = false ∨ d.pw.brace.isSome = true → only .holdupAssert { d.pw with holdup := true }) ∧
    (d.pw.aux = true → d.pw.on = true → d.pw.brace = none →
      ∃ e, Completes .holdupAssert s e ∧ Braced d e true ∧ e.pw.holdup = true) ∧
    ∀ b, d.pw.brace = some b → b.window = true →
      let shut := { d.pw with brace := some { b with window := false } }
      (regFld d (pwrOff 3) 29 28 = 0 → only .braceWindowClose shut) ∧
      (regFld d (pwrOff 3) 29 28 = 1 → ∃ e, Completes .braceWindowClose s e ∧ e.pw.brace = shut.brace ∧
        (pwrState d ≤ 1 → fld (regRaw e (pwrOff 1)) 6 4 = 3) ∧ (pwrState d = 4 → e.pw.restLater = true)) ∧
      (regFld d (pwrOff 3) 29 28 = 2 → ∃ e, Completes .braceWindowClose s e ∧ Stopped d e 5)

/-- O45. With a write of PWR.STATE waiting and its target applied: RUN leaves REST or ENTERING_REST for LEAVING_REST; REST
enters ENTERING_REST from RUN or IDLE; DORMANT gives ENTERING_DORMANT, a health event and all links DOWN, and
DORMANT_STOP then stops with cause 1. TILE_RETENTION of an idle tile in ENTERING_REST retains it, and the last one
reaches REST; REST_ENTRY_TIMEOUT returns to RUN with its flag and no tile retained; RETENTION_EXIT_DONE takes every
tile out and reaches RUN or ENTERING_REST. SELF_REFRESH_ENTRY marks a channel in REST. IDLE_ENTRY enters IDLE from RUN
when nothing is busy. Completes by its own effect (exec = next): pwrStateRun, pwrStateRest, pwrStateDormant,
dormantStop, tileRetention, restEntryTimeout, retentionExitDone, selfRefreshEntry, idleEntry. -/
def Obligations.PowerStates : Prop :=
  ∀ (s : State),
    let d := s.dev
    let b := boundary d (offInstance (pwrOff 0)) stateBits
    let st := fun (e : Dev) => fld (regRaw e (pwrOff 1)) 6 4
    let target := fun t => targetWaits d = true ∧ regFld b (pwrOff 1) 1 0 = t
    (target 0 → ∃ e, Completes .pwrStateRun s e ∧ e.pw = { b.pw with restLater := false } ∧
      st e = if pwrState b = 2 ∨ pwrState b = 3 then 4 else st b) ∧
    (target 1 → ∃ e, Completes .pwrStateRest s e ∧
      (pwrState b ≤ 1 → st e = 3) ∧ (pwrState b = 4 → e = { b with pw := { b.pw with restLater := true } }) ∧
      (pwrState b = 2 ∨ pwrState b = 3 → e = b)) ∧
    (target 2 → ∃ e, Completes .pwrStateDormant s e ∧ st e = 5 ∧ Told b e 0x0A 5 0 ∧ ∀ ch, ch < 48 → (chanOf e ch).link = 0) ∧
    (pwrState d = 5 → ∃ e, Completes .dormantStop s e ∧ Stopped d e 1) ∧
    (∀ cd tile, pwrState d = 3 → cdFitted d.variant cd = true → tile < 180 → (tileOf d cd tile).blocks = [] →
      movesTouch d cd tile = false →
      let f := setTile d cd tile { tileOf d cd tile with retention := true }
      ∃ e, Completes (.tileRetention cd tile) s e ∧ e = { f with rg := e.rg } ∧
        (allRetained f = false → e = f) ∧ (allRetained f = true → st e = 2)) ∧
    (pwrState d = 3 → ∃ e, Completes .restEntryTimeout s e ∧ st e = 0 ∧ flag e (pwrOff 8) 1 = true ∧
      ∀ c t, cdFitted d.variant c = true → t < 180 → tileOf e c t = { tileOf d c t with retention := false }) ∧
    (pwrState d = 4 → ∃ e, Completes .retentionExitDone s e ∧ st e = (if d.pw.restLater then 3 else 0) ∧
      e.pw = { d.pw with restLater := false } ∧
      (∀ c t, cdFitted d.variant c = true → t < 180 → tileOf e c t = { tileOf d c t with retention := false }) ∧
      ∀ c, c < 4 → ftOf e c = { ftOf d c with selfRefresh := [] }) ∧
    (∀ cd chan, pwrState d = 2 → cdFitted d.variant cd = true → chanState d cd chan ≤ 1 →
      ∃ e, Completes (.selfRefreshEntry cd chan) s e ∧ e = { d with mem := { d.mem with ft := e.mem.ft } } ∧
        Sparse.get hwScrub (ftOf e cd).selfRefresh chan = true ∧ ∀ c, c ≠ cd → ftOf e c = ftOf d c) ∧
    (pwrState d = 0 → busy d = false → ∃ e, Completes .idleEntry s e ∧ e = { d with rg := e.rg } ∧ st e = 1) ∧
    (pwrState d ≠ 0 ∨ busy d = true → Completes .idleEntry s d)

/-- O46. POWER_CONTROL_STEP with its readings taken: the setting decided is no faster than any limit and than the asked
one; when the prediction at the present setting is above the cap, it fits the cap or is OP 3, k = 1, and every faster
setting of the governor's order is above the cap; CAPFLOOR is entered with flag, chime and health event.
VOLTAGE_SETTLED readies a rising change; DIVISOR_CHANGE opens the gap on every die; DIVISOR_CHANGE_COMPLETE applies
the setting, clears the gap, sets the flags and gates tiles for slot 0. REST_SLOT_BOUNDARY advances the slot, applies
the level and gates the tiles of its CD. Completes by its own effect (exec = next): divisorChange,
divisorChangeComplete, powerControlStep, voltageSettled, restSlotBoundary. -/
def Obligations.GovernorSteps : Prop :=
  ∀ (s : State),
    let d := s.dev
    (∀ l : StepLoad,
      let b := (stepStart d l).1
      let edc := (stepStart d l).2
      (b.pw.change = none → b.pw.next = none) →
      ∃ e, Completes (.powerControlStep l) s e ∧
        rank (asked b l).1 ≤ rank (present e) ∧ (∀ x ∈ limits b l edc, rank x.bound ≤ rank (present e)) ∧
        (present e = (asked b l).1 ∨ ∃ x ∈ limits b l edc, present e = x.bound) ∧
        (hostPower b = false → limits b l edc = [] → b.pw.why.testBit 7 = false → effectiveCap b < predOf l (present b) →
          (predOf l (present e) ≤ effectiveCap b ∨ present e = (3, 1)) ∧
          (∀ op, op ≤ 3 → rank (op, 16) < rank (present e) → effectiveCap b < predOf l (op, 16)) ∧
          (∀ k, 1 ≤ k → k ≤ 15 → rank (3, k) < rank (present e) → effectiveCap b < predOf l (3, k))) ∧
        ((asked b l).2.2 = true → e.pw.why.testBit 7 = true ∧
          (b.pw.why.testBit 7 = false → flag e (pwrOff 7) 0 = true ∧ Chimed e 4817 ∧ Told b e 0x0E 5 0)) ∧
        e.pw.brace = b.pw.brace ∧
        (d.pw.brace.isSome = true → d.pw.holdup = false → d.pw.vin = .normal ∨ d.pw.vin = .high → l.vinSteady = true →
          e.pw.brace = none ∧ Chimed e 4816)) ∧
    (∀ c, d.pw.change = some c →
      (c.stage = .rising → Completes .voltageSettled s { d with pw := { d.pw with change := some { c with stage := .ready } } }) ∧
      (c.stage = .ready → ∃ e, Completes .divisorChange s e ∧
        e = { d with rg := e.rg, pw := { d.pw with change := some { c with stage := .gap } } } ∧
        ∀ die ∈ dies d, fld (regRaw e (clkOff die 0)) 4 4 = 1) ∧
      (c.stage = .gap → ∀ misses, ∃ e, Completes (.divisorChangeComplete misses) s e ∧
        (∀ die ∈ dies d, fld (regRaw e (clkOff die 0)) 4 4 = 0 ∧ fld (regRaw e (clkOff die 0)) 1 0 = c.op % 4 ∧
          flag e (clkOff die 1) 2 = true) ∧
        (∀ i, i < 4 → levelOf e i = c.k) ∧ e.pw.slot = [] ∧
        (d.pw.next = none → e.pw.op = c.op ∧ e.pw.k = c.k ∧ e.pw.change = none) ∧
        (∀ x, d.pw.next = some x → present e = x) ∧
        ∀ i t, cdFitted d.variant i = true → t < 180 → (tileOf e i t).gated = !clocked 0 t (tileLevel e i t))) ∧
    ∀ cd, cdFitted d.variant cd = true → ∃ e, Completes (.restSlotBoundary cd) s e ∧
      let n := (Sparse.get zeroCnt d.pw.slot cd + 1) % 16
      Sparse.get zeroCnt e.pw.slot cd = n ∧ levelOf e cd = d.pw.k ∧
        (∀ c, c ≠ cd → levelOf e c = levelOf d c) ∧
        (∀ t, t < 180 → tileOf e cd t = { tileOf d cd t with gated := !clocked n t (min d.pw.k (partLevel d (tilePart d cd t))) }) ∧
        ∀ c t, tileKey c t < tileKey cd 0 ∨ tileKey cd 180 ≤ tileKey c t → tileOf e c t = tileOf d c t

/-- O47. For a port in UP or DEGRADED: MARKER_BEAT switches the agreed steerings, at the other end too, and holds the
release point it is told; with no bad wire nothing else of its wires changes; a wire that mismatches less than four
times in a row is counted; at the fourth, if it is not retired yet, the bundle goes out of service where it is the
ninth retired wire, else the wire is to be steered (hardware) or waits for the host with the port's chime. BEAT_REPLAY
counts, with a cadence miss at the peer where the beat was on a cadence path. BUNDLE_CLOCK_LOSS takes the bundle out.
Fewer than four bundles in service: FAILED; fewer than eight: DEGRADED. Completes by its own effect (exec = next):
markerBeat, beatReplay, bundleClockLoss. -/
def Obligations.PortTraffic : Prop :=
  ∀ (s : State) (die inst : Nat), isPort s.dev die inst = true →
    let d := s.dev
    let p := portOf d die inst
    let settled := fun (e : Dev) => (portOf e die inst).state =
      if popNat 8 (bundlesUp e die inst) < 4 then 6 else if bundlesUp e die inst ≠ 255 then 3 else p.state
    p.state = 2 ∨ p.state = 3 →
    (∀ bad relOk late,
      let sw := switchSpares p
      let o := peerPort die inst
      let g := setBothEnds d die inst sw (dueSteers p)
      let f := applyCtrl g die inst 0xFF8
      ∃ e, Completes (.markerBeat die inst bad relOk late) s e ∧
        let q := portOf e die inst
        q.relOk = relOk ∧ q.quiet = sw.quiet ∧ settled e ∧
        (bad = [] → q.miss = [] ∧ q.spares = sw.spares ∧ q.todo = sw.todo ∧ q.good = p.good ∧ q.waiting = sw.waiting) ∧
        (portUp d o.1 o.2 = true → ∀ t ∈ dueSteers p, t.1 ∈ (portOf e o.1 o.2).quiet) ∧
        ∀ b w near, bad = [(b, w, near)] → b < 8 → w < bundleWires die inst → (bundlesUp f die inst).testBit b = true →
          let n := Sparse.get zeroOf p.miss (b * 256 + w) + 1
          let auto := regFld f (d2dOff die inst 1) 3 3
          let used := sparesTaken sw b ||| sparesTaken (portOf g o.1 o.2) b
          (n < 4 → Sparse.get zeroOf q.miss (b * 256 + w) = n ∧ q.todo = sw.todo ∧ q.waiting = sw.waiting ∧ q.good = p.good) ∧
          (4 ≤ n → (∀ t ∈ sw.todo, t.1 = b → t.2.1 ≠ w) → (auto = 0 → (b, w) ∉ sw.waiting) →
            (8 ≤ popNat 8 used + (if auto = 1 then 0 else waitingOf sw b) → q.good = p.good &&& (255 - 1 <<< b)) ∧
            (popNat 8 used + (if auto = 1 then 0 else waitingOf sw b) < 8 →
              (auto = 1 → q.todo = sw.todo ++ [(b, w, pickSpare used near)]) ∧
              (auto = 0 → q.waiting = sw.waiting ++ [(b, w)] ∧ Chimed e (portChime die inst))))) ∧
    (∀ cadence, ∃ e, Completes (.beatReplay die inst cadence) s e ∧
      portOf e die inst = { p with replays := p.replays + 1 } ∧
      (cadence = true → flag e (regOff (peerPort die inst).1 0x1B 0 1) 0 = true) ∧ (cadence = false → e.rg = d.rg)) ∧
    ∀ b, b < 8 → ∃ e, Completes (.bundleClockLoss die inst b) s e ∧
      (4 ≤ popNat 8 (bundlesUp e die inst) → e = { d with ports := e.ports }) ∧
      (portOf e die inst).good = p.good &&& (255 - 1 <<< b) ∧ settled e

/-- O48. PORT_TRAINING of a DOWN port of a locked die: TRAINING with one attempt, or NODIE at an empty site. PORT_TRAINED:
nothing while it faces LOOPBACK; VERSION where a port does not reach the governing version; else the version, the
peer's kind and the sound bundles, with a spare for a failed wire. TRAINING_ATTEMPT_TIMEOUT counts an attempt; the
third makes the port FAILED unless it faces LOOPBACK, where LOOPBACK_PEER_RETRY starts the count again. D2D_LOOPBACK,
D2D_RETRAIN and D2D_STEER apply their buffered bits: LOOPBACK or DOWN, a new training, and at both ends a spare in use
for the named wire, or the fields alone where `go` is 0. Completes by its own effect (exec = next): portTraining,
portTrained, trainingAttemptTimeout, loopbackPeerRetry, d2dLoopback, d2dRetrain, d2dSteer. -/
def Obligations.PortTraining : Prop :=
  ∀ (s : State) (die inst : Nat), isPort s.dev die inst = true →
    let d := s.dev
    let p := portOf d die inst
    let o := d2dOff die inst
    let becomes := fun i (q : Port) => ∃ e, Completes i s e ∧ portOf e die inst = q
    (let f := relock d die
     let x := portOf f die inst
     x.state = 0 → regFld f (clkOff die 0) 2 2 = 1 →
      (facesEmpty f die inst = true → Completes (.portTraining die inst) s (setPort f die inst { x with state := 5 })) ∧
      (facesEmpty f die inst = false → becomes (.portTraining die inst)
        { state := 1, attempts := 1, errs := x.errs, replays := x.replays })) ∧
    (p.state = 1 → facesLoop d die inst = true → ∀ ident bad clocks relOk,
      Completes (.portTrained die inst ident bad clocks relOk) s d) ∧
    (p.state = 1 → facesLoop d die inst = false → ∀ (ident : Ident) bad clocks relOk,
      let v := min ident.hi ident.peerHi
      (v < ident.lo ∨ v < ident.peerLo → becomes (.portTrained die inst ident bad clocks relOk)
        { p with state := 7, attempts := 0, peerKind := ident.kind }) ∧
      (ident.lo ≤ v → ident.peerLo ≤ v → ∃ e, Completes (.portTrained die inst ident bad clocks relOk) s e ∧
        let q := portOf e die inst
        q.state = (if popNat 8 (bundlesUp e die inst) < 4 then 6 else if bundlesUp e die inst ≠ 255 then 3 else 2) ∧
        q.version = (if q.state = 6 then 0 else v) ∧ q.peerKind = ident.kind ∧ q.relOk = relOk ∧
        (p.errs = [] → bad = [] → q.good = clocks % 256 ∧ q.spares = []) ∧
        ∀ b w near, p.errs = [] → bad = [(b, w, near)] →
          q.good = clocks % 256 ∧ sparesUsed q b = 1 <<< pickSpare 0 near)) ∧
    (p.state = 1 →
      (p.attempts < 3 → becomes (.trainingAttemptTimeout die inst) { p with attempts := p.attempts + 1 }) ∧
      (3 ≤ p.attempts → facesLoop d die inst = false →
        becomes (.trainingAttemptTimeout die inst) { p with state := 6, attempts := 0 }) ∧
      (3 ≤ p.attempts → facesLoop d die inst = true → Completes (.trainingAttemptTimeout die inst) s d) ∧
      (facesLoop d die inst = true → becomes (.loopbackPeerRetry die inst) { p with attempts := 1 })) ∧
    (ctrlWaits d die inst 3 = true → ∀ errs,
      let f := applyCtrl d die inst 3
      (regFld f (o 1) 1 0 = 1 → p.state ∈ [0, 5, 6, 7] →
        Completes (.d2dLoopback die inst errs) s (setPort f die inst { state := 4, replays := p.replays })) ∧
      (regFld f (o 1) 1 0 ≠ 1 → p.state = 4 →
        Completes (.d2dLoopback die inst errs) s (setPort f die inst { state := 0, errs := errs, replays := p.replays })) ∧
      (regFld f (o 1) 1 0 ≠ 1 → p.state ≠ 4 → Completes (.d2dLoopback die inst errs) s f)) ∧
    (ctrlWaits d die inst 4 = true → ∃ e, Completes (.d2dRetrain die inst) s e ∧ bit (regRaw e (o 1)) 2 = false ∧
      portOf e die inst = if regFld (applyCtrl d die inst 4) (o 1) 2 2 = 1 ∧ p.state ≠ 4 ∧ p.state ≠ 5 then
        if facesEmpty d die inst = true then { p with state := 5 } else
        { state := 1, attempts := 1, errs := p.errs, replays := p.replays } else p) ∧
    ((regBuf d (o 3)).mask ≠ 0 → cmdPending d (o 3) = false → ∃ e, Completes (.d2dSteer die inst) s e ∧
      (regBuf e (o 3)).mask = 0 ∧ e.ports = d.ports) ∧
    (cmdPending d (o 3) = true →
      let f := applyField d (o 3) allBits
      let b := regFld f (o 3) 2 0
      let w := regFld f (o 3) 10 3
      ∃ e, Completes (.d2dSteer die inst) s e ∧ bit (regRaw e (o 3)) 14 = false ∧
        let q := portOf e die inst
        sparesUsed q b = sparesUsed p b ||| 1 <<< regFld f (o 3) 13 11 ∧ q.waiting = p.waiting.filter (fun x => x != (b, w)) ∧
        q.quiet = p.quiet ++ [b] ∧ (portUp d (peerPort die inst).1 (peerPort die inst).2 = true →
          b ∈ (portOf e (peerPort die inst).1 (peerPort die inst).2).quiet) ∧ Sparse.get zeroOf q.miss (b * 256 + w) = 0 ∧ q.state = p.state)

/-- O49. SENTRY_HEARTBEAT from a live die clears its peer sentry's count and marks it up on an UP port; from a silent one
it counts to 16. HEARTBEAT_SILENCE_EXPIRY and UNACKED_BEAT_EXPIRY of a sentry that holds its peer up: the port is
DOWN, the sentry's flags and chime tell; the HD's port loses the CD, with no host copy of its lines left; an N-port
cuts its neighbour; an H-port drops its homes' directory. CD_REJOIN: clocks run, the CD is no longer lost and its
storage is stale, its queues and gongs are at reset with enable 0; chime and health event. HD_RESET: everything
volatile is gone and boot is at step 2. Completes by its own effect (exec = next): sentryHeartbeat,
heartbeatSilenceExpiry, unackedBeatExpiry, cdRejoin, hdReset. -/
def Obligations.LossAndReturnOfADie : Prop :=
  ∀ (s : State) (die inst : Nat),
    let d := s.dev
    let p := peerPort die inst
    (isPort d die inst = true → isPort d p.1 p.2 = true → silent d p.1 = false →
      let o := sentOff p.1 p.2 0
      ∃ e, Completes (.sentryHeartbeat die inst) s e ∧ e = { d with rg := e.rg } ∧ (∀ a, a ≠ o → regRaw e a = regRaw d a) ∧
        (silent d die = true → fld (regRaw e o) 5 1 = min 16 (regFld d o 5 1 + 1)) ∧
        (silent d die = false → fld (regRaw e o) 5 1 = 0 ∧
          ((portOf d p.1 p.2).state = 2 ∨ (portOf d p.1 p.2).state = 3 → bit (regRaw e o) 0 = true))) ∧
    (∀ i unacked, (i, unacked) ∈ [(Instr.heartbeatSilenceExpiry die inst, false), (Instr.unackedBeatExpiry die inst, true)] →
      isPort d die inst = true → regFld d (sentOff die inst 0) 0 0 = 1 → silent d die = false →
      (unacked = false → regFld d (sentOff die inst 0) 5 1 = 16) →
      ∃ e, Completes i s e ∧ (portOf e die inst).state = 0 ∧ (portOf e die inst).version = 0 ∧
        bit (regRaw e (sentOff die inst 0)) 0 = false ∧ flag e (sentOff die inst 1) 0 = true ∧
        Chimed e (portChime die inst) ∧
        (p.1 ∈ d.pw.stopped → flag e (sentOff die inst 1) 2 = true ∧ (unacked = true → flag e (sentOff die inst 1) 1 = true)) ∧
        (p.1 < 4 → p.1 ∉ d.mem.lost → p.1 ^^^ 1 ∉ d.mem.cut → Told d e 7 p.1 0) ∧
        (die = 4 → inst ∈ e.mem.lost ∧ (∀ x ∈ e.coh.l2, lineOn d inst (x.1 / 64) = false) ∧
          ∀ x ∈ e.coh.mshr, lineOn d inst x.line = false) ∧
        (die < 4 → inst = 1 → die ∈ e.mem.cut) ∧
        (die < 4 → inst = 0 → ∀ x ∈ e.coh.dir, lineOn d die x.1 = false)) ∧
    (∀ cd, cdFitted d.variant cd = true → cd ∈ d.pw.stopped ∨ cd ∈ d.mem.lost → portUp d cd 0 = true → portUp d 4 cd = true →
      ∃ e, Completes (.cdRejoin cd) s e ∧ e.pw.stopped = d.pw.stopped.filter (· != cd) ∧ cd ∉ e.mem.lost ∧ cd ∈ e.mem.stale ∧
        (∀ q, queueCd q = cd → queueOf e q = {} ∧ bit (regRaw e (qOff q 2)) 0 = false) ∧
        (∀ x ∈ e.gg.val, gongCd x.1 ≠ cd) ∧ (∀ t, t < 180 → (tileOf e cd t).blocks = []) ∧
        (cd ∈ d.pw.stopped → flag e (clkOff cd 1) 1 = true) ∧ Chimed e (4819 + cd) ∧ Told d e 8 cd 0) ∧
    (powered d = true → ∃ e, Completes .hdReset s e ∧ e.pw.vpm = true ∧ e.pw.on = false ∧ regRaw e bootOff = 2 ∧
      e.pw.cause = d.pw.cause ∧ e.fl = d.fl ∧ e.qs = [] ∧ e.tiles = [] ∧ e.mem.bytes = [] ∧ e.ch = [])

/-- O50. In a powered package WEAR_MEASUREMENT: each monitor's drift is recorded. A failed active tile is in hardware mode
given the free spare of least drift, or with none retired with flag and health event; in host mode flagged, with the
chime. ROTATION_DECISION: after its boundary, where the greatest drift exceeds the least free spare's by the margin,
that swap is decided and its tile drains. WEAR_CMD decides the swap it names. TILE_SWAP of a free tile: the spare
holds the logical tile and is active, the old tile is a spare or failed, the tile keeps its state but for draining and
the instruction cache. Completes by its own effect (exec = next): wearMeasurement, rotationDecision, wearCmd,
tileSwap. -/
def Obligations.WearAndSwaps : Prop :=
  ∀ (s : State) (cd : Nat), cdFitted s.dev.variant cd = true → powered s.dev = true →
    let d := s.dev
    let decides := fun (b : Dev) i t sp bad => ∃ e, Completes i s e ∧ swapsOf e cd = swapsOf b cd ++ [⟨t, sp, bad⟩] ∧
      tileOf e cd t = { tileOf b cd t with draining := true } ∧ e.mem = b.mem
    (∀ drifts, (drifts.map (·.tile)).Nodup → ∃ e, Completes (.wearMeasurement cd drifts) s e ∧
      ∀ x ∈ drifts, x.tile < 192 → fld (regRaw e (wearTile cd x.tile)) 15 0 = min 0xFFFF x.drift) ∧
    (∀ x : Drift, x.tile < 192 → wearState d cd x.tile = 0 → (10 * regFld d (wearOff cd 0) 23 16 ≤ x.drift ∨ x.ue = true) →
      (∀ k ∈ d.sv.failed, k / 192 ≠ cd) →
      let t := wearLogical d cd x.tile
      (hostSpare d cd = true → ∃ e, Completes (.wearMeasurement cd [x]) s e ∧
        e.sv.failed = d.sv.failed ++ [cd * 192 + x.tile] ∧ flag e (wearOff cd 3) 1 = true ∧ Chimed e (4673 + cd)) ∧
      (hostSpare d cd = false → swapsOf d cd = [] →
        (∀ sp, leastDrift d cd (freeSpares d cd) = some sp → decides d (.wearMeasurement cd [x]) t sp true) ∧
        (leastDrift d cd (freeSpares d cd) = none → ∃ e, Completes (.wearMeasurement cd [x]) s e ∧
          (tileOf e cd t).retired = true ∧ fld (regRaw e (wearTile cd x.tile)) 25 24 = 2 ∧
          flag e (wearOff cd 3) 2 = true ∧ Told d e 6 cd t))) ∧
    (let b := boundary (boundary d (offInstance (wearOff cd 0)) wearCtrlBits) (offInstance (fnOff cd)) spareBits
     let active := (tilesIn b cd 0).filter fun p => !swapWaits b cd (wearLogical b cd p)
     (hostSpare b cd = true → Completes (.rotationDecision cd) s b) ∧
     ∀ p q, hostSpare b cd = false → p ∈ active → (∀ x ∈ active, wearDrift b cd x < wearDrift b cd p ∨ x = p) →
      q ∈ freeSpares b cd → (∀ x ∈ freeSpares b cd, wearDrift b cd q < wearDrift b cd x ∨ x = q) →
      (wearDrift b cd q + regFld b (wearOff cd 0) 15 8 ≤ wearDrift b cd p →
        decides b (.rotationDecision cd) (wearLogical b cd p) q false) ∧
      (wearDrift b cd p < wearDrift b cd q + regFld b (wearOff cd 0) 15 8 → Completes (.rotationDecision cd) s b)) ∧
    (cmdPending d (wearOff cd 2) = true →
      let f := applyField d (wearOff cd 2) allBits
      let t := regFld f (wearOff cd 2) 7 0
      let q := regFld f (wearOff cd 2) 15 8
      let g := setRegFld f (wearOff cd 2) 16 16 0
      ∀ p, holderOf g cd t = some p → hostSpare g cd = true → swapWaits g cd t = false → q ∈ freeSpares g cd →
        decides g (.wearCmd cd) t q (g.sv.failed.contains (cd * 192 + p))) ∧
    ∀ tile w p, (swapsOf d cd).find? (fun w => w.logical == tile) = some w → holderOf d cd tile = some p →
      tileFree d cd tile = true → p ≠ w.spare → w.spare < 192 → tile < 180 →
      tilePart (boundary d (offInstance (tgOff cd tile 0)) tilePartBits) cd tile = tilePart d cd tile →
      ∃ e, Completes (.tileSwap cd tile) s e ∧
        fld (regRaw e (wearTile cd w.spare)) 25 24 = 0 ∧ fld (regRaw e (wearTile cd w.spare)) 23 16 = tile ∧
        fld (regRaw e (wearTile cd p)) 25 24 = (if w.failed then 2 else 1) ∧
        tileOf e cd tile = { tileOf d cd tile with draining := false, icache := [] } ∧
        swapsOf e cd = (swapsOf d cd).erase w ∧ flag e (wearOff cd 3) 0 = true ∧ e.mem.bytes = d.mem.bytes

/-- O51. In a powered package HBM_RETRAIN: the next UP channel from the turn on is retrained, none in Rest or while one
is. HBM_RETRAIN_DONE: success or a second failure ends it (the latter with its flag), a first failure is repeated.
SENSOR_CALIBRATION of a junction sensor: more than 4 degrees off loses valid, with its flag on a CD; a third close one
in a row gives valid back if the trims verified. TELEMETRY_STEP: after its boundary the shadow of every voted register
of a die that is heard holds its majority; an evacuated package with at most raw convoys is told once; a trend raises
the host's chime, waits, or starts a map-out. Completes by its own effect (exec = next): hbmRetrain, hbmRetrainDone,
sensorCalibration, telemetryStep. -/
def Obligations.BackgroundWork : Prop :=
  ∀ (s : State), powered s.dev = true →
    let d := s.dev
    (∀ cd, cdFitted d.variant cd = true → regFld d (bgOff cd 0) 7 7 = 0 → pwrState d ≠ 2 →
      let turn := Sparse.get zeroCnt d.sv.turn cd
      (∀ k, k < ftCount d.variant → chanState d cd k = 0 →
        (∀ j, (j + ftCount d.variant - turn % ftCount d.variant) % ftCount d.variant <
            (k + ftCount d.variant - turn % ftCount d.variant) % ftCount d.variant → j < ftCount d.variant →
          chanState d cd j ≠ 0) →
        ∃ e, Completes (.hbmRetrain cd) s e ∧ chanState e cd k = 1 ∧
          Sparse.get zeroCnt e.sv.turn cd = (k + 1) % ftCount d.variant ∧ regRaw e (bgOff cd 0) = BitVec.ofNat 32 (k + 128)) ∧
      ((∀ k, k < ftCount d.variant → chanState d cd k ≠ 0) → Completes (.hbmRetrain cd) s d)) ∧
    (∀ cd misses, regFld d (bgOff cd 0) 7 7 = 1 →
      let k := regFld d (bgOff cd 0) 6 0
      let tries := fun (e : Dev) => Sparse.get zeroCnt e.sv.tries cd
      chanState d cd k = 1 →
      (∃ e, Completes (.hbmRetrainDone cd true misses) s e ∧ chanState e cd k = 0 ∧ regRaw e (bgOff cd 0) = 0 ∧ tries e = 0) ∧
      (tries d = 0 → ∃ e, Completes (.hbmRetrainDone cd false misses) s e ∧ chanState e cd k = 1 ∧ tries e = 1) ∧
      (tries d ≠ 0 → ∃ e, Completes (.hbmRetrainDone cd false misses) s e ∧ chanState e cd k = 0 ∧ tries e = 0 ∧
        flag e (bgOff cd 1) 0 = true)) ∧
    (∀ die (x : SensorCal), die ∈ dies d → x.sensor < 16 →
      let good := fun (e : Dev) => Sparse.get zeroCnt e.sv.good (die * 32 + x.sensor)
      let valid := fun (e : Dev) => bit (regRaw e (thmOff die x.sensor)) 12
      ∃ e, Completes (.sensorCalibration die [x]) s e ∧ e = { d with rg := e.rg, sv := { d.sv with good := e.sv.good }, tr := e.tr } ∧
        (32 < x.off → valid e = false ∧ good e = 0 ∧ (die < 4 → flag e (bgOff die 1) 2 = true)) ∧
        (16 < x.off → x.off ≤ 32 → valid e = valid d ∧ good e = 0) ∧
        (x.off ≤ 16 → good e = min 3 (good d + 1) ∧
          (2 ≤ good d → regFld d bootOff 9 9 = 1 → valid e = true) ∧
          (good d < 2 ∨ regFld d bootOff 9 9 = 0 → valid e = valid d))) ∧
    (let b := boundary d (offInstance (fnOff 5)) recoveryBits
     (∃ e, Completes (.telemetryStep []) s e ∧
      (∀ off, votedBits off ≠ 0 → dieHeard b (offDie off) = true →
        shadowOf e off = mergeMask (regReset off) (regVal b off) (votedBits off)) ∧
      (b.evac = true → b.sv.evacTold = false → (∀ ch, ch < 48 → openConvoys b ch ≤ 1) →
        e.sv.evacTold = true ∧ Told b e 0x0B 5 0) ∧
      (b.evac = false → e.mg = b.mg)) ∧
     ∀ t : Trend, cdFitted d.variant t.cd = true → chanState b t.cd t.chan < 3 → b.evac = false →
      ∃ e, Completes (.telemetryStep [t]) s e ∧
        (regFld b (fnOff 5) 7 7 = 1 → flag e (bgOff t.cd 1) 1 = true ∧ Chimed e 4544 ∧ e.mem = b.mem) ∧
        (regFld b (fnOff 5) 7 7 = 0 →
          (reservedFrame b t.cd = none → Told b e 5 t.cd t.chan ∧ (ftOf e t.cd).autoWait = true) ∧
          ∀ g, reservedFrame b t.cd = some g → mapoutOk b t.cd t.chan g = true →
            chanState e t.cd t.chan = 2 ∧ g ∈ (ftOf e t.cd).gone ∧ ∃ m, (ftOf e t.cd).mapout = some m))

/-- O52. UPDATE_CHN, UPDATE_DISP and UPDATE_CORE taken from SVC.CMD: an image that fails a check ends the command with its
result, an unfit target with STATE; else the update runs, with the image for the slot that is not active. EVAC and
EVAC_END set and clear evacuation and end with OK. SLOT_WRITTEN puts the image into its slot and the target switches;
a core with no line left restarts. CHANNEL_FW_SWITCH, CHN_FW_RUNNING and CHN_FW_REVERT stop, start and put back a
channel's firmware. DISPATCHER_SWITCH pauses every queue of the CD, and ends the command when its load ends. Completes
by its own effect (exec = next): updateChn, updateDisp, updateCore, evac, evacEnd, slotWritten, channelFwSwitch,
chnFwRunning, chnFwRevert, dispatcherSwitch. -/
def Obligations.FirmwareUpdates : Prop :=
  ∀ (s : State),
    let d := s.dev
    let f := applyField (applyPair d (svcOff 1)) (svcOff 0) allBits
    let t := regFld f (svcOff 0) 9 4
    let pa := (reg64 f (svcOff 1)).toNat
    let taken := fun op => cmdPending d (svcOff 0) = true ∧ fld (bufferedVal d (svcOff 0)) 3 0 = op
    let ended := fun e (r : Nat) => fld (regRaw e (svcOff 0)) 13 11 = r ∧ bit (regRaw e (svcOff 0)) 10 = false ∧
      flag e (svcOff 4) 0 = true ∧ Chimed e 4823 ∧ e.sv.run = none
    (∀ signed stopped i op o, (i, op, o) ∈ [(Instr.updateChn signed, 1, SvcOp.chn), (.updateDisp signed, 2, .disp),
        (.updateCore signed stopped, 3, .core)] → taken op →
      let fit := svcTarget f o t && (o != .core || (stopped && coreQuiet f t))
      let slot := 1 - activeSlot f (svcComp o t).2
      (fit = false → ∃ e, Completes i s e ∧ ended e 1 ∧ e.fl = d.fl) ∧
      (fit = true →
        (imageAt f pa = none → ∃ e, Completes i s e ∧ ended e 2 ∧ e.fl = d.fl) ∧
        ∀ img, imageAt f pa = some img →
          let c := imageCheck f (svcComp o t).1 slot img signed
          (c ≠ 0 → ∃ e, Completes i s e ∧ ended e c ∧ e.fl = d.fl) ∧
          (∀ w, c = 0 → slotWrite f o t slot img = some w → ∃ e, Completes i s e ∧ fld (regRaw e (svcOff 3)) 1 0 = 2 ∧
            e.sv.run = some ⟨o, t, none, img, slot, w, false, false⟩ ∧ e.fl = d.fl) ∧
          (c = 0 → slotWrite f o t slot img = none → ∃ e, Completes i s e ∧ ended e 1 ∧ e.fl = d.fl))) ∧
    (taken 4 → ∃ e, Completes .evac s e ∧ e.evac = true ∧ ended e 0) ∧
    (taken 5 → ∃ e, Completes .evacEnd s e ∧ e.evac = false ∧ e.sv.evacTold = false ∧ ended e 0) ∧
    ∀ r, d.sv.run = some r →
      let inst := (svcComp r.op r.target).2
      let finishes := fun i => ∃ e, Completes i s e ∧ ended e 0 ∧
        (idOk d = true → slotRecord e inst = r.slot) ∧
        measuredOf e inst = ⟨r.slot, imageVersion r.image, Config.measure (imageCovered r.image)⟩
      (r.op ≠ .core → r.switching = false → ∃ e, Completes .slotWritten s e ∧
        e.sv.run = some { r with write := false, switching := true } ∧ fld (regRaw e (svcOff 3)) 1 0 = 3 ∧
        (r.write = false → e.fl = d.fl) ∧ (r.write = true → ∀ n, n < r.image.length →
          Sparse.get (fun _ => none) e.fl.bytes ((slotPlace (svcComp r.op r.target).1 r.slot).1 + n) = some (r.image.getD n 0))) ∧
      (r.op = .core → r.cmd = none → coreLines d r.target = [] → finishes .slotWritten) ∧
      (∀ ch, switching d .chn ch = some r → r.cmd = none →
        let x := chanOf d ch
        (x.swap = false → r.reverting = false →
          Completes (.channelFwSwitch ch) s (setChannel d ch { x with fw := false, swap := true })) ∧
        (x.swap = true → r.reverting = false → finishes (.chnFwRunning ch) ∧
          Completes (.chnFwRevert ch) s { d with sv := { d.sv with run := some { r with reverting := true } } }) ∧
        (x.swap = true → r.reverting = true → ∃ e, Completes (.chnFwRunning ch) s e ∧ ended e 4 ∧
          chanOf e ch = { x with fw := true, swap := false } ∧ e.fl = d.fl)) ∧
      ∀ cd, switching d .disp cd = some r → r.cmd = none →
        (∃ e, Completes (.dispatcherSwitch cd none) s e ∧ (dispOf e cd).state = 1 ∧
          (∀ q, queueCd q = cd → queueOf e q = pauseQueue (queueOf d q)) ∧
          ∀ q, queueCd q ≠ cd → queueOf e q = queueOf d q) ∧
        (∃ e, Completes (.dispatcherSwitch cd (some false)) s e ∧ ended e 4 ∧ (dispOf e cd).state = 0 ∧ e.fl = d.fl) ∧
        (cd ∉ d.mem.lost → cd ∉ d.pw.stopped → finishes (.dispatcherSwitch cd (some true)))

/-- O53. BOOT without the waystation's power changes nothing. From a step before 3, not in recovery: with no image of the
waystation passing it enters recovery at step 3, rails off; with HOLDUP# it stays at step 3; with a descriptor or
floor record that fails it enters recovery at step 4; with all that it needs it reaches step 11 with the rails on, the
boot count raised, the cause of the last stop kept, the variant of the descriptor, OP 3 without trims, the channels'
firmware running where it passes, the ready chime raised and READY last in the queue. Completes by its own effect
(exec = next): boot. -/
def Obligations.BootRuns : Prop :=
  ∀ (s : State) (b : BootIn),
    let d := s.dev
    let step := fun (e : Dev) => fld (regRaw e bootOff) 3 0
    (d.pw.vpm = false → Completes (.boot b) s d) ∧
    (d.pw.vpm = true → Sparse.get noVotes d.rg.votes bootOff = {} → regFld d bootOff 4 4 = 0 → bootStep d < 3 →
      let recovery := fun n => ∃ e, Completes (.boot b) s e ∧ step e = n ∧ bit (regRaw e bootOff) 4 = true ∧ e.pw.on = false ∧
        flag e (mgtOff 3) 0 = true ∧ regRaw e (mgtOff 2) = BitVec.ofNat 32 (0x10 + 5 * 256)
      (bothFail b.ws = true → recovery 3) ∧
      (bothFail b.ws = false → d.pw.holdup = true → ∃ e, Completes (.boot b) s e ∧ step e = 3 ∧ e.pw.on = d.pw.on) ∧
      (bothFail b.ws = false → d.pw.holdup = false →
        (b.descOk = false ∨ b.floorOk = false → recovery 4) ∧
        (b.descOk = true → b.floorOk = true →
          (b.rootclk = false → ∃ e, Completes (.boot b) s e ∧ step e = 4 ∧ e.pw.on = true ∧
            regRaw e (mgtOff 2) = BitVec.ofNat 32 (3 + 5 * 256)) ∧
          (b.rootclk = true → bothFail b.core = true → recovery 9) ∧
          (b.rootclk = true → bothFail b.core = false → ∃ e, Completes (.boot b) s e ∧ step e = 11 ∧ e.pw.on = true ∧
            e.fl.boots = (if bootStep d = 2 then d.fl.boots else (d.fl.boots + 1) % 2 ^ 64) ∧
            e.pw.lastStop = (if bootStep d = 2 then d.pw.lastStop else d.pw.cause) ∧
            e.variant = (if 1 ≤ b.code ∧ b.code ≤ 4 then b.code else d.variant) ∧ e.straps = b.straps % 16 ∧
            fld (regRaw e (regOff 5 5 0 0)) 7 0 = b.code % 256 ∧ e.pw.op = (if b.trimsOk then 0 else 3) ∧
            bit (regRaw e bootOff) 5 = b.idOk ∧ bit (regRaw e bootOff) 9 = b.trimsOk ∧
            (∀ ch, ch < 48 → (chanOf e ch).fw = !bothFail b.chan) ∧ Chimed e 4736 ∧
            ∃ q n, e.mg.queue = q ++ [⟨n, .ready (regVal e (regOff 5 5 0 0)) (regVal e (regOff 5 5 0 1)) (regVal e bootOff)⟩]))))

/-- O54. With the lane up: ENROL, outside recovery, acknowledged to its sender, replaces the operator record unless one
exists and the signature fails. A COMMAND without an operator record, with a bad signature or an old number is
flagged, and the latter two answered with results 5 and 6. An accepted one: READ_REG answers the value or ABSENT;
WRITE_REG waits for its boundary, or is ABSENT or STATE; SVC EVAC and EVAC_END act; ATTEST starts a report; RECOVER,
in recovery, writes an image that passes. ACK takes its message off. HELLO, TELEMETRY, the resend and MGMT_LINK_CHANGE
send what they should. ATT.CMD starts a report or ends with its code; REPORT_COMPLETE writes it or queues REPORT and
RESULT. Completes by its own effect (exec = next): attGo, reportComplete, enrol, mgmtReadReg, mgmtWriteReg, mgmtSvc,
mgmtAttest, mgmtRecover, mgmtAck, helloTimer, telemetryTimer, mgmtResend, mgmtLinkChange. -/
def Obligations.ManagementMessages : Prop :=
  ∀ (s : State),
    let d := s.dev
    let bad := fun (e : Dev) => flag e (mgtOff 3) 1 = true
    let answers := fun (e : Dev) (n code : Nat) (v : Word32) => e.mg.queue = d.mg.queue ++ [⟨d.mg.seq + 1, .result n code v⟩]
    (mgtHears d = true →
      (regFld d bootOff 4 4 = 1 → ∀ seq src key parent signed, Completes (.enrol seq src key parent signed) s d) ∧
      (regFld d bootOff 4 4 = 0 → ∀ seq src key parent signed, ∃ e, Completes (.enrol seq src key parent signed) s e ∧
        e.mg.sent.take (d.mg.sent.length + 1) = d.mg.sent ++ [⟨.node src, ⟨d.mg.seq, .ack seq⟩⟩] ∧
        (d.mg.operator.isSome = true → signed = false → e.mg.operator = d.mg.operator ∧ bad e) ∧
        (d.mg.operator = none ∨ signed = true → e.mg.operator = some ⟨key, parent⟩)) ∧
      (∀ (c : Command) i, ((∃ off, i = Instr.mgmtReadReg c off) ∨ (∃ off v m gen, i = .mgmtWriteReg c off v m gen) ∨
          (∃ op t im sg st, i = .mgmtSvc c op t im sg st) ∨ ∃ nonce, i = .mgmtAttest c nonce) →
        (d.mg.operator = none → ∃ e, Completes i s e ∧ bad e ∧ e.mg = d.mg) ∧
        (d.mg.operator.isSome = true → regFld d bootOff 4 4 = 0 →
          (c.signed = false → ∃ e, Completes i s e ∧ bad e ∧ answers e c.number 5 0) ∧
          (c.signed = true → c.boots ≠ d.fl.boots ∨ (∃ n, d.mg.lastCmd = some n ∧ c.number ≤ n) →
            ∃ e, Completes i s e ∧ bad e ∧ answers e c.number 6 0))) ∧
      (∀ c : Command, d.mg.operator.isSome = true → c.signed = true → c.boots = d.fl.boots →
        (∀ n, d.mg.lastCmd = some n → n < c.number) →
        let a : Dev := { mgtTell d (.ack c.seq) with
          mg := { (mgtTell d (.ack c.seq)).mg with lastCmd := some c.number } }
        (regFld d bootOff 4 4 = 0 →
          (∀ off, ∃ e, Completes (.mgmtReadReg c off) s e ∧ (readClears off = false → e.rg = d.rg) ∧
            (off < 0x60000000 → regAbsent d off = false → readClears off = true → e.rg = (clearingRead d off).1.rg) ∧
            (off < 0x60000000 → regAbsent d off = false → answers e c.number 0 (view a off)) ∧
            (0x60000000 ≤ off ∨ regAbsent d off = true →
              answers e c.number 3 0)) ∧
          (∀ off value mask gen, ∃ e, Completes (.mgmtWriteReg c off value mask gen) s e ∧
            let at_ := attempt a off value (mask &&& ~~~ (cmdBits off &&& ~~~ value))
            (writeAbsent a at_ = true → answers e c.number 3 0) ∧
            (writeAbsent a at_ = false → isDoorbell off = false →
              (regRetired a off = true ∨ writeRefused a at_ = true → answers e c.number 1 0) ∧
              (regRetired a off = false → writeRefused a at_ = false →
                e.mg.queue = d.mg.queue ∧ e.rg = { d.rg with mgmt := d.rg.mgmt ++ [⟨off, value, mask, gen, c.number⟩] }))) ∧
          (∀ op on, (op, on) ∈ [(4, true), (5, false)] → svcFree d = true → cmdWaits d (svcOff 0) = false →
            ∀ t im sg st, ∃ e, Completes (.mgmtSvc c op t im sg st) s e ∧ e.evac = on ∧ answers e c.number 0 0) ∧
          (∀ op o t im sg st w, (op, o) ∈ [(1, SvcOp.chn), (2, .disp), (3, .core)] → svcFree d = true →
            cmdWaits d (svcOff 0) = false → svcTarget d o t = true → (o = .core → st = true ∧ coreQuiet d t = true) →
            let slot := 1 - activeSlot d (svcComp o t).2
            imageCheck d (svcComp o t).1 slot im sg = 0 → slotWrite d o t slot im = some w →
            ∃ e, Completes (.mgmtSvc c op t im sg st) s e ∧
              e.sv.run = some ⟨o, t, some c.number, im, slot, w, false, false⟩ ∧ e.mg.queue = d.mg.queue) ∧
          (∀ nonce, ∃ e, Completes (.mgmtAttest c nonce) s e ∧
            (idOk d = false → answers e c.number 4 0) ∧
            (idOk d = true → d.id.report = none → e.id.report = some ⟨nonce, 0, some c.number⟩ ∧ e.mg.queue = d.mg.queue))) ∧
        ∀ slot image signed, ∃ e, Completes (.mgmtRecover c slot image signed) s e ∧
          (regFld d bootOff 4 4 = 0 ∨ 2 ≤ slot → answers e c.number 1 0 ∧ e.fl = d.fl) ∧
          (regFld d bootOff 4 4 = 1 → slot < 2 → 1 ≤ imageComp image → imageComp image ≤ 6 →
            let r := imageCheck d (imageComp image) slot image signed
            (r ≠ 0 → answers e c.number (resultCode r) 0 ∧ e.fl = d.fl) ∧
            (r = 0 → answers e c.number 0 0 ∧ ∀ n, n < image.length →
              Sparse.get (fun _ => none) e.fl.bytes ((slotPlace (imageComp image) slot).1 + n) = some (image.getD n 0)))) ∧
      (∀ seq, ∃ e, Completes (.mgmtAck seq) s e ∧ e.mg.queue = d.mg.queue.filter (fun m => m.seq != seq) ∧ e.mg.sent = d.mg.sent ∧
        (d.mg.readyAcked = true → e.mg.readyAcked = true)) ∧
      (d.mg.readyAcked = false → ∃ e, Completes .helloTimer s e ∧
        e.mg.sent = d.mg.sent ++ [⟨mgtParent d, ⟨d.mg.seq, .hello (BitVec.ofNat 64 d.fl.boots) (regVal d bootOff)⟩⟩]) ∧
      (d.mg.operator.isSome = true → regFld d bootOff 4 4 = 0 → ∃ e, Completes .telemetryTimer s e ∧
        e.mg.sent = d.mg.sent ++ [⟨mgtParent d, ⟨d.mg.seq, .telemetry (telemetryValues d)⟩⟩]) ∧
      (d.mg.operator.isSome = true → ∃ e, Completes .mgmtResend s e ∧ e.mg.queue = d.mg.queue ∧
        ∀ m, m ∈ e.mg.sent ↔ m ∈ d.mg.sent ∨ ∃ q ∈ d.mg.queue, m = ⟨mgtParent d, q⟩)) ∧
    (∀ link, powered d = true → link ≤ 2 → d.mg.link ≠ link → ∃ e, Completes (.mgmtLinkChange link) s e ∧ e.mg.link = link ∧
      (link ≠ 2 → e.mg.sent = d.mg.sent) ∧
      (link = 2 → d.mg.operator.isSome = true → ∀ m, m ∈ e.mg.sent ↔ m ∈ d.mg.sent ∨ ∃ q ∈ d.mg.queue, m = ⟨mgtParent d, q⟩)) ∧
    (cmdPending d (attOff 0) = true →
      let f := applyField (applyPair d (attOff 1)) (attOff 0) allBits
      let a := (reg64 f (attOff 1)).toNat
      let ends := fun (e : Dev) r => fld (regRaw e (attOff 0)) 2 1 = r ∧ bit (regRaw e (attOff 0)) 0 = false
      ∃ e, Completes .attGo s e ∧
        (d.id.report.isSome = true → ends e 1) ∧ (d.id.report = none → idOk f = false → ends e 2) ∧
        (d.id.report = none → idOk f = true →
          (argOk f 0 a (64 + reportLength f) 64 = false → ends e 3) ∧
          (argOk f 0 a (64 + reportLength f) 64 = true → e.id.report = some ⟨bytesAt f a 32, a, none⟩))) ∧
    ∀ r, d.id.report = some r → ∃ e, Completes .reportComplete s e ∧ e.id.report = none ∧
      (r.cmd = none → fld (regRaw e (attOff 0)) 2 1 = 0 ∧ bit (regRaw e (attOff 0)) 0 = false) ∧
      ∀ c, r.cmd = some c → e.mg.queue = d.mg.queue ++
        [⟨d.mg.seq, .report (reportBytes d r.nonce)⟩, ⟨d.mg.seq + 1, .result c 0 0⟩]

/-- O55. TRACE_SYNC, where selected: the die's buffer gains a record of event 13 with the die's P-cycle count; a full
buffer loses its newest record for it. TRACE_SAMPLE: each of the eight selected registers gives a record with its
address and value, in order, while the HD's buffer has room. TRACE_OBS_SEND: the oldest record still to leave on OBS
leaves it, on the other lane than the one before. TRACE_RING_WRITE: the oldest record still to go to the ring goes to
its place there and the produced count grows by one; a full ring without wrap counts it as lost; a record that the
class M budget holds waits, with f_m_budget. Completes by its own effect (exec = next): traceSync, traceSample,
traceRingWrite, traceObsSend. -/
def Obligations.TraceRecords : Prop :=
  ∀ (s : State),
    let d := s.dev
    let buf := fun (e : Dev) die => (traceOf e die).buf
    (∀ die, traceDie d die = true → traced d 0xD none none = true → ∃ e r, Completes (.traceSync die) s e ∧
      fld r.w0 23 19 = 0xD ∧ r.w2 = 0 ∧ r.w3 = reg64 d (clkOff die 4) ∧ (traceOf e die).seq = (traceOf d die).seq + 1 ∧
      ((buf d die).length < 2048 → buf e die = buf d die ++ [r]) ∧
      ((buf d die).length = 2048 → buf e die = (buf d die).dropLast ++ [r] ∧
        (traceOf e die).dropped = (traceOf d die).dropped + 1)) ∧
    (traced d 0xB none none = true → (buf d 4).length + 8 ≤ 2048 → ∃ e rs, Completes .traceSample s e ∧ buf e 4 = buf d 4 ++ rs ∧
      e.rg = d.rg ∧ rs.map (fun r => (fld r.w0 23 19, r.w2.toNat, r.w3)) =
        (((List.range 8).map fun k => (regVal d (trcOff (0x18 + k))).toNat).filter (· ≠ 0)).map fun a =>
          (0xB, a, BitVec.ofNat 64 (sampleVal d a))) ∧
    (∀ die l r l', buf d die = l ++ r :: l' → (∀ x ∈ l, x.obs = false) → r.obs = true → (traceOf d die).dropped = 0 →
      (∀ x ∈ l, x.ring = true) → (∀ x ∈ l', x.obs = true ∨ x.ring = true) →
      ∃ e, Completes (.traceObsSend die) s e ∧ e.tr.out = d.tr.out ++ [(d.tr.out.length % 2, r)] ∧
        buf e die = l ++ (if r.ring then [{ r with obs := false }] else []) ++ l' ∧ e.mem = d.mem ∧ e.rg = d.rg) ∧
    ∀ die l r l', buf d die = l ++ r :: l' → (∀ x ∈ l, x.ring = false) → r.ring = true → (traceOf d die).dropped = 0 →
      (∀ x ∈ l, x.obs = true) → (∀ x ∈ l', x.obs = true ∨ x.ring = true) →
      (∀ o, offUnit o = 0x2C → Sparse.get noVotes d.rg.votes o = {}) →
      let e0 := regFld d (trcOff 3) 5 0
      let base := regFld d (trcOff 4) 15 0 * 2 ^ 32 + regFld d (trcOff 3) 31 16 * 2 ^ 16
      let place := base + 32 * ((reg64 d (trcOff 5)).toNat % 2 ^ (e0 - 5))
      (∀ c g, farLine? d (base / 64) = some (c, g) → Completes (.traceRingWrite die true) s (setFlag d (arbOff c) 1)) ∧
      ∃ e, Completes (.traceRingWrite die false) s e ∧
        (∃ more, buf e die = l ++ (if r.obs then [{ r with ring := false }] else []) ++ l' ++ more) ∧
        (ringUnfreed d < 2 ^ (e0 - 5) → reg64 e (trcOff 5) = reg64 d (trcOff 5) + 1 ∧ reg64 e (trcOff 7) = reg64 d (trcOff 7) ∧
          e.mem = (writeAt d place (recordBytes r) false).mem) ∧
        (2 ^ (e0 - 5) ≤ ringUnfreed d → regFld d (trcOff 0) 2 2 = 0 → e.mem = d.mem ∧
          (regRaw e (trcOff 0x24)).toNat = min 0xFFFFFFFF ((regRaw d (trcOff 0x24)).toNat + 1)) ∧
        (2 ^ (e0 - 5) ≤ ringUnfreed d → regFld d (trcOff 0) 2 2 = 1 → reg64 e (trcOff 5) = reg64 d (trcOff 5) + 1 ∧
          reg64 e (trcOff 7) = reg64 d (trcOff 7) + 1)

/-- O56. With no command waiting and the rails on, a step is one P-cycle (the model's choice, log entry 3): on each die
whose clocks run CLK.PCNT grows by one and CLK.ACNT and CLK.HELD together by the A edges that 32 root periods hold at
its divisor, none held without stretching; a stopped die with its PLL unlocked counts nothing; the duration counter of
each reason active after Idle has ended grows by one; the package leaves Idle where a block is resident or a queue
runs. With the rails off, or before the PLLs have locked at boot, nothing changes. -/
def Obligations.TimePasses : Prop :=
  ∀ (s : State), s.pending = [] →
    let d := s.dev
    (d.pw.on = false ∨ bootStep d < 5 → step s = .next s) ∧
    (d.pw.on = true → 5 ≤ bootStep d → (∀ o, offUnit o = 0x1A ∨ offUnit o = 0x1F → Sparse.get noVotes d.rg.votes o = {}) → ∃ e, step s = .next { s with dev := e } ∧
      (∀ c ∈ dies d, c ∉ d.pw.stopped ∨ regFld d (clkOff c 0) 2 2 = 1 →
        let code := regFld d (clkOff c 0) 1 0
        let t := Sparse.get zeroCnt d.pw.phase c + 32
        let held := reg64 e (clkOff c 6) - reg64 d (clkOff c 6)
        reg64 e (clkOff c 4) = reg64 d (clkOff c 4) + 1 ∧
        reg64 e (clkOff c 2) + held = reg64 d (clkOff c 2) + BitVec.ofNat 64 (t / divisorOf code) ∧
        Sparse.get zeroCnt e.pw.phase c = t % divisorOf code ∧
        (regFld d (clkOff c 0) 5 5 = 0 → held = 0)) ∧
      (∀ c ∈ dies d, c ∈ d.pw.stopped → regFld d (clkOff c 0) 2 2 = 0 → ∀ r, r < 8 → regRaw e (clkOff c r) = regRaw d (clkOff c r)) ∧
      (∀ r, r < 8 → reg64 e (pwrOff (0x20 + 2 * r)) = reg64 d (pwrOff (0x20 + 2 * r)) + if (reasons d).testBit r then 1 else 0) ∧
      fld (regRaw e (pwrOff 1)) 6 4 = (if pwrState d = 1 ∧ busy d = true then 0 else fld (regRaw d (pwrOff 1)) 6 4) ∧
      e = { d with rg := e.rg, pw := { d.pw with phase := e.pw.phase, par := e.pw.par } })

/-- O57. State.reset: the queue is empty; every register reads its reset value and nothing is buffered; every queue is
DISABLED with an empty accumulator; every gong is zero; no tile holds a block, no channel is up; no byte is stored and
every byte reads zero (log entry 5); the power state is RUN at operating point 0, k = 16, with no throttle reason
active; the rails are off until a WAKE boots the package (log entry 4). -/
def Obligations.ResetLeaves : Prop :=
  State.reset.pending = [] ∧
    let d := State.reset.dev
    (∀ off, regVal d off = regReset off ∧ regBuf d off = {}) ∧
    (∀ q, (queueOf d q).state = .disabled ∧ (queueOf d q).accum = 0) ∧
    (∀ g, gongOf d g = {}) ∧ (∀ c t, (tileOf d c t).blocks = []) ∧ (∀ ch, (chanOf d ch).link = 0) ∧
    d.mem.bytes = [] ∧ (∀ a, byteAt d a = 0) ∧ powered d = false ∧ d.pw.on = false ∧ present d = (0, 16) ∧
    pwrState d = 0 ∧ reasons d = 0 ∧ d.mg.queue = [] ∧ d.coh.dir = [] ∧ d.peal = []

/-- O58. State.reset's bytes are in the canonical form: addresses strictly rising and no entry equal to what an unlisted
address reads as. -/
def Obligations.ResetMemoryCanonical : Prop :=
  Memory.wf State.reset.dev.mem.bytes = true

/-- O59. For every state whose bytes of storage are in the canonical form (addresses strictly rising, no entry equal to
what an unlisted address reads as): if step answers a next state, its bytes are in the canonical form. It covers every
command of the table, whatever its operands, and the idle step. -/
def Obligations.StepKeepsMemoryCanonical : Prop :=
  ∀ (s t : State), Memory.wf s.dev.mem.bytes = true → step s = .next t → Memory.wf t.dev.mem.bytes = true

/-- O60. For every thread instruction whose fields stand in its word (integer, multiply, floating-point, conversion,
compare, predicate, move, uniform, control, memory, branch, bar, fence), with every operand value, guard field (0, or
16 to 31: enabled) and number of immediate words the encoding admits: its word decodes to it for a thread, and the
word's guard field and number of immediate words are those given. -/
def Obligations.ThreadWordsRoundTrip : Prop :=
  ∀ (guard ext : Nat) (o : Op), guard = 0 ∨ (16 ≤ guard ∧ guard < 32) → opFits ext o = true →
    ∃ w, encodeThread guard ext o = some w ∧ decodeThread w = some o ∧ fld w 56 52 = guard ∧ wExt w = ext
end

