-- ==== Sys2Proof/Laws/Sparse.lean ====
section
/-! SUPPORT. Laws of finite maps: what a key reads as after a write, and the canonical form. -/

namespace Sys2Proof.Machine.Sparse

variable {α : Type}

/-- An entry put in is found; the others are as they were. -/
theorem find?_put (m : List (Nat × α)) (a b : Nat) (w : α) :
    find? (put m a w) b = if b = a then some w else find? m b := by
  induction m with
  | nil => simp [put, find?]
  | cons e m ih =>
    obtain ⟨k, v⟩ := e
    simp only [put]
    split
    · simp [find?]
    · split
      · subst_vars; simp only [find?]; split <;> simp_all
      · simp only [find?, ih]; split <;> split <;> simp_all

/-- An erased entry is not found; the others are as they were. -/
theorem find?_erase (m : List (Nat × α)) (a b : Nat) :
    find? (erase m a) b = if b = a then none else find? m b := by
  induction m with
  | nil => simp [erase, find?]
  | cons e m ih =>
    obtain ⟨k, v⟩ := e
    simp only [erase]
    split
    · subst_vars; rw [ih]; simp only [find?]; split <;> simp_all
    · simp only [find?, ih]; split <;> split <;> simp_all

variable [DecidableEq α]

/-- A key written reads as what was written; every other key reads as before. -/
theorem get_set (dflt : Nat → α) (m : List (Nat × α)) (a b : Nat) (w : α) :
    get dflt (set dflt m a w) b = if b = a then w else get dflt m b := by
  unfold get set
  split
  · rw [find?_erase]; split <;> simp_all
  · rw [find?_put]; split <;> simp_all

@[simp] theorem get_set_same (dflt : Nat → α) (m : List (Nat × α)) (a : Nat) (w : α) :
    get dflt (set dflt m a w) a = w := by simp [get_set]

theorem get_set_other (dflt : Nat → α) (m : List (Nat × α)) (a b : Nat) (w : α) (h : b ≠ a) :
    get dflt (set dflt m a w) b = get dflt m b := by simp [get_set, h]

/-! The canonical form. -/

omit [DecidableEq α] in
/-- A rising list rises from any lower bound. -/
theorem rising_weaken {lo : Option Nat} {k : Nat} {m : List (Nat × α)} (h : rising (some k) m = true)
    (hl : ∀ l, lo = some l → l ≤ k) : rising lo m = true := by
  cases m with
  | nil => rfl
  | cons e m =>
    obtain ⟨j, v⟩ := e
    simp only [rising, Bool.and_eq_true, decide_eq_true_eq] at h ⊢
    refine ⟨?_, h.2⟩
    cases lo with
    | none => rfl
    | some l => have := hl l rfl; simp; omega

omit [DecidableEq α] in
theorem rising_put {lo : Option Nat} {m : List (Nat × α)} {a : Nat} {w : α} (h : rising lo m = true)
    (ha : ∀ l, lo = some l → l < a) : rising lo (put m a w) = true := by
  induction m generalizing lo with
  | nil => cases lo <;> simp_all [put, rising]
  | cons e m ih =>
    obtain ⟨k, v⟩ := e
    simp only [put]
    have h' := h
    simp only [rising, Bool.and_eq_true] at h'
    split
    · rename_i hlt
      simp only [rising, Bool.and_eq_true, decide_eq_true_eq]
      refine ⟨?_, hlt, h'.2⟩
      cases lo with
      | none => rfl
      | some l => simp [ha l rfl]
    · split
      · simpa [rising] using h'
      · rename_i h1 h2
        simp only [rising, Bool.and_eq_true]
        refine ⟨h'.1, ih h'.2 ?_⟩
        intro l hl; cases hl; omega

omit [DecidableEq α] in
theorem rising_erase {lo : Option Nat} {m : List (Nat × α)} {a : Nat} (h : rising lo m = true) :
    rising lo (erase m a) = true := by
  induction m generalizing lo with
  | nil => rfl
  | cons e m ih =>
    obtain ⟨k, v⟩ := e
    simp only [erase]
    simp only [rising, Bool.and_eq_true] at h
    split
    · refine ih (rising_weaken h.2 ?_)
      intro l hl; subst hl; have := h.1; simp at this; omega
    · simp only [rising, Bool.and_eq_true]; exact ⟨h.1, ih h.2⟩

omit [DecidableEq α] in
theorem mem_put {m : List (Nat × α)} {a : Nat} {w : α} {e : Nat × α} (h : e ∈ put m a w) : e = (a, w) ∨ e ∈ m := by
  induction m with
  | nil => simpa [put] using h
  | cons x m ih =>
    obtain ⟨k, v⟩ := x
    simp only [put] at h
    split at h
    · rcases List.mem_cons.1 h with h | h <;> simp_all
    · split at h
      · subst_vars; rcases List.mem_cons.1 h with h | h <;> simp_all
      · rcases List.mem_cons.1 h with h | h
        · simp_all
        · rcases ih h with h | h <;> simp_all

omit [DecidableEq α] in
theorem mem_erase {m : List (Nat × α)} {a : Nat} {e : Nat × α} (h : e ∈ erase m a) : e ∈ m := by
  induction m with
  | nil => simp [erase] at h
  | cons x m ih =>
    obtain ⟨k, v⟩ := x
    simp only [erase] at h
    split at h
    · exact List.mem_cons_of_mem _ (ih h)
    · rcases List.mem_cons.1 h with h | h
      · simp_all
      · exact List.mem_cons_of_mem _ (ih h)

/-- Writing a key keeps the canonical form. -/
theorem wf_set (dflt : Nat → α) (m : List (Nat × α)) (a : Nat) (w : α) (h : wf dflt m = true) :
    wf dflt (set dflt m a w) = true := by
  simp only [wf, Bool.and_eq_true, List.all_eq_true, decide_eq_true_eq] at h ⊢
  unfold set
  split
  · exact ⟨rising_erase h.1, fun e he => h.2 e (mem_erase he)⟩
  · refine ⟨rising_put h.1 (by simp), fun e he => ?_⟩
    rcases mem_put he with rfl | he
    · assumption
    · exact h.2 e he

omit [DecidableEq α] in
theorem rising_filter {lo : Option Nat} {m : List (Nat × α)} (p : Nat × α → Bool) (h : rising lo m = true) :
    rising lo (m.filter p) = true := by
  induction m generalizing lo with
  | nil => rfl
  | cons e m ih =>
    obtain ⟨k, v⟩ := e
    simp only [rising, Bool.and_eq_true] at h
    by_cases hp : p (k, v) = true
    · rw [List.filter_cons_of_pos hp]
      simp only [rising, Bool.and_eq_true]; exact ⟨h.1, ih h.2⟩
    · rw [List.filter_cons_of_neg hp]
      refine ih (rising_weaken h.2 ?_)
      intro l hl; subst hl; have := h.1; simp at this; omega

/-- Dropping entries keeps the canonical form. -/
theorem wf_filter (dflt : Nat → α) (m : List (Nat × α)) (p : Nat × α → Bool) (h : wf dflt m = true) :
    wf dflt (m.filter p) = true := by
  simp only [wf, Bool.and_eq_true, List.all_eq_true, decide_eq_true_eq] at h ⊢
  exact ⟨rising_filter p h.1, fun e he => h.2 e (List.mem_filter.1 he).1⟩

end Sys2Proof.Machine.Sparse
end

