-- ==== Sys2Proof/Laws/State.lean ====
section
/-! SUPPORT. Updates of the package as its readers see them. -/

namespace Sys2Proof.Machine

open Parts

/-! Tiles. -/

theorem tileOf_setTile (d : Dev) (c t c' t' : Nat) (x : Tile) :
    tileOf (setTile d c t x) c' t' = if tileKey c' t' = tileKey c t then x else tileOf d c' t' := by
  simp [tileOf, setTile, Sparse.get_set]

@[simp] theorem tileOf_setTile_same (d : Dev) (c t : Nat) (x : Tile) : tileOf (setTile d c t x) c t = x := by
  simp [tileOf_setTile]

theorem setTile_frame (d : Dev) (c t : Nat) (x : Tile) : setTile d c t x = { d with tiles := (setTile d c t x).tiles } := rfl

theorem groupAt_setGroup (x : Tile) (s s' : Nat) (g : Group) :
    groupAt (setGroup x s g) s' = if s' = s then some g else groupAt x s' := by
  simp [groupAt, setGroup, Sparse.find?_put]

@[simp] theorem groupAt_setGroup_same (x : Tile) (s : Nat) (g : Group) : groupAt (setGroup x s g) s = some g := by
  simp [groupAt_setGroup]

theorem threadAt_setThread (g : Group) (l l' : Nat) (t : Thread) :
    threadAt (setThread g l t) l' = if l' = l then t else threadAt g l' := by
  simp [threadAt, setThread, Sparse.get_set]

@[simp] theorem setThread_u (g : Group) (l : Nat) (t : Thread) : (setThread g l t).u = g.u := rfl
@[simp] theorem setThread_up (g : Group) (l : Nat) (t : Thread) : (setThread g l t).up = g.up := rfl
@[simp] theorem setThread_paths (g : Group) (l : Nat) (t : Thread) : (setThread g l t).paths = g.paths := rfl

theorem treg_setTreg (t : Thread) (n m : Nat) (v : Word32) (p : Bool) :
    treg (setTreg t n v p) m = if m = n then v else treg t m := by
  simp [treg, setTreg, Sparse.get_set]

theorem ureg_setUreg (g : Group) (n m : Nat) (v : Word64) (p : Bool) :
    ureg (setUreg g n v p) m = if m = n then v else ureg g m := by
  simp [ureg, setUreg, Sparse.get_set]

/-! What each store changes, field by field, and what is read after it. -/

@[simp] theorem setTile_fields (d : Dev) (c t : Nat) (x : Tile) :
    (setTile d c t x).variant = d.variant ∧ (setTile d c t x).straps = d.straps ∧ (setTile d c t x).full = d.full ∧
    (setTile d c t x).rg = d.rg ∧ (setTile d c t x).mem = d.mem ∧ (setTile d c t x).xl = d.xl ∧ (setTile d c t x).gg = d.gg ∧
    (setTile d c t x).qs = d.qs ∧ (setTile d c t x).disp = d.disp ∧ (setTile d c t x).drv = d.drv ∧
    (setTile d c t x).reds = d.reds ∧ (setTile d c t x).ch = d.ch ∧ (setTile d c t x).evac = d.evac ∧
    (setTile d c t x).mg = d.mg ∧ (setTile d c t x).coh = d.coh ∧ (setTile d c t x).ports = d.ports ∧
    (setTile d c t x).pw = d.pw ∧ (setTile d c t x).tr = d.tr ∧ (setTile d c t x).fl = d.fl ∧ (setTile d c t x).id = d.id ∧
    (setTile d c t x).sv = d.sv ∧ (setTile d c t x).peal = d.peal ∧ (setTile d c t x).fresh = d.fresh := by
  refine ⟨rfl, rfl, rfl, rfl, rfl, rfl, rfl, rfl, rfl, rfl, rfl, rfl, rfl, rfl, rfl, rfl, rfl, rfl, rfl, rfl, rfl, rfl, rfl⟩

@[simp] theorem setQueue_fields (d : Dev) (q : Nat) (x : Queue) :
    (setQueue d q x).variant = d.variant ∧ (setQueue d q x).straps = d.straps ∧ (setQueue d q x).full = d.full ∧
    (setQueue d q x).rg = d.rg ∧ (setQueue d q x).mem = d.mem ∧ (setQueue d q x).xl = d.xl ∧ (setQueue d q x).gg = d.gg ∧
    (setQueue d q x).disp = d.disp ∧ (setQueue d q x).tiles = d.tiles ∧ (setQueue d q x).drv = d.drv ∧
    (setQueue d q x).reds = d.reds ∧ (setQueue d q x).ch = d.ch ∧ (setQueue d q x).evac = d.evac ∧
    (setQueue d q x).mg = d.mg ∧ (setQueue d q x).coh = d.coh ∧ (setQueue d q x).ports = d.ports ∧
    (setQueue d q x).pw = d.pw ∧ (setQueue d q x).tr = d.tr ∧ (setQueue d q x).fl = d.fl ∧ (setQueue d q x).id = d.id ∧
    (setQueue d q x).sv = d.sv ∧ (setQueue d q x).peal = d.peal ∧ (setQueue d q x).fresh = d.fresh := by
  refine ⟨rfl, rfl, rfl, rfl, rfl, rfl, rfl, rfl, rfl, rfl, rfl, rfl, rfl, rfl, rfl, rfl, rfl, rfl, rfl, rfl, rfl, rfl, rfl⟩

theorem queueOf_setQueue (d : Dev) (q : Nat) (x : Queue) (p : Nat) : queueOf (setQueue d q x) p = if p = q then x else queueOf d p := by
  simp [queueOf, setQueue, Sparse.get_set]

@[simp] theorem setDisp_fields (d : Dev) (c : Nat) (x : Dispatcher) :
    (setDisp d c x).variant = d.variant ∧ (setDisp d c x).straps = d.straps ∧ (setDisp d c x).full = d.full ∧
    (setDisp d c x).rg = d.rg ∧ (setDisp d c x).mem = d.mem ∧ (setDisp d c x).xl = d.xl ∧ (setDisp d c x).gg = d.gg ∧
    (setDisp d c x).qs = d.qs ∧ (setDisp d c x).tiles = d.tiles ∧ (setDisp d c x).drv = d.drv ∧
    (setDisp d c x).reds = d.reds ∧ (setDisp d c x).ch = d.ch ∧ (setDisp d c x).evac = d.evac ∧ (setDisp d c x).mg = d.mg ∧
    (setDisp d c x).coh = d.coh ∧ (setDisp d c x).ports = d.ports ∧ (setDisp d c x).pw = d.pw ∧ (setDisp d c x).tr = d.tr ∧
    (setDisp d c x).fl = d.fl ∧ (setDisp d c x).id = d.id ∧ (setDisp d c x).sv = d.sv ∧ (setDisp d c x).peal = d.peal ∧
    (setDisp d c x).fresh = d.fresh := by
  refine ⟨rfl, rfl, rfl, rfl, rfl, rfl, rfl, rfl, rfl, rfl, rfl, rfl, rfl, rfl, rfl, rfl, rfl, rfl, rfl, rfl, rfl, rfl, rfl⟩

theorem dispOf_setDisp (d : Dev) (c : Nat) (x : Dispatcher) (p : Nat) : dispOf (setDisp d c x) p = if p = c then x else dispOf d p := by
  simp [dispOf, setDisp, Sparse.get_set]

@[simp] theorem setDrover_fields (d : Dev) (k : Nat) (x : Drover) :
    (setDrover d k x).variant = d.variant ∧ (setDrover d k x).straps = d.straps ∧ (setDrover d k x).full = d.full ∧
    (setDrover d k x).rg = d.rg ∧ (setDrover d k x).mem = d.mem ∧ (setDrover d k x).xl = d.xl ∧ (setDrover d k x).gg = d.gg ∧
    (setDrover d k x).qs = d.qs ∧ (setDrover d k x).disp = d.disp ∧ (setDrover d k x).tiles = d.tiles ∧
    (setDrover d k x).reds = d.reds ∧ (setDrover d k x).ch = d.ch ∧ (setDrover d k x).evac = d.evac ∧
    (setDrover d k x).mg = d.mg ∧ (setDrover d k x).coh = d.coh ∧ (setDrover d k x).ports = d.ports ∧
    (setDrover d k x).pw = d.pw ∧ (setDrover d k x).tr = d.tr ∧ (setDrover d k x).fl = d.fl ∧ (setDrover d k x).id = d.id ∧
    (setDrover d k x).sv = d.sv ∧ (setDrover d k x).peal = d.peal ∧ (setDrover d k x).fresh = d.fresh := by
  refine ⟨rfl, rfl, rfl, rfl, rfl, rfl, rfl, rfl, rfl, rfl, rfl, rfl, rfl, rfl, rfl, rfl, rfl, rfl, rfl, rfl, rfl, rfl, rfl⟩

theorem droverOf_setDrover (d : Dev) (k : Nat) (x : Drover) (p : Nat) : droverOf (setDrover d k x) p = if p = k then x else droverOf d p := by
  simp [droverOf, setDrover, Sparse.get_set]

@[simp] theorem setChannel_fields (d : Dev) (ch : Nat) (x : Channel) :
    (setChannel d ch x).variant = d.variant ∧ (setChannel d ch x).straps = d.straps ∧ (setChannel d ch x).full = d.full ∧
    (setChannel d ch x).rg = d.rg ∧ (setChannel d ch x).mem = d.mem ∧ (setChannel d ch x).xl = d.xl ∧
    (setChannel d ch x).gg = d.gg ∧ (setChannel d ch x).qs = d.qs ∧ (setChannel d ch x).disp = d.disp ∧
    (setChannel d ch x).tiles = d.tiles ∧ (setChannel d ch x).drv = d.drv ∧ (setChannel d ch x).reds = d.reds ∧
    (setChannel d ch x).evac = d.evac ∧ (setChannel d ch x).mg = d.mg ∧ (setChannel d ch x).coh = d.coh ∧
    (setChannel d ch x).ports = d.ports ∧ (setChannel d ch x).pw = d.pw ∧ (setChannel d ch x).tr = d.tr ∧
    (setChannel d ch x).fl = d.fl ∧ (setChannel d ch x).id = d.id ∧ (setChannel d ch x).sv = d.sv ∧
    (setChannel d ch x).peal = d.peal ∧ (setChannel d ch x).fresh = d.fresh := by
  refine ⟨rfl, rfl, rfl, rfl, rfl, rfl, rfl, rfl, rfl, rfl, rfl, rfl, rfl, rfl, rfl, rfl, rfl, rfl, rfl, rfl, rfl, rfl, rfl⟩

theorem chanOf_setChannel (d : Dev) (ch : Nat) (x : Channel) (p : Nat) : chanOf (setChannel d ch x) p = if p = ch then x else chanOf d p := by
  simp [chanOf, setChannel, Sparse.get_set]

@[simp] theorem setConvoy_fields (d : Dev) (ch idx : Nat) (x : Convoy) :
    (setConvoy d ch idx x).variant = d.variant ∧ (setConvoy d ch idx x).straps = d.straps ∧
    (setConvoy d ch idx x).full = d.full ∧ (setConvoy d ch idx x).rg = d.rg ∧ (setConvoy d ch idx x).mem = d.mem ∧
    (setConvoy d ch idx x).xl = d.xl ∧ (setConvoy d ch idx x).gg = d.gg ∧ (setConvoy d ch idx x).qs = d.qs ∧
    (setConvoy d ch idx x).disp = d.disp ∧ (setConvoy d ch idx x).tiles = d.tiles ∧ (setConvoy d ch idx x).drv = d.drv ∧
    (setConvoy d ch idx x).reds = d.reds ∧ (setConvoy d ch idx x).evac = d.evac ∧ (setConvoy d ch idx x).mg = d.mg ∧
    (setConvoy d ch idx x).coh = d.coh ∧ (setConvoy d ch idx x).ports = d.ports ∧ (setConvoy d ch idx x).pw = d.pw ∧
    (setConvoy d ch idx x).tr = d.tr ∧ (setConvoy d ch idx x).fl = d.fl ∧ (setConvoy d ch idx x).id = d.id ∧
    (setConvoy d ch idx x).sv = d.sv ∧ (setConvoy d ch idx x).peal = d.peal ∧ (setConvoy d ch idx x).fresh = d.fresh := by
  refine ⟨rfl, rfl, rfl, rfl, rfl, rfl, rfl, rfl, rfl, rfl, rfl, rfl, rfl, rfl, rfl, rfl, rfl, rfl, rfl, rfl, rfl, rfl, rfl⟩

theorem convoyOf_setConvoy (d : Dev) (ch idx : Nat) (x : Convoy) (p : Nat) : convoyOf (setConvoy d ch idx x) ch p = if p = idx then x else convoyOf d ch p := by
  simp [convoyOf, setConvoy, chanOf, setChannel, Sparse.get_set]

@[simp] theorem setPort_fields (d : Dev) (die inst : Nat) (x : Port) :
    (setPort d die inst x).variant = d.variant ∧ (setPort d die inst x).straps = d.straps ∧
    (setPort d die inst x).full = d.full ∧ (setPort d die inst x).rg = d.rg ∧ (setPort d die inst x).mem = d.mem ∧
    (setPort d die inst x).xl = d.xl ∧ (setPort d die inst x).gg = d.gg ∧ (setPort d die inst x).qs = d.qs ∧
    (setPort d die inst x).disp = d.disp ∧ (setPort d die inst x).tiles = d.tiles ∧ (setPort d die inst x).drv = d.drv ∧
    (setPort d die inst x).reds = d.reds ∧ (setPort d die inst x).ch = d.ch ∧ (setPort d die inst x).evac = d.evac ∧
    (setPort d die inst x).mg = d.mg ∧ (setPort d die inst x).coh = d.coh ∧ (setPort d die inst x).pw = d.pw ∧
    (setPort d die inst x).tr = d.tr ∧ (setPort d die inst x).fl = d.fl ∧ (setPort d die inst x).id = d.id ∧
    (setPort d die inst x).sv = d.sv ∧ (setPort d die inst x).peal = d.peal ∧ (setPort d die inst x).fresh = d.fresh := by
  refine ⟨rfl, rfl, rfl, rfl, rfl, rfl, rfl, rfl, rfl, rfl, rfl, rfl, rfl, rfl, rfl, rfl, rfl, rfl, rfl, rfl, rfl, rfl, rfl⟩

theorem portOf_setPort (d : Dev) (die inst : Nat) (x : Port) (a b : Nat) : portOf (setPort d die inst x) a b = if portKey a b = portKey die inst then x else portOf d a b := by
  simp [portOf, setPort, Sparse.get_set]

@[simp] theorem setPeal_fields (d : Dev) (slot : Nat) (x : PealSlot) :
    (setPeal d slot x).variant = d.variant ∧ (setPeal d slot x).straps = d.straps ∧ (setPeal d slot x).full = d.full ∧
    (setPeal d slot x).rg = d.rg ∧ (setPeal d slot x).mem = d.mem ∧ (setPeal d slot x).xl = d.xl ∧
    (setPeal d slot x).gg = d.gg ∧ (setPeal d slot x).qs = d.qs ∧ (setPeal d slot x).disp = d.disp ∧
    (setPeal d slot x).tiles = d.tiles ∧ (setPeal d slot x).drv = d.drv ∧ (setPeal d slot x).reds = d.reds ∧
    (setPeal d slot x).ch = d.ch ∧ (setPeal d slot x).evac = d.evac ∧ (setPeal d slot x).mg = d.mg ∧
    (setPeal d slot x).coh = d.coh ∧ (setPeal d slot x).ports = d.ports ∧ (setPeal d slot x).pw = d.pw ∧
    (setPeal d slot x).tr = d.tr ∧ (setPeal d slot x).fl = d.fl ∧ (setPeal d slot x).id = d.id ∧
    (setPeal d slot x).sv = d.sv ∧ (setPeal d slot x).fresh = d.fresh := by
  refine ⟨rfl, rfl, rfl, rfl, rfl, rfl, rfl, rfl, rfl, rfl, rfl, rfl, rfl, rfl, rfl, rfl, rfl, rfl, rfl, rfl, rfl, rfl, rfl⟩

theorem pealOf_setPeal (d : Dev) (slot : Nat) (x : PealSlot) (p : Nat) : pealOf (setPeal d slot x) p = if p = slot then x else pealOf d p := by
  simp [pealOf, setPeal, Sparse.get_set]

@[simp] theorem setReg_fields (d : Dev) (off : Nat) (v : Word32) :
    (setReg d off v).variant = d.variant ∧ (setReg d off v).straps = d.straps ∧ (setReg d off v).full = d.full ∧
    (setReg d off v).mem = d.mem ∧ (setReg d off v).xl = d.xl ∧ (setReg d off v).gg = d.gg ∧ (setReg d off v).qs = d.qs ∧
    (setReg d off v).disp = d.disp ∧ (setReg d off v).tiles = d.tiles ∧ (setReg d off v).drv = d.drv ∧
    (setReg d off v).reds = d.reds ∧ (setReg d off v).ch = d.ch ∧ (setReg d off v).evac = d.evac ∧
    (setReg d off v).mg = d.mg ∧ (setReg d off v).coh = d.coh ∧ (setReg d off v).ports = d.ports ∧
    (setReg d off v).pw = d.pw ∧ (setReg d off v).tr = d.tr ∧ (setReg d off v).fl = d.fl ∧ (setReg d off v).id = d.id ∧
    (setReg d off v).sv = d.sv ∧ (setReg d off v).peal = d.peal ∧ (setReg d off v).fresh = d.fresh ∧
    (setReg d off v).rg.buf = d.rg.buf ∧ (setReg d off v).rg.votes = d.rg.votes ∧ (setReg d off v).rg.dis = d.rg.dis ∧
    (setReg d off v).rg.mgmt = d.rg.mgmt := by
  refine ⟨rfl, rfl, rfl, rfl, rfl, rfl, rfl, rfl, rfl, rfl, rfl, rfl, rfl, rfl, rfl, rfl, rfl, rfl, rfl, rfl, rfl, rfl, rfl, rfl, rfl, rfl, rfl⟩

theorem regRaw_setReg (d : Dev) (off : Nat) (v : Word32) (p : Nat) : regRaw (setReg d off v) p = if p = off then v else regRaw d p := by
  simp [regRaw, setReg, Sparse.get_set]

@[simp] theorem setBuf_fields (d : Dev) (off : Nat) (b : WBuf) :
    (setBuf d off b).variant = d.variant ∧ (setBuf d off b).straps = d.straps ∧ (setBuf d off b).full = d.full ∧
    (setBuf d off b).mem = d.mem ∧ (setBuf d off b).xl = d.xl ∧ (setBuf d off b).gg = d.gg ∧ (setBuf d off b).qs = d.qs ∧
    (setBuf d off b).disp = d.disp ∧ (setBuf d off b).tiles = d.tiles ∧ (setBuf d off b).drv = d.drv ∧
    (setBuf d off b).reds = d.reds ∧ (setBuf d off b).ch = d.ch ∧ (setBuf d off b).evac = d.evac ∧
    (setBuf d off b).mg = d.mg ∧ (setBuf d off b).coh = d.coh ∧ (setBuf d off b).ports = d.ports ∧
    (setBuf d off b).pw = d.pw ∧ (setBuf d off b).tr = d.tr ∧ (setBuf d off b).fl = d.fl ∧ (setBuf d off b).id = d.id ∧
    (setBuf d off b).sv = d.sv ∧ (setBuf d off b).peal = d.peal ∧ (setBuf d off b).fresh = d.fresh ∧
    (setBuf d off b).rg.val = d.rg.val ∧ (setBuf d off b).rg.votes = d.rg.votes ∧ (setBuf d off b).rg.dis = d.rg.dis ∧
    (setBuf d off b).rg.mgmt = d.rg.mgmt := by
  refine ⟨rfl, rfl, rfl, rfl, rfl, rfl, rfl, rfl, rfl, rfl, rfl, rfl, rfl, rfl, rfl, rfl, rfl, rfl, rfl, rfl, rfl, rfl, rfl, rfl, rfl, rfl, rfl⟩

theorem regBuf_setBuf (d : Dev) (off : Nat) (b : WBuf) (p : Nat) : regBuf (setBuf d off b) p = if p = off then b else regBuf d p := by
  simp [regBuf, setBuf, Sparse.get_set]

@[simp] theorem setTrace_fields (d : Dev) (die : Nat) (u : TraceUnit) :
    (setTrace d die u).variant = d.variant ∧ (setTrace d die u).straps = d.straps ∧ (setTrace d die u).full = d.full ∧
    (setTrace d die u).rg = d.rg ∧ (setTrace d die u).mem = d.mem ∧ (setTrace d die u).xl = d.xl ∧
    (setTrace d die u).gg = d.gg ∧ (setTrace d die u).qs = d.qs ∧ (setTrace d die u).disp = d.disp ∧
    (setTrace d die u).tiles = d.tiles ∧ (setTrace d die u).drv = d.drv ∧ (setTrace d die u).reds = d.reds ∧
    (setTrace d die u).ch = d.ch ∧ (setTrace d die u).evac = d.evac ∧ (setTrace d die u).mg = d.mg ∧
    (setTrace d die u).coh = d.coh ∧ (setTrace d die u).ports = d.ports ∧ (setTrace d die u).pw = d.pw ∧
    (setTrace d die u).fl = d.fl ∧ (setTrace d die u).id = d.id ∧ (setTrace d die u).sv = d.sv ∧
    (setTrace d die u).peal = d.peal ∧ (setTrace d die u).fresh = d.fresh ∧ (setTrace d die u).tr.out = d.tr.out := by
  refine ⟨rfl, rfl, rfl, rfl, rfl, rfl, rfl, rfl, rfl, rfl, rfl, rfl, rfl, rfl, rfl, rfl, rfl, rfl, rfl, rfl, rfl, rfl, rfl, rfl⟩

theorem traceOf_setTrace (d : Dev) (die : Nat) (u : TraceUnit) (p : Nat) : traceOf (setTrace d die u) p = if p = die then u else traceOf d p := by
  simp [traceOf, setTrace, Sparse.get_set]

@[simp] theorem setGong_fields (d : Dev) (g : Nat) (x : Gong) :
    (setGong d g x).variant = d.variant ∧ (setGong d g x).straps = d.straps ∧ (setGong d g x).full = d.full ∧
    (setGong d g x).rg = d.rg ∧ (setGong d g x).mem = d.mem ∧ (setGong d g x).xl = d.xl ∧ (setGong d g x).qs = d.qs ∧
    (setGong d g x).disp = d.disp ∧ (setGong d g x).tiles = d.tiles ∧ (setGong d g x).drv = d.drv ∧
    (setGong d g x).reds = d.reds ∧ (setGong d g x).ch = d.ch ∧ (setGong d g x).evac = d.evac ∧ (setGong d g x).mg = d.mg ∧
    (setGong d g x).coh = d.coh ∧ (setGong d g x).ports = d.ports ∧ (setGong d g x).pw = d.pw ∧ (setGong d g x).tr = d.tr ∧
    (setGong d g x).fl = d.fl ∧ (setGong d g x).id = d.id ∧ (setGong d g x).sv = d.sv ∧ (setGong d g x).peal = d.peal ∧
    (setGong d g x).fresh = d.fresh ∧ (setGong d g x).gg.upd = d.gg.upd ∧ (setGong d g x).gg.cv = d.gg.cv ∧
    (setGong d g x).gg.wait = d.gg.wait ∧ (setGong d g x).gg.chimeHeld = d.gg.chimeHeld ∧
    (setGong d g x).gg.chimeDue = d.gg.chimeDue ∧ (setGong d g x).gg.chimeOut = d.gg.chimeOut := by
  refine ⟨rfl, rfl, rfl, rfl, rfl, rfl, rfl, rfl, rfl, rfl, rfl, rfl, rfl, rfl, rfl, rfl, rfl, rfl, rfl, rfl, rfl, rfl, rfl, rfl, rfl, rfl, rfl, rfl, rfl⟩

theorem gongOf_setGong (d : Dev) (g : Nat) (x : Gong) (p : Nat) : gongOf (setGong d g x) p = if p = g then x else gongOf d p := by
  simp [gongOf, setGong, Sparse.get_set]

@[simp] theorem setFt_fields (d : Dev) (c : Nat) (f : FarTier) :
    (setFt d c f).variant = d.variant ∧ (setFt d c f).straps = d.straps ∧ (setFt d c f).full = d.full ∧
    (setFt d c f).rg = d.rg ∧ (setFt d c f).xl = d.xl ∧ (setFt d c f).gg = d.gg ∧ (setFt d c f).qs = d.qs ∧
    (setFt d c f).disp = d.disp ∧ (setFt d c f).tiles = d.tiles ∧ (setFt d c f).drv = d.drv ∧ (setFt d c f).reds = d.reds ∧
    (setFt d c f).ch = d.ch ∧ (setFt d c f).evac = d.evac ∧ (setFt d c f).mg = d.mg ∧ (setFt d c f).coh = d.coh ∧
    (setFt d c f).ports = d.ports ∧ (setFt d c f).pw = d.pw ∧ (setFt d c f).tr = d.tr ∧ (setFt d c f).fl = d.fl ∧
    (setFt d c f).id = d.id ∧ (setFt d c f).sv = d.sv ∧ (setFt d c f).peal = d.peal ∧ (setFt d c f).fresh = d.fresh ∧
    (setFt d c f).mem.bytes = d.mem.bytes ∧ (setFt d c f).mem.poison = d.mem.poison ∧ (setFt d c f).mem.lines = d.mem.lines ∧
    (setFt d c f).mem.rewr = d.mem.rewr ∧ (setFt d c f).mem.wells = d.mem.wells ∧ (setFt d c f).mem.lost = d.mem.lost ∧
    (setFt d c f).mem.stale = d.mem.stale ∧ (setFt d c f).mem.cut = d.mem.cut ∧ (setFt d c f).mem.past = d.mem.past := by
  refine ⟨rfl, rfl, rfl, rfl, rfl, rfl, rfl, rfl, rfl, rfl, rfl, rfl, rfl, rfl, rfl, rfl, rfl, rfl, rfl, rfl, rfl, rfl, rfl, rfl, rfl, rfl, rfl, rfl, rfl, rfl, rfl, rfl⟩

theorem ftOf_setFt (d : Dev) (c : Nat) (f : FarTier) (p : Nat) : ftOf (setFt d c f) p = if p = c then f else ftOf d p := by
  simp [ftOf, setFt, Sparse.get_set]

@[simp] theorem setWell_fields (d : Dev) (c : Nat) (w : Well) :
    (setWell d c w).variant = d.variant ∧ (setWell d c w).straps = d.straps ∧ (setWell d c w).full = d.full ∧
    (setWell d c w).rg = d.rg ∧ (setWell d c w).xl = d.xl ∧ (setWell d c w).gg = d.gg ∧ (setWell d c w).qs = d.qs ∧
    (setWell d c w).disp = d.disp ∧ (setWell d c w).tiles = d.tiles ∧ (setWell d c w).drv = d.drv ∧
    (setWell d c w).reds = d.reds ∧ (setWell d c w).ch = d.ch ∧ (setWell d c w).evac = d.evac ∧ (setWell d c w).mg = d.mg ∧
    (setWell d c w).coh = d.coh ∧ (setWell d c w).ports = d.ports ∧ (setWell d c w).pw = d.pw ∧ (setWell d c w).tr = d.tr ∧
    (setWell d c w).fl = d.fl ∧ (setWell d c w).id = d.id ∧ (setWell d c w).sv = d.sv ∧ (setWell d c w).peal = d.peal ∧
    (setWell d c w).fresh = d.fresh ∧ (setWell d c w).mem.bytes = d.mem.bytes ∧ (setWell d c w).mem.poison = d.mem.poison ∧
    (setWell d c w).mem.lines = d.mem.lines ∧ (setWell d c w).mem.rewr = d.mem.rewr ∧ (setWell d c w).mem.ft = d.mem.ft ∧
    (setWell d c w).mem.lost = d.mem.lost ∧ (setWell d c w).mem.stale = d.mem.stale ∧ (setWell d c w).mem.cut = d.mem.cut ∧
    (setWell d c w).mem.past = d.mem.past := by
  refine ⟨rfl, rfl, rfl, rfl, rfl, rfl, rfl, rfl, rfl, rfl, rfl, rfl, rfl, rfl, rfl, rfl, rfl, rfl, rfl, rfl, rfl, rfl, rfl, rfl, rfl, rfl, rfl, rfl, rfl, rfl, rfl, rfl⟩

theorem wellOf_setWell (d : Dev) (c : Nat) (w : Well) (p : Nat) : wellOf (setWell d c w) p = if p = c then w else wellOf d p := by
  simp [wellOf, setWell, Sparse.get_set]

@[simp] theorem setWellLine_fields (d : Dev) (ln : Nat) (w : WellLine) :
    (setWellLine d ln w).variant = d.variant ∧ (setWellLine d ln w).straps = d.straps ∧ (setWellLine d ln w).full = d.full ∧
    (setWellLine d ln w).rg = d.rg ∧ (setWellLine d ln w).xl = d.xl ∧ (setWellLine d ln w).gg = d.gg ∧
    (setWellLine d ln w).qs = d.qs ∧ (setWellLine d ln w).disp = d.disp ∧ (setWellLine d ln w).tiles = d.tiles ∧
    (setWellLine d ln w).drv = d.drv ∧ (setWellLine d ln w).reds = d.reds ∧ (setWellLine d ln w).ch = d.ch ∧
    (setWellLine d ln w).evac = d.evac ∧ (setWellLine d ln w).mg = d.mg ∧ (setWellLine d ln w).coh = d.coh ∧
    (setWellLine d ln w).ports = d.ports ∧ (setWellLine d ln w).pw = d.pw ∧ (setWellLine d ln w).tr = d.tr ∧
    (setWellLine d ln w).fl = d.fl ∧ (setWellLine d ln w).id = d.id ∧ (setWellLine d ln w).sv = d.sv ∧
    (setWellLine d ln w).peal = d.peal ∧ (setWellLine d ln w).fresh = d.fresh ∧
    (setWellLine d ln w).mem.bytes = d.mem.bytes ∧ (setWellLine d ln w).mem.poison = d.mem.poison ∧
    (setWellLine d ln w).mem.rewr = d.mem.rewr ∧ (setWellLine d ln w).mem.wells = d.mem.wells ∧
    (setWellLine d ln w).mem.ft = d.mem.ft ∧ (setWellLine d ln w).mem.lost = d.mem.lost ∧
    (setWellLine d ln w).mem.stale = d.mem.stale ∧ (setWellLine d ln w).mem.cut = d.mem.cut ∧
    (setWellLine d ln w).mem.past = d.mem.past := by
  refine ⟨rfl, rfl, rfl, rfl, rfl, rfl, rfl, rfl, rfl, rfl, rfl, rfl, rfl, rfl, rfl, rfl, rfl, rfl, rfl, rfl, rfl, rfl, rfl, rfl, rfl, rfl, rfl, rfl, rfl, rfl, rfl, rfl⟩

theorem wellLine_setWellLine (d : Dev) (ln : Nat) (w : WellLine) (p : Nat) : wellLine (setWellLine d ln w) p = if p = ln then w else wellLine d p := by
  simp [wellLine, setWellLine, Sparse.get_set]

@[simp] theorem setL2_fields (d : Dev) (core ln : Nat) (x : L2Line) :
    (setL2 d core ln x).variant = d.variant ∧ (setL2 d core ln x).straps = d.straps ∧ (setL2 d core ln x).full = d.full ∧
    (setL2 d core ln x).rg = d.rg ∧ (setL2 d core ln x).mem = d.mem ∧ (setL2 d core ln x).xl = d.xl ∧
    (setL2 d core ln x).gg = d.gg ∧ (setL2 d core ln x).qs = d.qs ∧ (setL2 d core ln x).disp = d.disp ∧
    (setL2 d core ln x).tiles = d.tiles ∧ (setL2 d core ln x).drv = d.drv ∧ (setL2 d core ln x).reds = d.reds ∧
    (setL2 d core ln x).ch = d.ch ∧ (setL2 d core ln x).evac = d.evac ∧ (setL2 d core ln x).mg = d.mg ∧
    (setL2 d core ln x).ports = d.ports ∧ (setL2 d core ln x).pw = d.pw ∧ (setL2 d core ln x).tr = d.tr ∧
    (setL2 d core ln x).fl = d.fl ∧ (setL2 d core ln x).id = d.id ∧ (setL2 d core ln x).sv = d.sv ∧
    (setL2 d core ln x).peal = d.peal ∧ (setL2 d core ln x).fresh = d.fresh ∧ (setL2 d core ln x).coh.dir = d.coh.dir ∧
    (setL2 d core ln x).coh.txns = d.coh.txns ∧ (setL2 d core ln x).coh.waiting = d.coh.waiting ∧
    (setL2 d core ln x).coh.net = d.coh.net ∧ (setL2 d core ln x).coh.mshr = d.coh.mshr ∧
    (setL2 d core ln x).coh.wbs = d.coh.wbs ∧ (setL2 d core ln x).coh.resv = d.coh.resv ∧
    (setL2 d core ln x).coh.defer = d.coh.defer ∧ (setL2 d core ln x).coh.lr = d.coh.lr ∧
    (setL2 d core ln x).coh.sent = d.coh.sent ∧ (setL2 d core ln x).coh.crossed = d.coh.crossed ∧
    (setL2 d core ln x).coh.out = d.coh.out := by
  refine ⟨rfl, rfl, rfl, rfl, rfl, rfl, rfl, rfl, rfl, rfl, rfl, rfl, rfl, rfl, rfl, rfl, rfl, rfl, rfl, rfl, rfl, rfl, rfl, rfl, rfl, rfl, rfl, rfl, rfl, rfl, rfl, rfl, rfl, rfl, rfl⟩

theorem l2Of_setL2 (d : Dev) (core ln : Nat) (x : L2Line) (a b : Nat) : l2Of (setL2 d core ln x) a b = if b * 64 + a = ln * 64 + core then x else l2Of d a b := by
  simp [l2Of, setL2, Sparse.get_set]

@[simp] theorem setDir_fields (d : Dev) (ln : Nat) (e : DirEntry) :
    (setDir d ln e).variant = d.variant ∧ (setDir d ln e).straps = d.straps ∧ (setDir d ln e).full = d.full ∧
    (setDir d ln e).rg = d.rg ∧ (setDir d ln e).mem = d.mem ∧ (setDir d ln e).xl = d.xl ∧ (setDir d ln e).gg = d.gg ∧
    (setDir d ln e).qs = d.qs ∧ (setDir d ln e).disp = d.disp ∧ (setDir d ln e).tiles = d.tiles ∧
    (setDir d ln e).drv = d.drv ∧ (setDir d ln e).reds = d.reds ∧ (setDir d ln e).ch = d.ch ∧ (setDir d ln e).evac = d.evac ∧
    (setDir d ln e).mg = d.mg ∧ (setDir d ln e).ports = d.ports ∧ (setDir d ln e).pw = d.pw ∧ (setDir d ln e).tr = d.tr ∧
    (setDir d ln e).fl = d.fl ∧ (setDir d ln e).id = d.id ∧ (setDir d ln e).sv = d.sv ∧ (setDir d ln e).peal = d.peal ∧
    (setDir d ln e).fresh = d.fresh ∧ (setDir d ln e).coh.l2 = d.coh.l2 ∧ (setDir d ln e).coh.txns = d.coh.txns ∧
    (setDir d ln e).coh.waiting = d.coh.waiting ∧ (setDir d ln e).coh.net = d.coh.net ∧
    (setDir d ln e).coh.mshr = d.coh.mshr ∧ (setDir d ln e).coh.wbs = d.coh.wbs ∧ (setDir d ln e).coh.resv = d.coh.resv ∧
    (setDir d ln e).coh.defer = d.coh.defer ∧ (setDir d ln e).coh.lr = d.coh.lr ∧ (setDir d ln e).coh.sent = d.coh.sent ∧
    (setDir d ln e).coh.crossed = d.coh.crossed ∧ (setDir d ln e).coh.out = d.coh.out := by
  refine ⟨rfl, rfl, rfl, rfl, rfl, rfl, rfl, rfl, rfl, rfl, rfl, rfl, rfl, rfl, rfl, rfl, rfl, rfl, rfl, rfl, rfl, rfl, rfl, rfl, rfl, rfl, rfl, rfl, rfl, rfl, rfl, rfl, rfl, rfl, rfl⟩

theorem dirOf_setDir (d : Dev) (ln : Nat) (e : DirEntry) (p : Nat) : dirOf (setDir d ln e) p = if p = ln then tidyDir e else dirOf d p := by
  simp [dirOf, setDir, Sparse.get_set]

@[simp] theorem setLr_fields (d : Dev) (core : Nat) (o : Option Nat) :
    (setLr d core o).variant = d.variant ∧ (setLr d core o).straps = d.straps ∧ (setLr d core o).full = d.full ∧
    (setLr d core o).rg = d.rg ∧ (setLr d core o).mem = d.mem ∧ (setLr d core o).xl = d.xl ∧ (setLr d core o).gg = d.gg ∧
    (setLr d core o).qs = d.qs ∧ (setLr d core o).disp = d.disp ∧ (setLr d core o).tiles = d.tiles ∧
    (setLr d core o).drv = d.drv ∧ (setLr d core o).reds = d.reds ∧ (setLr d core o).ch = d.ch ∧
    (setLr d core o).evac = d.evac ∧ (setLr d core o).mg = d.mg ∧ (setLr d core o).ports = d.ports ∧
    (setLr d core o).pw = d.pw ∧ (setLr d core o).tr = d.tr ∧ (setLr d core o).fl = d.fl ∧ (setLr d core o).id = d.id ∧
    (setLr d core o).sv = d.sv ∧ (setLr d core o).peal = d.peal ∧ (setLr d core o).fresh = d.fresh ∧
    (setLr d core o).coh.l2 = d.coh.l2 ∧ (setLr d core o).coh.dir = d.coh.dir ∧ (setLr d core o).coh.txns = d.coh.txns ∧
    (setLr d core o).coh.waiting = d.coh.waiting ∧ (setLr d core o).coh.net = d.coh.net ∧
    (setLr d core o).coh.mshr = d.coh.mshr ∧ (setLr d core o).coh.wbs = d.coh.wbs ∧ (setLr d core o).coh.resv = d.coh.resv ∧
    (setLr d core o).coh.defer = d.coh.defer ∧ (setLr d core o).coh.sent = d.coh.sent ∧
    (setLr d core o).coh.crossed = d.coh.crossed ∧ (setLr d core o).coh.out = d.coh.out := by
  refine ⟨rfl, rfl, rfl, rfl, rfl, rfl, rfl, rfl, rfl, rfl, rfl, rfl, rfl, rfl, rfl, rfl, rfl, rfl, rfl, rfl, rfl, rfl, rfl, rfl, rfl, rfl, rfl, rfl, rfl, rfl, rfl, rfl, rfl, rfl, rfl⟩

@[simp] theorem setSent_fields (d : Dev) (core ln k : Nat) :
    (setSent d core ln k).variant = d.variant ∧ (setSent d core ln k).straps = d.straps ∧
    (setSent d core ln k).full = d.full ∧ (setSent d core ln k).rg = d.rg ∧ (setSent d core ln k).mem = d.mem ∧
    (setSent d core ln k).xl = d.xl ∧ (setSent d core ln k).gg = d.gg ∧ (setSent d core ln k).qs = d.qs ∧
    (setSent d core ln k).disp = d.disp ∧ (setSent d core ln k).tiles = d.tiles ∧ (setSent d core ln k).drv = d.drv ∧
    (setSent d core ln k).reds = d.reds ∧ (setSent d core ln k).ch = d.ch ∧ (setSent d core ln k).evac = d.evac ∧
    (setSent d core ln k).mg = d.mg ∧ (setSent d core ln k).ports = d.ports ∧ (setSent d core ln k).pw = d.pw ∧
    (setSent d core ln k).tr = d.tr ∧ (setSent d core ln k).fl = d.fl ∧ (setSent d core ln k).id = d.id ∧
    (setSent d core ln k).sv = d.sv ∧ (setSent d core ln k).peal = d.peal ∧ (setSent d core ln k).fresh = d.fresh ∧
    (setSent d core ln k).coh.l2 = d.coh.l2 ∧ (setSent d core ln k).coh.dir = d.coh.dir ∧
    (setSent d core ln k).coh.txns = d.coh.txns ∧ (setSent d core ln k).coh.waiting = d.coh.waiting ∧
    (setSent d core ln k).coh.net = d.coh.net ∧ (setSent d core ln k).coh.mshr = d.coh.mshr ∧
    (setSent d core ln k).coh.wbs = d.coh.wbs ∧ (setSent d core ln k).coh.resv = d.coh.resv ∧
    (setSent d core ln k).coh.defer = d.coh.defer ∧ (setSent d core ln k).coh.lr = d.coh.lr ∧
    (setSent d core ln k).coh.crossed = d.coh.crossed ∧ (setSent d core ln k).coh.out = d.coh.out := by
  refine ⟨rfl, rfl, rfl, rfl, rfl, rfl, rfl, rfl, rfl, rfl, rfl, rfl, rfl, rfl, rfl, rfl, rfl, rfl, rfl, rfl, rfl, rfl, rfl, rfl, rfl, rfl, rfl, rfl, rfl, rfl, rfl, rfl, rfl, rfl, rfl⟩

@[simp] theorem hostSees_fields (d : Dev) (r : HostResult) :
    (hostSees d r).variant = d.variant ∧ (hostSees d r).straps = d.straps ∧ (hostSees d r).full = d.full ∧
    (hostSees d r).rg = d.rg ∧ (hostSees d r).mem = d.mem ∧ (hostSees d r).xl = d.xl ∧ (hostSees d r).gg = d.gg ∧
    (hostSees d r).qs = d.qs ∧ (hostSees d r).disp = d.disp ∧ (hostSees d r).tiles = d.tiles ∧ (hostSees d r).drv = d.drv ∧
    (hostSees d r).reds = d.reds ∧ (hostSees d r).ch = d.ch ∧ (hostSees d r).evac = d.evac ∧ (hostSees d r).mg = d.mg ∧
    (hostSees d r).ports = d.ports ∧ (hostSees d r).pw = d.pw ∧ (hostSees d r).tr = d.tr ∧ (hostSees d r).fl = d.fl ∧
    (hostSees d r).id = d.id ∧ (hostSees d r).sv = d.sv ∧ (hostSees d r).peal = d.peal ∧ (hostSees d r).fresh = d.fresh ∧
    (hostSees d r).coh.l2 = d.coh.l2 ∧ (hostSees d r).coh.dir = d.coh.dir ∧ (hostSees d r).coh.txns = d.coh.txns ∧
    (hostSees d r).coh.waiting = d.coh.waiting ∧ (hostSees d r).coh.net = d.coh.net ∧ (hostSees d r).coh.mshr = d.coh.mshr ∧
    (hostSees d r).coh.wbs = d.coh.wbs ∧ (hostSees d r).coh.resv = d.coh.resv ∧ (hostSees d r).coh.defer = d.coh.defer ∧
    (hostSees d r).coh.lr = d.coh.lr ∧ (hostSees d r).coh.sent = d.coh.sent ∧ (hostSees d r).coh.crossed = d.coh.crossed := by
  refine ⟨rfl, rfl, rfl, rfl, rfl, rfl, rfl, rfl, rfl, rfl, rfl, rfl, rfl, rfl, rfl, rfl, rfl, rfl, rfl, rfl, rfl, rfl, rfl, rfl, rfl, rfl, rfl, rfl, rfl, rfl, rfl, rfl, rfl, rfl, rfl⟩

end Sys2Proof.Machine
end

