-- ==== Sys2Proof/Laws/Issue.lean ====
section
/-! SUPPORT. What the issue of an instruction by a path does. -/

namespace Sys2Proof.Machine

open Parts

theorem lowNat_testBit (n x : Nat) (h : lowNat n x < n) : x.testBit (lowNat n x) = true := by
  induction n generalizing x with
  | zero => simp [lowNat] at h
  | succ n ih =>
    simp only [lowNat] at h ⊢
    split at h
    · rename_i h1; simp [h1]
    · rename_i h1
      rw [if_neg h1, Nat.testBit_succ]
      exact ih _ (by omega)

theorem lowNat_le (n x i : Nat) (h : x.testBit i = true) (hi : i < n) : lowNat n x ≤ i := by
  induction n generalizing x i with
  | zero => omega
  | succ n ih =>
    simp only [lowNat]
    split
    · omega
    · rename_i h1
      cases i with
      | zero => simp at h; omega
      | succ i => rw [Nat.testBit_succ] at h; have := ih _ i h (by omega); omega

/-- The leader of a path that holds a lane is one of its lanes. -/
theorem bit_leader (p : Path) (l : Nat) (h : bit p.lanes l = true) : bit p.lanes (leader p) = true := by
  have hl : l < 32 := by
    apply Classical.byContradiction
    intro hn
    have h2 : p.lanes.toNat < 2 ^ l := Nat.lt_of_lt_of_le p.lanes.isLt (Nat.pow_le_pow_right (by omega) (by omega))
    have := Nat.testBit_lt_two_pow h2
    simp [bit, this] at h
  have := lowNat_le 32 p.lanes.toNat l h hl
  exact lowNat_testBit 32 p.lanes.toNat (by omega)

/-- A merged path keeps its lanes. -/
theorem bit_joinedPath (g : Group) (ok : Path → Bool) (p : Path) (l : Nat) (h : bit p.lanes l = true) :
    bit (joinedPath g ok p).lanes l = true := by
  have key : ∀ (qs : List Path) (m : BitVec 32), bit m l = true → bit (qs.foldl (fun m q => m ||| q.lanes) m) l = true := by
    intro qs
    induction qs with
    | nil => intro m hm; exact hm
    | cons q qs ih => intro m hm; exact ih _ (by simp [bit] at hm ⊢; exact Or.inl hm)
  exact key _ _ h

/-- What a merge keeps of the path and the group. -/
theorem issuingPath_eq {x : Tile} {g₀ g : Group} {slot : Nat} {w : Word64} {p₀ p : Path}
    (h : issuingPath x g₀ slot w p₀ = some (g, p)) :
    mayStart x g₀ slot w p₀ = true ∧ p = { p₀ with lanes := p.lanes } ∧ g = { g₀ with paths := g.paths } ∧
      ∀ l, bit p₀.lanes l = true → bit p.lanes l = true := by
  unfold issuingPath at h
  split at h
  · rename_i hm
    simp only [Option.some.injEq, Prod.mk.injEq] at h
    obtain ⟨rfl, rfl⟩ := h
    exact ⟨hm, rfl, rfl, fun l hl => bit_joinedPath _ _ _ _ hl⟩
  · cases h

theorem find?_some_bit {g : Group} {l : Nat} {p : Path} (h : pathOf g l = some p) : bit p.lanes l = true := by
  simpa using List.find?_some h

theorem issuedTile_eq (x : Tile) (slot : Nat) (g : Group) (p : Path) (w : Word64) :
    issuedTile x slot g p (1 + wExt w) = { setGroup x slot (movedGroup g p w) with ord := x.ord + 1 } := rfl

theorem groupAt_issued (x : Tile) (slot : Nat) (g : Group) (p : Path) (w : Word64) :
    groupAt (issuedTile x slot g p (1 + wExt w)) slot = some (movedGroup g p w) := by
  rw [issuedTile_eq]; exact groupAt_setGroup_same x slot _

/-- The issue of an instruction that `sel` takes: its meaning acts on the package with the path moved past it; then the group
settles. -/
theorem issueThread_issues {d : Dev} {r : PathRef} {g : Group} {p : Path} {b : Block} {w : Word64} {op : Op}
    {imms : List Word64} {sel : Op → Bool} (h : Issues d r g p b w op imms) (hs : sel op = true)
    (f : Dev → Ctx → Option Dev) :
    issueThread r sel d f = match f (issuedDev d r g p w) (issueCtx d r g p b w op imms) with
      | none => d
      | some e => settleSlot e r.cd r.tile r.slot := by
  obtain ⟨g₀, p₀, hg, hp, hi⟩ := h.path
  obtain ⟨-, ep, eg, hl⟩ := issuingPath_eq hi
  have hb := bit_leader p r.lane (hl _ (find?_some_bit hp))
  have hblk : blockOf (tileOf d r.cd r.tile) g₀.blk = some b := by rw [← h.block, eg]
  have hpc : p₀.pc = p.pc := by rw [ep]
  have hq : pathOf (movedGroup g p w) (leader p) = some (movedPath p w) := by
    have : bit (movedPath p w).lanes (leader p) = true := hb
    simp [pathOf, movedGroup, this]
  unfold issueThread
  simp [hg, hp, hblk, h.may, hpc, h.word, h.decodes, hi, hs, h.immediates, h.legal, groupAt_issued, hq]
  rfl

/-- Settling a group changes nothing but its paths. -/
theorem settleSlot_group {e : Dev} {c t slot : Nat} {h : Group} (hg : groupAt (tileOf e c t) slot = some h) :
    settleSlot e c t slot = setTile e c t (setGroup (tileOf e c t) slot (settleGroup h)) := by
  simp [settleSlot, hg]

theorem threadAt_foldl_setThread (g h : Group) (ls : List Nat) (f : Nat → Thread → Thread) (l : Nat) :
    threadAt (ls.foldl (fun h l => setThread h l (f l (threadAt g l))) h) l =
      if l ∈ ls then f l (threadAt g l) else threadAt h l := by
  induction ls generalizing h with
  | nil => simp
  | cons a ls ih =>
    simp only [List.foldl_cons, ih, threadAt_setThread, List.mem_cons]
    by_cases h1 : l ∈ ls <;> by_cases h2 : l = a <;> simp [h1, h2]

/-- Each lane of a list is changed from its own state before; no other lane is. -/
theorem threadAt_setLanes (g : Group) (ls : List Nat) (f : Nat → Thread → Thread) (l : Nat) :
    threadAt (setLanes g ls f) l = if l ∈ ls then f l (threadAt g l) else threadAt g l :=
  threadAt_foldl_setThread g g ls f l

theorem setLanes_frame (g : Group) (ls : List Nat) (f : Nat → Thread → Thread) :
    setLanes g ls f = { g with thr := (setLanes g ls f).thr } := by
  suffices H : ∀ h : Group, h = { g with thr := h.thr } →
      ls.foldl (fun h l => setThread h l (f l (threadAt g l))) h =
        { g with thr := (ls.foldl (fun h l => setThread h l (f l (threadAt g l))) h).thr } from H g rfl
  induction ls with
  | nil => intro h hh; exact hh
  | cons a ls ih => intro h hh; exact ih _ (by rw [hh]; rfl)

/-- What `guarded` answers where no guard is poisoned. -/
theorem guarded_clean {d : Dev} {r : PathRef} {g : Group} {p : Path} {b : Block} {w : Word64} {op : Op}
    {imms : List Word64} (hc : GuardsClean w g p) :
    guarded (issueCtx d r g p b w op imms) = .inr (execLanes w g p) := by
  have : (laneList p.lanes).find? (fun l => guardPoison w (threadAt g l)) = none := by
    rw [List.find?_eq_none]; intro l hl; simp [hc l hl]
  show (match (laneList p.lanes).find? (fun l => guardPoison w (threadAt g l)) with
    | some l => Sum.inl l
    | none => Sum.inr ((laneList p.lanes).filter fun l => guardOk w (threadAt g l))) = _
  rw [this]; rfl

/-- The issue of an instruction with a guard in each lane. -/
theorem issueLanes_issues {d : Dev} {r : PathRef} {g : Group} {p : Path} {b : Block} {w : Word64} {op : Op}
    {imms : List Word64} {sel : Op → Bool} (h : Issues d r g p b w op imms) (hs : sel op = true) (hc : GuardsClean w g p)
    (f : Dev → Ctx → List Nat → Option Dev) :
    issueLanes r sel d f = match f (issuedDev d r g p w) (issueCtx d r g p b w op imms) (execLanes w g p) with
      | none => d
      | some e => settleSlot e r.cd r.tile r.slot := by
  rw [issueLanes, issueThread_issues h hs, guarded_clean hc]

/-- The issue of an instruction whose guard the leader decides. -/
theorem issueLeader_issues {d : Dev} {r : PathRef} {g : Group} {p : Path} {b : Block} {w : Word64} {op : Op}
    {imms : List Word64} {sel : Op → Bool} (h : Issues d r g p b w op imms) (hs : sel op = true) (hc : LeaderGoes w g p)
    (f : Dev → Ctx → Thread → Option Dev) :
    issueLeader r sel d f = match f (issuedDev d r g p w) (issueCtx d r g p b w op imms) (threadAt g (leader p)) with
      | none => d
      | some e => settleSlot e r.cd r.tile r.slot := by
  rw [issueLeader, issueThread_issues h hs]
  have h1 : guardPoison (issueCtx d r g p b w op imms).w (threadAt (issueCtx d r g p b w op imms).g
    (leader (issueCtx d r g p b w op imms).p)) = false := hc.1
  have h2 : guardOk (issueCtx d r g p b w op imms).w (threadAt (issueCtx d r g p b w op imms).g
    (leader (issueCtx d r g p b w op imms).p)) = true := hc.2
  simp only [h1, h2, if_true, Bool.false_eq_true, if_false]
  rfl

theorem tileOf_issuedDev (d : Dev) (r : PathRef) (g : Group) (p : Path) (w : Word64) :
    tileOf (issuedDev d r g p w) r.cd r.tile = issuedTile (tileOf d r.cd r.tile) r.slot g p (1 + wExt w) := by
  simp [issuedDev]

/-- An issue that changes the group by `f` and nothing else. -/
theorem updGroup_issued {d : Dev} {r : PathRef} {g : Group} {p : Path} {b : Block} {w : Word64} {op : Op}
    {imms : List Word64} (f : Group → Group) :
    updGroup (issuedDev d r g p w) (issueCtx d r g p b w op imms) f =
      setTile (issuedDev d r g p w) r.cd r.tile
        (setGroup (issuedTile (tileOf d r.cd r.tile) r.slot g p (1 + wExt w)) r.slot (f (movedGroup g p w))) := by
  show updGroup (issuedDev d r g p w) ⟨r.cd, r.tile, r.slot, _, _, _, _, _, _, _, _⟩ f = _
  simp [updGroup, tileOf_issuedDev, groupAt_issued]

/-- What an issue leaves alone that ends with a group put into its slot. -/
theorem onlyGroup_issued {d e : Dev} {r : PathRef} {g h : Group} {p : Path} {w : Word64} {x : Tile}
    (hx : x = { issuedTile (tileOf d r.cd r.tile) r.slot g p (1 + wExt w) with slots := x.slots })
    (hs : ∀ s, s ≠ r.slot → groupAt x s = groupAt (issuedTile (tileOf d r.cd r.tile) r.slot g p (1 + wExt w)) s)
    (he : e = setTile (setTile (issuedDev d r g p w) r.cd r.tile x) r.cd r.tile (setGroup x r.slot h)) :
    OnlyGroup d e r := by
  subst he
  refine ⟨⟨rfl, ?_⟩, ?_, ?_⟩
  · intro c' t' hne; simp [tileOf_setTile, issuedDev, hne]
  · simp only [tileOf_setTile_same]
    rw [hx]; rfl
  · intro slot hne
    rw [tileOf_setTile_same, groupAt_setGroup, if_neg hne, hs slot hne, issuedTile_eq]
    show groupAt (setGroup _ _ _) slot = _
    rw [groupAt_setGroup, if_neg hne]

/-- An instruction that changes only its group: what it leaves alone, and the group after it. -/
theorem group_issued {d : Dev} {r : PathRef} {g : Group} {p : Path} {b : Block} {w : Word64} {op : Op} {imms : List Word64}
    (f : Group → Group) :
    let e := settleSlot (updGroup (issuedDev d r g p w) (issueCtx d r g p b w op imms) f) r.cd r.tile r.slot
    OnlyGroup d e r ∧ groupAt (tileOf e r.cd r.tile) r.slot = some (settleGroup (f (movedGroup g p w))) := by
  rw [updGroup_issued]
  have hg : groupAt (tileOf (setTile (issuedDev d r g p w) r.cd r.tile
      (setGroup (issuedTile (tileOf d r.cd r.tile) r.slot g p (1 + wExt w)) r.slot (f (movedGroup g p w)))) r.cd r.tile) r.slot
      = some (f (movedGroup g p w)) := by simp
  rw [settleSlot_group hg, tileOf_setTile_same]
  refine ⟨onlyGroup_issued (x := setGroup (issuedTile (tileOf d r.cd r.tile) r.slot g p (1 + wExt w)) r.slot
    (f (movedGroup g p w))) rfl ?_ rfl, by simp⟩
  intro s hs; simp [groupAt_setGroup, hs]

/-- An instruction that changes each executing thread: what it leaves alone, and every thread after it. -/
theorem perLane_issues {d : Dev} {r : PathRef} {g : Group} {p : Path} {b : Block} {w : Word64} {op : Op}
    {imms : List Word64} {sel : Op → Bool} (h : Issues d r g p b w op imms) (hs : sel op = true) (hc : GuardsClean w g p)
    (f : Ctx → Nat → Thread → Thread) :
    OnlyGroup d (perLane r sel d f) r ∧
      GroupIs (perLane r sel d f) r g fun l =>
        if l ∈ execLanes w g p then f (issueCtx d r g p b w op imms) l (threadAt g l) else threadAt g l := by
  rw [perLane, issueLanes_issues h hs hc]
  have H := group_issued (d := d) (r := r) (g := g) (p := p) (b := b) (w := w) (op := op) (imms := imms)
    (fun y => setLanes y (execLanes w g p) (f (issueCtx d r g p b w op imms)))
  refine ⟨H.1, _, H.2, ?_, ?_⟩
  · show settleGroup (setLanes (movedGroup g p w) (execLanes w g p) (f (issueCtx d r g p b w op imms))) = _
    rw [setLanes_frame]; rfl
  · intro l; exact threadAt_setLanes (movedGroup g p w) _ _ l

end Sys2Proof.Machine
end

