-- ==== Sys2Proof/Laws/Memory.lean ====
section
/-! SUPPORT. Every operation on storage keeps the canonical form of its bytes; what a byte of storage reads as after a write. -/

namespace Sys2Proof.Machine

/-- Masked bytes of a line put into storage keep the canonical form. -/
theorem Memory.wf_putBytes (m : List Host.Cell) (ln : Nat) (data : Line) (mask : BitVec 64) (h : Memory.wf m = true) :
    Memory.wf (putBytes m ln data mask) = true := by
  unfold putBytes
  generalize upto 64 = l
  induction l generalizing m with
  | nil => simpa using h
  | cons i l ih =>
    simp only [List.foldl_cons]
    apply ih
    split
    · exact Sparse.wf_set memZero m _ _ h
    · exact h

theorem Memory.wf_setRaw (d : Dev) (ln : Nat) (data : Line) (mask : BitVec 64) (h : Memory.wf d.mem.bytes = true) :
    Memory.wf (setRaw d ln data mask).mem.bytes = true := Memory.wf_putBytes _ _ _ _ h

theorem Memory.wf_zeroRange (d : Dev) (lo n : Nat) (h : Memory.wf d.mem.bytes = true) :
    Memory.wf (zeroRange d lo n).mem.bytes = true := Sparse.wf_filter _ _ _ h

@[simp] theorem setRawPoison_bytes (d : Dev) (ln : Nat) (p : Bool) : (setRawPoison d ln p).mem.bytes = d.mem.bytes := rfl
@[simp] theorem setWellLine_bytes (d : Dev) (ln : Nat) (w : Parts.WellLine) :
    (setWellLine d ln w).mem.bytes = d.mem.bytes := rfl
@[simp] theorem setFt_bytes (d : Dev) (c : Nat) (f : Parts.FarTier) : (setFt d c f).mem.bytes = d.mem.bytes := rfl
@[simp] theorem addCtr_bytes (d : Dev) (off n : Nat) : (addCtr d off n).mem.bytes = d.mem.bytes := id rfl
@[simp] theorem breakResv_bytes (d : Dev) (ln : Nat) : (breakResv d ln).mem.bytes = d.mem.bytes := rfl

@[simp] theorem keepLine_bytes (d : Dev) (c l ln : Nat) : (keepLine d c l ln).mem.bytes = d.mem.bytes := by
  unfold keepLine; split
  · rfl
  · exact setWellLine_bytes _ _ _

/-- A fill of a home changes no byte of storage. -/
@[simp] theorem homeFill_bytes (d : Dev) (ln : Nat) : (homeFill d ln).mem.bytes = d.mem.bytes := by
  unfold homeFill
  split
  · rfl
  · split
    · exact addCtr_bytes _ _ _
    · split
      · rfl
      · rw [keepLine_bytes, addCtr_bytes, addCtr_bytes]

theorem Memory.wf_sectorWrite (d : Dev) (c ln : Nat) (data : Line) (p : Bool) (h : Memory.wf d.mem.bytes = true) :
    Memory.wf (sectorWrite d c ln data p).mem.bytes = true := by
  simpa [sectorWrite] using Memory.wf_setRaw d ln data fullMask h

theorem Memory.wf_evictLine (d : Dev) (ln : Nat) (h : Memory.wf d.mem.bytes = true) :
    Memory.wf (evictLine d ln).mem.bytes = true := by
  unfold evictLine
  dsimp only
  split
  · split
    · exact Memory.wf_sectorWrite _ _ _ _ _ (by simpa using h)
    · simpa using h
  · simpa using h

/-- What moves must not see of a line is noted apart from storage. -/
@[simp] theorem notePast_bytes (d : Dev) (ln : Nat) : (notePast d ln).mem.bytes = d.mem.bytes := by
  unfold notePast; split <;> rfl

theorem Memory.wf_putLine (d : Dev) (ln : Nat) (data : Line) (mask : BitVec 64) (p : Bool) (h : Memory.wf d.mem.bytes = true) :
    Memory.wf (putLine d ln data mask p).mem.bytes = true := by
  unfold putLine
  split
  · exact h
  · dsimp only
    split
    · split
      · simpa using h
      · exact Memory.wf_sectorWrite _ _ _ _ _ (by simpa using h)
    · simpa using Memory.wf_setRaw _ ln data mask (by simpa using h)

theorem Memory.wf_writeLine (d : Dev) (ln : Nat) (data : Line) (mask : BitVec 64) (p : Bool) (h : Memory.wf d.mem.bytes = true) :
    Memory.wf (writeLine d ln data mask p).mem.bytes = true := by
  unfold writeLine
  exact Memory.wf_putLine _ _ _ _ _ (by simpa using h)

theorem Memory.wf_writeSpan (k : Nat) (d : Dev) (pa : Nat) (bs : List Byte) (p : Bool) (h : Memory.wf d.mem.bytes = true) :
    Memory.wf (writeSpan k d pa bs p).mem.bytes = true := by
  induction k generalizing d pa bs with
  | zero => exact h
  | succ k ih =>
    unfold writeSpan
    split
    · exact h
    · exact ih _ _ _ (Memory.wf_writeLine _ _ _ _ _ h)

theorem Memory.wf_writeAt (d : Dev) (pa : Nat) (bs : List Byte) (p : Bool) (h : Memory.wf d.mem.bytes = true) :
    Memory.wf (writeAt d pa bs p).mem.bytes = true := Memory.wf_writeSpan _ _ _ _ _ h

theorem Memory.wf_resetStorage (d : Dev) (c : Nat) (h : Memory.wf d.mem.bytes = true) :
    Memory.wf (resetStorage d c).mem.bytes = true := by
  unfold resetStorage
  dsimp only
  split <;> exact Sparse.wf_filter _ _ _ h

/-- Nothing is stored without power. -/
theorem Memory.wf_dark (v : Nat) (fl : Parts.Flash) : Memory.wf (Dev.dark v fl).mem.bytes = true := rfl

/-- The memory at reset has the canonical form. -/
theorem Memory.wf_reset : Memory.wf State.reset.dev.mem.bytes = true := rfl

/-- A byte of storage after masked bytes of a line have been put in. -/
theorem get_putBytes (m : List Host.Cell) (ln : Nat) (data : Line) (mask : BitVec 64) (a : Nat) :
    Sparse.get memZero (putBytes m ln data mask) a =
      if a / 64 = ln ∧ bit mask (a % 64) = true then lineByte data (a % 64) else Sparse.get memZero m a := by
  unfold putBytes
  have key : ∀ n, n ≤ 64 → Sparse.get memZero ((upto n).foldl (fun m i =>
      if bit mask i then Sparse.set memZero m (ln * 64 + i) (lineByte data i) else m) m) a =
      if a / 64 = ln ∧ a % 64 < n ∧ bit mask (a % 64) = true then lineByte data (a % 64) else Sparse.get memZero m a := by
    intro n hn
    induction n with
    | zero => simp [upto]
    | succ n ih =>
      have ih := ih (by omega)
      simp only [upto, List.range_succ, List.foldl_append, List.foldl_cons, List.foldl_nil] at ih ⊢
      by_cases hm : bit mask n = true
      · rw [if_pos hm, Sparse.get_set, ih]
        by_cases ha : a = ln * 64 + n
        · subst ha
          have h1 : (ln * 64 + n) / 64 = ln := by omega
          have h2 : (ln * 64 + n) % 64 = n := by omega
          simp [h1, h2, hm]
        · rw [if_neg ha]
          have : (a / 64 = ln ∧ a % 64 < n + 1 ∧ bit mask (a % 64) = true) ↔ (a / 64 = ln ∧ a % 64 < n ∧ bit mask (a % 64) = true) := by
            constructor
            · rintro ⟨h1, h2, h3⟩; exact ⟨h1, by omega, h3⟩
            · rintro ⟨h1, h2, h3⟩; exact ⟨h1, by omega, h3⟩
          simp only [this]
      · rw [if_neg hm, ih]
        have : (a / 64 = ln ∧ a % 64 < n + 1 ∧ bit mask (a % 64) = true) ↔ (a / 64 = ln ∧ a % 64 < n ∧ bit mask (a % 64) = true) := by
          constructor
          · rintro ⟨h1, h2, h3⟩
            refine ⟨h1, ?_, h3⟩
            rcases Nat.lt_succ_iff_lt_or_eq.1 h2 with h | h
            · exact h
            · rw [h] at h3; exact absurd h3 hm
          · rintro ⟨h1, h2, h3⟩; exact ⟨h1, by omega, h3⟩
        simp only [this]
  have := key 64 (by omega)
  rw [this]
  have : a % 64 < 64 := by omega
  simp [this]

end Sys2Proof.Machine
end

