-- ==== Sys2Proof/Laws/Unit.lean ====
section
/-! SUPPORT. What the issue of a unit instruction does. -/

namespace Sys2Proof.Machine

open Parts

theorem setUnit_slots (x : Tile) (u : UnitSel) (q : UnitQ) : (setUnit x u q).slots = x.slots := by cases u <;> rfl

theorem unitOf_issued (x : Tile) (slot : Nat) (g : Group) (p : Path) (w : Word64) (u : UnitSel) :
    unitOf (issuedTile x slot g p (1 + wExt w)) u = unitOf x u := by cases u <;> rfl

variable {d : Dev} {r : PathRef} {g : Group} {p : Path} {b : Block} {w : Word64} {op : Op} {imms : List Word64}
  {sel : Op → Bool} {u : UnitSel} {us : Ctx → List Nat} {chk : Ctx → List Nat → UnitCheck}

/-- An issue that changes something of its tile besides its groups. -/
theorem tile_issued {y : Tile} (hy : y.slots = (issuedTile (tileOf d r.cd r.tile) r.slot g p (1 + wExt w)).slots) :
    let e := settleSlot (setTile (issuedDev d r g p w) r.cd r.tile y) r.cd r.tile r.slot
    OnlyTile d e r.cd r.tile ∧ GroupIs e r g (threadAt g) ∧
      tileOf e r.cd r.tile = { y with slots := (tileOf e r.cd r.tile).slots } := by
  have hg : groupAt (tileOf (setTile (issuedDev d r g p w) r.cd r.tile y) r.cd r.tile) r.slot = some (movedGroup g p w) := by
    rw [tileOf_setTile_same, groupAt, hy]; exact groupAt_issued _ _ _ _ _
  simp only [settleSlot_group hg, tileOf_setTile_same]
  refine ⟨⟨rfl, ?_⟩, ⟨settleGroup (movedGroup g p w), ?_, rfl, fun l => rfl⟩, rfl⟩
  · intro c' t' hne; simp [tileOf_setTile, issuedDev, hne]
  · simp only [tileOf_setTile_same]; exact groupAt_setGroup_same _ _ _

theorem unitRoom_issued (x : Tile) (slot : Nat) (g : Group) (p : Path) (w : Word64) (u : UnitSel) :
    unitRoom (issuedTile x slot g p (1 + wExt w)) u = unitRoom x u := by rw [unitRoom, unitOf_issued]; rfl

/-- A check that fails faults the block. -/
theorem issueUnit_fault (h : Issues d r g p b w op imms) (hs : sel op = true) (hc : LeaderGoes w g p)
    (hq : unitRoom (tileOf d r.cd r.tile) u = true)
    (hp : (us (issueCtx d r g p b w op imms)).any (upoison g) = false) {st : Nat} {va : Option Nat}
    (hk : chk (issueCtx d r g p b w op imms) ((us (issueCtx d r g p b w op imms)).map fun v => (ureg g v).toNat) =
      .fault st va) :
    issueUnit sel u us chk r d =
      settleSlot (blockFault (issuedDev d r g p w) r.cd r.tile b.id r.slot (leader p) p.pc st va) r.cd r.tile r.slot := by
  rw [issueUnit, issueLeader_issues h hs hc]
  have hp' : (us (issueCtx d r g p b w op imms)).any (upoison (issueCtx d r g p b w op imms).g) = false := hp
  have hk' : chk (issueCtx d r g p b w op imms)
    ((us (issueCtx d r g p b w op imms)).map fun v => (ureg (issueCtx d r g p b w op imms).g v).toNat) = .fault st va := hk
  have hq' : unitRoom (issueCtx d r g p b w op imms).x u = true := by rw [← hq]; exact unitRoom_issued _ _ _ _ _ _
  simp only [hp', hk', hq', Bool.not_true, Bool.false_eq_true, if_false]
  rfl

/-- A unit instruction whose checks pass and whose queue has room stands at the end of it; nothing else is different but the
paths of its group and the issue order. -/
theorem issueUnit_ok (h : Issues d r g p b w op imms) (hs : sel op = true) (hc : LeaderGoes w g p)
    (hp : (us (issueCtx d r g p b w op imms)).any (upoison g) = false) {n : UnitNew}
    (hk : chk (issueCtx d r g p b w op imms) ((us (issueCtx d r g p b w op imms)).map fun v => (ureg g v).toNat) = .ok n)
    (hq : unitRoom (tileOf d r.cd r.tile) u = true) :
    OnlyTile d (issueUnit sel u us chk r d) r.cd r.tile ∧ GroupIs (issueUnit sel u us chk r d) r g (threadAt g) ∧
      tileOf (issueUnit sel u us chk r d) r.cd r.tile =
        queued d (tileOf (issueUnit sel u us chk r d) r.cd r.tile).slots r u p b w n := by
  rw [issueUnit, issueLeader_issues h hs hc]
  have hp' : (us (issueCtx d r g p b w op imms)).any (upoison (issueCtx d r g p b w op imms).g) = false := hp
  have hk' : chk (issueCtx d r g p b w op imms)
    ((us (issueCtx d r g p b w op imms)).map fun v => (ureg (issueCtx d r g p b w op imms).g v).toNat) = .ok n := hk
  have hq' : unitRoom (issueCtx d r g p b w op imms).x u = true := by rw [← hq]; exact unitRoom_issued _ _ _ _ _ _
  simp only [hp', hk', hq', Bool.not_true, Bool.false_eq_true, if_false]
  let x := issuedTile (tileOf d r.cd r.tile) r.slot g p (1 + wExt w)
  have H := tile_issued (d := d) (r := r) (g := g) (p := p) (w := w) (setUnit_slots x u { unitOf x u with
    queue := (unitOf x u).queue ++ [
      { ord := x.ord, blk := b.id, slot := r.slot, lane := leader p, pc := p.pc, word := w, uops := n.uops, reads := n.reads,
        writes := n.writes, rmem := n.rmem, wmem := n.wmem, bind := x.bind, trap := b.trap, res := {} }] })
  dsimp only [issueCtx, pushUnit]
  rw [tileOf_issuedDev]
  refine ⟨H.1, H.2.1, H.2.2.trans ?_⟩
  cases u <;> rfl

end Sys2Proof.Machine
end

