-- ==== Sys2Proof/WellFormed.lean ====
section
/-! DEFINITION. Well-formed commands: every operand that names a thing of the package names one that some variant has (00,
identifiers). Commands that are not well-formed have an effect all the same. -/

namespace Sys2Proof

/-- A CD site. -/
def cdOk (cd : Nat) : Bool := decide (cd < 4)

/-- A die with a clock or a port: a CD site, or 4, the HD. -/
def dieOk (die : Nat) : Bool := decide (die < 5)

/-- A logical tile of a CD. -/
def tileOk (tile : Nat) : Bool := decide (tile < 180)

/-- A path: CD, tile, one of 8 group slots, one of 32 lanes (04 R122, R123). -/
def pathOk (p : PathRef) : Bool := cdOk p.cd && tileOk p.tile && decide (p.slot < 8 ∧ p.lane < 32)

/-- A queue: 1,024 on each CD. -/
def queueOk (q : Nat) : Bool := decide (q < 4096)

/-- An issuer. -/
def issuerOk : Issuer → Bool
  | .stream q => queueOk q
  | .thread p => pathOk p

/-- A link channel. -/
def channelOk (ch : Nat) : Bool := decide (ch < 48)

/-- A convoy index of a channel. -/
def convoyOk (idx : Nat) : Bool := decide (idx < 8192)

/-- A host core. -/
def coreOk (core : Nat) : Bool := decide (core < 64)

/-- A 64 B line of the 48-bit physical address space. -/
def lineOk (line : Nat) : Bool := decide (line < 2 ^ 42)

/-- A peal slot. -/
def slotOk (slot : Nat) : Bool := decide (slot < 16)

/-- A register-space offset: a word below 2^31. -/
def offOk (off : Nat) : Bool := decide (off < 2 ^ 31 ∧ off % 4 = 0)

/-- A drover: 181 on each CD, by CD × 1,024 + instance (09 R270, R300). -/
def droverOk (drover : Nat) : Bool := cdOk (drover / 1024) && decide (drover % 1024 ≤ 180)

/-- A far-tier channel of a CD (10 R307). -/
def stackOk (chan : Nat) : Bool := decide (chan < 128)

/-- Is a command well-formed? -/
def Instr.wellFormed : Instr → Bool
  | .wakeAssert => true
  | .boot _ => true
  | .markerBeat die _ _ _ _ => dieOk die
  | .beatReplay die _ _ => dieOk die
  | .bundleClockLoss die _ _ => dieOk die
  | .portTraining die _ => dieOk die
  | .portTrained die _ _ _ _ _ => dieOk die
  | .trainingAttemptTimeout die _ => dieOk die
  | .loopbackPeerRetry die _ => dieOk die
  | .d2dLoopback die _ _ => dieOk die
  | .d2dRetrain die _ => dieOk die
  | .d2dSteer die _ => dieOk die
  | .phaseShed _ => true
  | .registerWrite off _ _ _ => offOk off
  | .readToClear core off _ => coreOk core && offOk off
  | .bufferedWriteApply die _ _ => dieOk die
  | .votedScrub _ _ => true
  | .qDoorbell q _ _ => queueOk q
  | .recordRead q _ => queueOk q
  | .recordReread q => queueOk q
  | .qResume q => queueOk q
  | .qSkip q => queueOk q
  | .qHold q => queueOk q
  | .qFlush q => queueOk q
  | .queueBoundary q => queueOk q
  | .ctlNop q => queueOk q
  | .ctlComplete q => queueOk q
  | .chimeMessageWrite _ => true
  | .cfgSet q _ => queueOk q
  | .cfgFence q => queueOk q
  | .cfgFenceRetire q => queueOk q
  | .blkLaunch q => queueOk q
  | .blockPlacement q _ => queueOk q
  | .blockStart cd tile _ => cdOk cd && tileOk tile
  | .blockEnd cd tile _ => cdOk cd && tileOk tile
  | .blockWatchdogExpiry cd tile _ => cdOk cd && tileOk tile
  | .tileBlockBoundary cd tile => cdOk cd && tileOk tile
  | .tilePartitionMove cd tile => cdOk cd && tileOk tile
  | .instructionFetch p _ _ => pathOk p
  | .reservedOpcode src => issuerOk src
  | .thrAdd p => pathOk p
  | .thrSub p => pathOk p
  | .thrAnd p => pathOk p
  | .thrOr p => pathOk p
  | .thrXor p => pathOk p
  | .thrShl p => pathOk p
  | .thrShr p => pathOk p
  | .thrSra p => pathOk p
  | .thrMin p => pathOk p
  | .thrMax p => pathOk p
  | .thrMinu p => pathOk p
  | .thrMaxu p => pathOk p
  | .thrClz p => pathOk p
  | .thrPopc p => pathOk p
  | .thrLi p => pathOk p
  | .thrMul p => pathOk p
  | .thrMulh p => pathOk p
  | .thrMulhu p => pathOk p
  | .thrMad p => pathOk p
  | .thrDiv p => pathOk p
  | .thrDivu p => pathOk p
  | .thrRem p => pathOk p
  | .thrRemu p => pathOk p
  | .thrFadd p => pathOk p
  | .thrFsub p => pathOk p
  | .thrFmul p => pathOk p
  | .thrFfma p => pathOk p
  | .thrFmin p => pathOk p
  | .thrFmax p => pathOk p
  | .thrCvtF32S32 p => pathOk p
  | .thrCvtF32U32 p => pathOk p
  | .thrCvtS32F32 p => pathOk p
  | .thrCvtU32F32 p => pathOk p
  | .thrCmpEq p => pathOk p
  | .thrCmpNe p => pathOk p
  | .thrCmpLt p => pathOk p
  | .thrCmpLe p => pathOk p
  | .thrCmpGt p => pathOk p
  | .thrCmpGe p => pathOk p
  | .thrCmpLtu p => pathOk p
  | .thrCmpLeu p => pathOk p
  | .thrCmpGtu p => pathOk p
  | .thrCmpGeu p => pathOk p
  | .thrCmpFeq p => pathOk p
  | .thrCmpFlt p => pathOk p
  | .thrCmpFle p => pathOk p
  | .thrCmpFun p => pathOk p
  | .thrPand p => pathOk p
  | .thrPor p => pathOk p
  | .thrPxor p => pathOk p
  | .thrPandn p => pathOk p
  | .thrPnot p => pathOk p
  | .thrPset p => pathOk p
  | .thrPclr p => pathOk p
  | .thrMov p => pathOk p
  | .thrSel p => pathOk p
  | .thrMovuLo p => pathOk p
  | .thrMovuHi p => pathOk p
  | .thrShfl p => pathOk p
  | .thrBallot p => pathOk p
  | .thrVoteAny p => pathOk p
  | .thrVoteAll p => pathOk p
  | .uniAdd p => pathOk p
  | .uniSub p => pathOk p
  | .uniAnd p => pathOk p
  | .uniOr p => pathOk p
  | .uniXor p => pathOk p
  | .uniShl p => pathOk p
  | .uniShr p => pathOk p
  | .uniMul p => pathOk p
  | .uniMov p => pathOk p
  | .uniMovtLo p => pathOk p
  | .uniMovtHi p => pathOk p
  | .uniLi p => pathOk p
  | .thrNop p => pathOk p
  | .thrExit p => pathOk p
  | .thrYield p => pathOk p
  | .yieldTimeout p => pathOk p
  | .thrBctl p => pathOk p
  | .thrClk p => pathOk p
  | .thrLd p _ => pathOk p
  | .thrSt p => pathOk p
  | .thrAtom p => pathOk p
  | .globalAccessResponse cd tile _ _ _ => cdOk cd && tileOk tile
  | .storeBufferDrain cd tile line _ => cdOk cd && tileOk tile && lineOk line
  | .thrBr p => pathOk p
  | .thrCall p => pathOk p
  | .thrBrInd p => pathOk p
  | .joinTimeout p => pathOk p
  | .barSync p => pathOk p
  | .fenceG p => pathOk p
  | .fenceB p => pathOk p
  | .fenceD src => issuerOk src
  | .fenceS src => issuerOk src
  | .fenceRelease p => pathOk p
  | .streamFenceRetire q => queueOk q
  | .mxMma p => pathOk p
  | .mxZero p => pathOk p
  | .mxStAcc p => pathOk p
  | .mxLdAcc p => pathOk p
  | .mxSync p => pathOk p
  | .mxSyncRelease p => pathOk p
  | .mxStart cd tile _ _ => cdOk cd && tileOk tile
  | .mxComplete cd tile _ => cdOk cd && tileOk tile
  | .alBind p => pathOk p
  | .alZero p => pathOk p
  | .alRdI32 p => pathOk p
  | .alRdF32 p => pathOk p
  | .alStart cd tile _ => cdOk cd && tileOk tile
  | .alComplete cd tile _ => cdOk cd && tileOk tile
  | .spSplit p => pathOk p
  | .spMma p => pathOk p
  | .spRdF64 p => pathOk p
  | .spRdF32 p => pathOk p
  | .spRdBf16 p => pathOk p
  | .slicerStart cd tile _ => cdOk cd && tileOk tile
  | .slicerComplete cd tile _ => cdOk cd && tileOk tile
  | .vxAdd p => pathOk p
  | .vxSub p => pathOk p
  | .vxMul p => pathOk p
  | .vxMulh p => pathOk p
  | .vxMad p => pathOk p
  | .vxMin p => pathOk p
  | .vxMax p => pathOk p
  | .vxAnd p => pathOk p
  | .vxOr p => pathOk p
  | .vxXor p => pathOk p
  | .vxShl p => pathOk p
  | .vxShr p => pathOk p
  | .vxSra p => pathOk p
  | .vxAbs p => pathOk p
  | .vxAddFp p => pathOk p
  | .vxSubFp p => pathOk p
  | .vxMulFp p => pathOk p
  | .vxFma p => pathOk p
  | .vxMinFp p => pathOk p
  | .vxMaxFp p => pathOk p
  | .vxAbsFp p => pathOk p
  | .vxNeg p => pathOk p
  | .vxCmpEq p => pathOk p
  | .vxCmpNe p => pathOk p
  | .vxCmpLt p => pathOk p
  | .vxCmpLe p => pathOk p
  | .vxCmpGt p => pathOk p
  | .vxCmpGe p => pathOk p
  | .vxCmpUn p => pathOk p
  | .vxSel p => pathOk p
  | .vxExp2 p => pathOk p
  | .vxLog2 p => pathOk p
  | .vxRcp p => pathOk p
  | .vxRsqrt p => pathOk p
  | .vxCvt p => pathOk p
  | .vxQnt p => pathOk p
  | .vxRadd p => pathOk p
  | .vxRmin p => pathOk p
  | .vxRmax p => pathOk p
  | .vxPerm p => pathOk p
  | .vxBcast p => pathOk p
  | .vxSlideUp p => pathOk p
  | .vxSlideDn p => pathOk p
  | .vxMov p => pathOk p
  | .vxUnpkI8 p => pathOk p
  | .vxUnpkI4 p => pathOk p
  | .vxTr64 p => pathOk p
  | .vxLd p => pathOk p
  | .vxSt p => pathOk p
  | .vxStart cd tile _ _ => cdOk cd && tileOk tile
  | .vxComplete cd tile _ => cdOk cd && tileOk tile
  | .drvMove src => issuerOk src
  | .drvFill src => issuerOk src
  | .drvDescriptorFetch drover _ => droverOk drover
  | .drvMoveStart drover _ _ => droverOk drover
  | .drvMoveComplete drover _ => droverOk drover
  | .gongAdd src => issuerOk src
  | .gongSet src => issuerOk src
  | .gongMax src => issuerOk src
  | .gongArm src => issuerOk src
  | .gongDisarm src => issuerOk src
  | .gongWaitGe src => issuerOk src
  | .gongWaitEq src => issuerOk src
  | .gongUpdatePerformed _ => true
  | .gongWaitArrival _ => true
  | .hostGongStoreSet _ _ _ _ => true
  | .hostGongStoreAdd _ _ _ _ => true
  | .hostGongStoreMax _ _ _ _ => true
  | .hostGongLoad core _ _ _ => coreOk core
  | .correctedLineRewrite line => lineOk line
  | .homeFill line _ _ _ => lineOk line
  | .homeAtomic _ _ _ => true
  | .wellShrinkStep cd => cdOk cd
  | .wellGrowStep cd => cdOk cd
  | .bucketTransfer cd _ => cdOk cd
  | .refreshWindow cd chan => cdOk cd && stackOk chan
  | .sectorRead line _ _ _ _ _ => lineOk line
  | .sectorRewrite line => lineOk line
  | .patrolScrub cd chan _ _ _ => cdOk cd && stackOk chan
  | .ftScrub cd => cdOk cd
  | .commandedScrubDone cd _ _ => cdOk cd
  | .ftMapout cd => cdOk cd
  | .shareCopy cd _ _ => cdOk cd
  | .mapoutDone cd => cdOk cd
  | .l2Miss core line _ _ _ => coreOk core && lineOk line
  | .l2Victim core line => coreOk core && lineOk line
  | .hartAmo core line off _ _ _ _ => coreOk core && lineOk line && offOk off
  | .hartLr core line off _ _ => coreOk core && lineOk line && offOk off
  | .hartSc core line _ _ _ _ => coreOk core && lineOk line
  | .hartCboClean core line _ => coreOk core && lineOk line
  | .hartCboFlush core line _ => coreOk core && lineOk line
  | .hartCboInval core line _ _ => coreOk core && lineOk line
  | .hostWindowAccess core _ _ _ _ _ => coreOk core
  | .hostPrivateAccess core _ _ _ => coreOk core
  | .rds core line _ => coreOk core && lineOk line
  | .rdx core line _ => coreOk core && lineOk line
  | .upg core line _ => coreOk core && lineOk line
  | .amo core line => coreOk core && lineOk line
  | .lr core line => coreOk core && lineOk line
  | .sc core line => coreOk core && lineOk line
  | .cln core line => coreOk core && lineOk line
  | .flu core line => coreOk core && lineOk line
  | .inv core line => coreOk core && lineOk line
  | .snps core line => coreOk core && lineOk line
  | .snpx core line => coreOk core && lineOk line
  | .snpinv core line => coreOk core && lineOk line
  | .snprecall core line => coreOk core && lineOk line
  | .snpclean core line => coreOk core && lineOk line
  | .comp core line => coreOk core && lineOk line
  | .compack core line => coreOk core && lineOk line
  | .snpack core line => coreOk core && lineOk line
  | .invack core line => coreOk core && lineOk line
  | .rspGone core line => coreOk core && lineOk line
  | .evictclean core line => coreOk core && lineOk line
  | .wback core line => coreOk core && lineOk line
  | .data core line => coreOk core && lineOk line
  | .fwddata core line => coreOk core && lineOk line
  | .snpdata core line => coreOk core && lineOk line
  | .wb core line => coreOk core && lineOk line
  | .amodata core line => coreOk core && lineOk line
  | .fwdTimeout core line => coreOk core && lineOk line
  | .lrDeferralEnd core line => coreOk core && lineOk line
  | .tableWalkComplete _ _ _ _ => true
  | .hostAssistMiss _ _ _ _ => true
  | .xlatInv _ => true
  | .invalidationComplete _ => true
  | .xlatFill _ => true
  | .convoySend ch idx _ _ _ => channelOk ch && convoyOk idx
  | .rxSend ch _ => channelOk ch
  | .rxWrite ch _ => channelOk ch
  | .rxReadReq ch _ _ => channelOk ch
  | .rxReadResp ch _ => channelOk ch
  | .rxReduce ch _ => channelOk ch
  | .rxGong ch _ => channelOk ch
  | .rxDoorbell ch _ => channelOk ch
  | .rxCheck ch _ => channelOk ch
  | .rxOpen ch _ => channelOk ch
  | .rxOpenAck ch _ => channelOk ch
  | .rxClose ch _ => channelOk ch
  | .rxCloseAck ch _ => channelOk ch
  | .rxAck ch _ => channelOk ch
  | .rxNak ch _ => channelOk ch
  | .rxCredit ch _ => channelOk ch
  | .rxPealArm ch _ => channelOk ch
  | .rxPealArmAck ch _ => channelOk ch
  | .rxPealStrike ch _ _ => channelOk ch
  | .rxPealAbort ch _ => channelOk ch
  | .rxProbe ch _ _ => channelOk ch
  | .rxProbeResp ch _ => channelOk ch
  | .rawFrame ch _ => channelOk ch
  | .frameDiscard ch => channelOk ch
  | .pauseFrame ch => channelOk ch
  | .ackTimer ch idx => channelOk ch && convoyOk idx
  | .creditReport ch => channelOk ch
  | .rtoExpiry ch idx => channelOk ch && convoyOk idx
  | .openResend ch idx => channelOk ch && convoyOk idx
  | .closeResend ch idx => channelOk ch && convoyOk idx
  | .probeTimeout ch => channelOk ch
  | .linkTrainingRetry ch => channelOk ch
  | .linkUp ch => channelOk ch
  | .linkDown ch => channelOk ch
  | .chnOpen ch => channelOk ch
  | .chnClose ch => channelOk ch
  | .chnReset ch => channelOk ch
  | .chnRead ch => channelOk ch
  | .chnRetx ch => channelOk ch
  | .chnSetwin ch => channelOk ch
  | .chnSpill ch => channelOk ch
  | .chnRingHead ch => channelOk ch
  | .chnRedDone ch => channelOk ch
  | .chnHreqHead ch => channelOk ch
  | .chnProbe ch => channelOk ch
  | .rootclkLoss => true
  | .rootclkReturn => true
  | .pllUnlock die => dieOk die
  | .divisorChange => true
  | .divisorChangeComplete _ => true
  | .flightMeasurement ch _ => channelOk ch
  | .levelSaturation _ _ => true
  | .powerControlStep _ => true
  | .voltageSettled => true
  | .railTelemetry _ => true
  | .energyEstimate die _ _ => dieOk die
  | .calibrationFit _ => true
  | .restSlotBoundary cd => cdOk cd
  | .droopTrip die _ => dieOk die
  | .droopRelease die _ => dieOk die
  | .thermalCritical die _ => dieOk die
  | .thermtrip die _ => dieOk die
  | .vinOver => true
  | .vinUnder => true
  | .vinSag => true
  | .holdupAssert => true
  | .braceWindowClose => true
  | .pwrStateRun => true
  | .pwrStateRest => true
  | .pwrStateDormant => true
  | .dormantStop => true
  | .tileRetention cd tile => cdOk cd && tileOk tile
  | .restEntryTimeout => true
  | .retentionExitDone => true
  | .selfRefreshEntry cd chan => cdOk cd && stackOk chan
  | .idleEntry => true
  | .wellTileScrub line _ => lineOk line
  | .hbmRetrain cd => cdOk cd
  | .hbmRetrainDone cd _ _ => cdOk cd
  | .sensorCalibration die _ => dieOk die
  | .telemetryStep _ => true
  | .wearMeasurement cd _ => cdOk cd
  | .rotationDecision cd => cdOk cd
  | .wearCmd cd => cdOk cd
  | .tileSwap cd tile => cdOk cd && tileOk tile
  | .sentryHeartbeat die _ => dieOk die
  | .heartbeatSilenceExpiry die _ => dieOk die
  | .unackedBeatExpiry die _ => dieOk die
  | .cdRejoin cd => cdOk cd
  | .hdReset => true
  | .updateChn _ => true
  | .updateDisp _ => true
  | .updateCore _ _ => true
  | .evac => true
  | .evacEnd => true
  | .slotWritten => true
  | .channelFwSwitch ch => channelOk ch
  | .chnFwRunning ch => channelOk ch
  | .chnFwRevert ch => channelOk ch
  | .dispatcherSwitch cd _ => cdOk cd
  | .attGo => true
  | .reportComplete => true
  | .enrol _ _ _ _ _ => true
  | .mgmtReadReg _ off => offOk off
  | .mgmtWriteReg _ off _ _ _ => offOk off
  | .mgmtSvc _ _ _ _ _ _ => true
  | .mgmtAttest _ _ => true
  | .mgmtRecover _ _ _ _ => true
  | .mgmtAck _ => true
  | .helloTimer => true
  | .telemetryTimer => true
  | .mgmtResend => true
  | .mgmtLinkChange _ => true
  | .pealInstall slot => slotOk slot
  | .pealCmdArm slot => slotOk slot
  | .pealCancel slot => slotOk slot
  | .pealUninstall slot => slotOk slot
  | .pealCmdSend slot => slotOk slot
  | .pealArmWaitEnd slot => slotOk slot
  | .pealActionTime slot => slotOk slot
  | .pealHoldExpiry slot => slotOk slot
  | .traceSync die => dieOk die
  | .traceSample => true
  | .traceRingWrite die _ => dieOk die
  | .traceObsSend die => dieOk die
  | .auxLoss => true
  | .auxReturn => true
  | .vinRise => true
  | .vinLeavesNormalRange _ => true
  | .holdupDeassert => true

end Sys2Proof
end

