-- ==== Sys2Proof/Tests/Slice0.lean ====
section
/-! SUPPORT. Tests: ill-formed commands, words of instructions, single steps, and for each statement states that meet its
hypotheses. -/

namespace Sys2Proof.Tests

open Machine Machine.Parts

set_option Elab.async false

/-! Ill-formed commands: one for each check of WellFormed. -/

/-- Each check of `WellFormed` refuses an operand just outside its range, and its neighbour inside passes. -/
theorem test_wellFormed_refuses :
    (Instr.wellShrinkStep 4).wellFormed = false ∧ (Instr.wellShrinkStep 3).wellFormed = true ∧
    (Instr.beatReplay 5 0 false).wellFormed = false ∧ (Instr.beatReplay 4 0 false).wellFormed = true ∧
    (Instr.blockStart 0 180 0).wellFormed = false ∧ (Instr.blockStart 0 179 0).wellFormed = true ∧
    (Instr.thrAdd ⟨0, 0, 8, 0⟩).wellFormed = false ∧ (Instr.thrAdd ⟨0, 0, 7, 31⟩).wellFormed = true ∧
    (Instr.thrAdd ⟨0, 0, 0, 32⟩).wellFormed = false ∧ (Instr.qDoorbell 4096 0 none).wellFormed = false ∧
    (Instr.qDoorbell 4095 0 none).wellFormed = true ∧ (Instr.drvMove (.stream 4096)).wellFormed = false ∧
    (Instr.drvMove (.thread ⟨4, 0, 0, 0⟩)).wellFormed = false ∧ (Instr.linkUp 48).wellFormed = false ∧
    (Instr.linkUp 47).wellFormed = true := by decide

/-- The remaining checks: convoys, cores, lines, peal slots, register offsets, drovers, far-tier channels. -/
theorem test_wellFormed_refuses_more :
    (Instr.ackTimer 0 8192).wellFormed = false ∧ (Instr.ackTimer 0 8191).wellFormed = true ∧
    (Instr.hartLr 64 0 0 2 false).wellFormed = false ∧ (Instr.hartLr 63 0 0 2 false).wellFormed = true ∧
    (Instr.sectorRewrite (2 ^ 42)).wellFormed = false ∧ (Instr.sectorRewrite (2 ^ 42 - 1)).wellFormed = true ∧
    (Instr.pealArmWaitEnd 16).wellFormed = false ∧ (Instr.pealArmWaitEnd 15).wellFormed = true ∧
    (Instr.registerWrite 2 0 0 none).wellFormed = false ∧ (Instr.registerWrite (2 ^ 31) 0 0 none).wellFormed = false ∧
    (Instr.registerWrite (2 ^ 31 - 4) 0 0 none).wellFormed = true ∧ (Instr.drvMoveStart 181 0 []).wellFormed = false ∧
    (Instr.drvMoveStart 4096 0 []).wellFormed = false ∧ (Instr.drvMoveStart 180 0 []).wellFormed = true ∧
    (Instr.selfRefreshEntry 0 128).wellFormed = false ∧ (Instr.selfRefreshEntry 0 127).wellFormed = true := by decide

/-! Words, written out from the encoding tables of the spec. -/

/-- Words that the spec itself writes out: `mx.mma.i8.os` (05), `vx.qnt` (08), `drv.move2d` (09), the fences (11 R354). -/
theorem test_spec_words_thread :
    decodeThread 0x60000806400001FF#64 = some .mma ∧
    decodeThread 0x4A0007FFA4008085#64 = some (.vx 5 0) ∧ decodeThread 0x8001A00000000000#64 = some (.drv false) ∧
    decodeThread 0x9600200000000000#64 = some (.fence 2) ∧ decodeThread 0x9600300000000000#64 = some (.fence 3) := by decide

/-- Words of streams that the spec writes out (04): `cfg.set`, `cfg.fence`, `ctl.nop`. -/
theorem test_spec_words_stream :
    decodeStream 0xA204000010C00000#64 = some .cfgSet ∧ decodeStream 0xA400000000000000#64 = some .cfgFence ∧
    decodeStream 0xA000000000000000#64 = some .ctlNop := by decide

/-- Words of the integer instructions (04 R105, R112, R113, R128, R129): registers 63 and 0, the longest guard field. -/
def intWords : List (Word64 × Op) := [
  (0x0003F04200000000#64, .alu 0 63 1 (.reg 2)),
  (0x0003F04200100000#64, .alu 1 63 1 (.reg 2)),
  (0x0003F04200200000#64, .alu 2 63 1 (.reg 2)),
  (0x0003F04200300000#64, .alu 3 63 1 (.reg 2)),
  (0x0003F04200400000#64, .alu 4 63 1 (.reg 2)),
  (0x0003F04200500000#64, .alu 5 63 1 (.reg 2)),
  (0x0003F04200600000#64, .alu 6 63 1 (.reg 2)),
  (0x0003F04200700000#64, .alu 7 63 1 (.reg 2)),
  (0x0003F04200800000#64, .alu 8 63 1 (.reg 2)),
  (0x0003F04200900000#64, .alu 9 63 1 (.reg 2)),
  (0x0003F04200A00000#64, .alu 10 63 1 (.reg 2)),
  (0x0003F04200B00000#64, .alu 11 63 1 (.reg 2)),
  (0x01F02FC000C00000#64, .alu 12 2 63 .none),
  (0x01F02FC000D00000#64, .alu 13 2 63 .none),
  (0x0200500FFFFFFFFF#64, .alu 15 5 0 (.imm 0xFFFFFFFF#32)),
  (0x031051850000001F#64, .alu 5 5 6 (.imm 31#32)),
  (0x04000FFE00000000#64, .mul 0 0 63 62 0),
  (0x04000FFE00100000#64, .mul 1 0 63 62 0),
  (0x04000FFE00200000#64, .mul 2 0 63 62 0),
  (0x04000FFEF4300000#64, .mul 3 0 63 62 61),
  (0x04000FFE00400000#64, .mul 4 0 63 62 0),
  (0x04000FFE00500000#64, .mul 5 0 63 62 0),
  (0x04000FFE00600000#64, .mul 6 0 63 62 0),
  (0x04000FFE00700000#64, .mul 7 0 63 62 0)]

/-- Words of the FP32 instructions and conversions (04 R130). -/
def fpWords : List (Word64 × Op) := [
  (0x0600108300000000#64, .fp 0 1 2 3 0),
  (0x0600108300100000#64, .fp 1 1 2 3 0),
  (0x0600108300200000#64, .fp 2 1 2 3 0),
  (0x0600108310300000#64, .fp 3 1 2 3 4),
  (0x0600108300400000#64, .fp 4 1 2 3 0),
  (0x0600108300500000#64, .fp 5 1 2 3 0),
  (0x0600720000800000#64, .cvt 8 7 8 false),
  (0x0600720000900000#64, .cvt 9 7 8 false),
  (0x0600720000A10000#64, .cvt 10 7 8 true),
  (0x0600720000B10000#64, .cvt 11 7 8 true)]

/-- Words of the compares and predicate instructions (04 R132). -/
def predWords : List (Word64 × Op) := [
  (0x0800704200000000#64, .cmp 0 7 1 (.reg 2)),
  (0x0800704200100000#64, .cmp 1 7 1 (.reg 2)),
  (0x0800704200200000#64, .cmp 2 7 1 (.reg 2)),
  (0x0800704200300000#64, .cmp 3 7 1 (.reg 2)),
  (0x0800704200400000#64, .cmp 4 7 1 (.reg 2)),
  (0x0800704200500000#64, .cmp 5 7 1 (.reg 2)),
  (0x0800704200600000#64, .cmp 6 7 1 (.reg 2)),
  (0x0800704200700000#64, .cmp 7 7 1 (.reg 2)),
  (0x0800704200800000#64, .cmp 8 7 1 (.reg 2)),
  (0x0800704200900000#64, .cmp 9 7 1 (.reg 2)),
  (0x0800704200A00000#64, .cmp 10 7 1 (.reg 2)),
  (0x0800704200B00000#64, .cmp 11 7 1 (.reg 2)),
  (0x0800704200C00000#64, .cmp 12 7 1 (.reg 2)),
  (0x0800704200D00000#64, .cmp 13 7 1 (.reg 2)),
  (0x0A00004980000000#64, .cmp 9 0 1 (.imm 0x80000000#32)),
  (0x0C00714600000000#64, .plogic 0 7 5 6),
  (0x0C00714600100000#64, .plogic 1 7 5 6),
  (0x0C00714600200000#64, .plogic 2 7 5 6),
  (0x0C00714600300000#64, .plogic 3 7 5 6),
  (0x0C00714000400000#64, .plogic 4 7 5 0),
  (0x0C00700000500000#64, .plogic 5 7 0 0),
  (0x0C00700000600000#64, .plogic 6 7 0 0)]

/-- Words of the moves and cross-lane instructions (04 R133). -/
def moveWords : List (Word64 × Op) := [
  (0x0E00108000000000#64, .mov 1 2),
  (0x0E0010831C100000#64, .sel 1 2 3 7),
  (0x0E0017C000200000#64, .movu false 1 31),
  (0x0E0017C000300000#64, .movu true 1 31),
  (0x0E00108300400000#64, .shfl 1 2 3),
  (0x0E00100700500000#64, .ballot 1 7),
  (0x0E00700600600000#64, .vote false 7 6),
  (0x0E00700600700000#64, .vote true 7 6)]

/-- Words of the uniform instructions and `thr.clk` (04 R133, R135). -/
def uniWords : List (Word64 × Op) := [
  (0x1601F04200000000#64, .uni 0 31 1 2),
  (0x1601F04200100000#64, .uni 1 31 1 2),
  (0x1601F04200200000#64, .uni 2 31 1 2),
  (0x1601F04200300000#64, .uni 3 31 1 2),
  (0x1601F04200400000#64, .uni 4 31 1 2),
  (0x1601F04200500000#64, .uni 5 31 1 2),
  (0x1601F04200600000#64, .uni 6 31 1 2),
  (0x1601F04200700000#64, .uni 7 31 1 2),
  (0x1600414000800000#64, .umov 4 5),
  (0x16004FC000900000#64, .umovt false 4 63),
  (0x16004FC000A00000#64, .umovt true 4 63),
  (0x1A01F00400000000#64, .clk 31)]

/-- The word of `uni.li`, with one immediate word (04 R133). -/
def uliWord : List (Word64 × Op) := [
  (0x1605F00000C00000#64, .uli 31)]

/-- Words of thread control, the barrier and the fences (04 R135, R148; 11 R354). -/
def ctlWords : List (Word64 × Op) := [
  (0x1A00000000000000#64, .nop),
  (0x1A00000100000000#64, .exit),
  (0x1A00000200000000#64, .yield),
  (0x1A00000300000001#64, .bctl 1),
  (0x9400000000000000#64, .bar),
  (0x9600000000000000#64, .fence 0),
  (0x9600100000000000#64, .fence 1),
  (0x9600200000000000#64, .fence 2),
  (0x9600300000000000#64, .fence 3)]

/-- Words of the branches, with targets and joins at their bounds (04 R115). -/
def branchWords : List (Word64 × Op) := [
  (0x180000FFFF800000#64, .branch 0 0 65535 (-8388608)),
  (0x1801000000000005#64, .branch 1 0 0 5),
  (0x1802FC0001000000#64, .branch 2 63 1 0)]

/-- Words of accesses to local space (04 R114). -/
def localWords : List (Word64 × Op) := [
  (0x1003E0C001800000#64, .ld ⟨62, 3, 0, 0, false, 3, false, 0, 0, 0, 0, 0⟩),
  (0x100010C0004007FF#64, .ld ⟨1, 3, 0, 0, false, 0, true, 0, 0, 0, 0, 2047⟩),
  (0x120010C001300000#64, .st ⟨1, 3, 0, 0, false, 2, false, 3, 0, 0, 0, 0⟩),
  (0x140010C501009000#64, .atom ⟨1, 3, 5, 0, false, 2, false, 0, 0, 0, 9, 0⟩)]

/-- Words of accesses to global space (04 R114). -/
def globalWords : List (Word64 × Op) := [
  (0x1003E0C0FB870000#64, .ld ⟨62, 3, 0, 31, true, 3, false, 0, 1, 3, 0, 0⟩),
  (0x120010C0FB0A0000#64, .st ⟨1, 3, 0, 31, true, 2, false, 0, 2, 2, 0, 0⟩),
  (0x140020C4FB8F9000#64, .atom ⟨2, 3, 4, 31, true, 3, false, 0, 3, 3, 9, 0⟩)]

/-- Words of the vector instructions (08 R242). -/
def vxWords : List (Word64 × Op) := [
  (0x400007FF89180000#64, .vx 0 0),
  (0x400047FF89180000#64, .vx 0 1),
  (0x400087FF89180000#64, .vx 0 2),
  (0x4000C7FF89180000#64, .vx 0 3),
  (0x400107FF891A0000#64, .vx 0 4),
  (0x400147FF89180000#64, .vx 0 5),
  (0x400187FF89180000#64, .vx 0 6),
  (0x4001C7FF89180000#64, .vx 0 7),
  (0x400207FF89180000#64, .vx 0 8),
  (0x400247FF89180000#64, .vx 0 9),
  (0x400287FF89180000#64, .vx 0 10),
  (0x4002C7FF89180000#64, .vx 0 11),
  (0x400307FF89180000#64, .vx 0 12),
  (0x400347FF89000000#64, .vx 0 13),
  (0x4200101F89184000#64, .vx 1 0),
  (0x4200501F89184000#64, .vx 1 1),
  (0x4200901F89184000#64, .vx 1 2),
  (0x4200D01F891A4000#64, .vx 1 3),
  (0x4201101F89184000#64, .vx 1 4),
  (0x4201501F89184000#64, .vx 1 5),
  (0x4201901F89000000#64, .vx 1 6),
  (0x4201D01F89000000#64, .vx 1 7),
  (0x4400201F89200000#64, .vx 2 0),
  (0x4400601F89200000#64, .vx 2 1),
  (0x4400A01F89200000#64, .vx 2 2),
  (0x4400E01F89200000#64, .vx 2 3),
  (0x4401201F89200000#64, .vx 2 4),
  (0x4401601F89200000#64, .vx 2 5),
  (0x4401A01F89200000#64, .vx 2 6),
  (0x4402001F891A0000#64, .vx 2 8),
  (0x4600101F89000000#64, .vx 3 0),
  (0x4600501F89000000#64, .vx 3 1),
  (0x4600901F89000000#64, .vx 3 2),
  (0x4600D01F89000000#64, .vx 3 3),
  (0x4C00101F89002006#64, .vx 6 0),
  (0x4C004FFF8900000C#64, .vx 6 1),
  (0x4C00801F89000000#64, .vx 6 2),
  (0x4E00001F89180000#64, .vx 7 0),
  (0x4E00401F89180000#64, .vx 7 1),
  (0x4E00801F89180000#64, .vx 7 2),
  (0x4E00C01F89180000#64, .vx 7 3),
  (0x4E01001F89000000#64, .vx 7 4),
  (0x4E01401F89000000#64, .vx 7 5),
  (0x4E01801F89000000#64, .vx 7 6),
  (0x4E01C7FF89000000#64, .vx 7 7),
  (0x500007FFD8000100#64, .vx 8 0),
  (0x5000400005800100#64, .vx 8 1),
  (0x4800801F89000000#64, .vx 4 2),
  (0x4801401F89000080#64, .vx 4 5),
  (0x4A00001F891A0001#64, .vx 5 0)]

/-- Words of the matrix engine and the aligner (05 R168, R171; 06 R197). -/
def unitWords : List (Word64 × Op) := [
  (0x600038042800001F#64, .mma),
  (0x6200300000000000#64, .mxAcc 0),
  (0x6200600400000000#64, .mxAcc 1),
  (0x6200900400000000#64, .mxAcc 2),
  (0x6200C00000000000#64, .mxAcc 3),
  (0x7400300428000000#64, .al 0),
  (0x7400600000000000#64, .al 1),
  (0x7400BC0000800000#64, .al 2),
  (0x7400C00000010000#64, .al 3)]

/-- Words of split arithmetic, with one immediate word (07 R229). -/
def splitWords : List (Word64 × Op) := [
  (0x700400042800001F#64, .spSplit),
  (0x720428042800001F#64, .spMma),
  (0x76043200007F0000#64, .spRd 0),
  (0x7604480000000000#64, .spRd 1),
  (0x7604980000000000#64, .spRd 2)]

/-- Words of the gong instructions with an immediate operand (09 R286). -/
def gongWords : List (Word64 × Op) := [
  (0x9004300000FFFF80#64, .gong 0),
  (0x9004700000FFFF80#64, .gong 1),
  (0x9004B80005FFFF80#64, .gong 2),
  (0x9004E012FF000380#64, .gong 3),
  (0x9005200000FFFF80#64, .gong 4),
  (0x9204200000000380#64, .gwait false),
  (0x9204700000000380#64, .gwait true)]

/-- Words of `gong.add` that read u9: as the operand, and as the gong (09 R286). -/
def gongUs : List (Word64 × Op) := [
  (0x90000000000003A4#64, .gong 0),
  (0x9004100000000026#64, .gong 0)]

/-- Words of the drover instructions with a descriptor in memory (09 R268). -/
def drvWords : List (Word64 × Op) := [
  (0x8004000000000000#64, .drv false),
  (0x8206030000000000#64, .drv true)]

/-- The word of `drv.move.2d` with a local descriptor (09 R268). -/
def drvLocal : List (Word64 × Op) := [
  (0x8001FC0000000000#64, .drv false)]

/-- Words of the control class and of the stream fences (04 R117, R118; 11 R354). -/
def streamWords : List (Word64 × Op) := [
  (0xA000000000000000#64, .ctlNop),
  (0xA0040C0100000001#64, .ctlComplete),
  (0xA20400001000700C#64, .cfgSet),
  (0xA400000000000000#64, .cfgFence),
  (0xA60CFB301E000000#64, .launch),
  (0x9600300000000000#64, .fence 3),
  (0x9600200000000000#64, .fence 2)]

/-- Words that are no instruction of a thread: reserved opcodes, function codes, fields, an ext not taken (04 R109). -/
def illegalWords : List Word64 := [
  0x1C00000000000000#64, 0x3E00000000000000#64, 0x5200000000000000#64, 0x7800000000000000#64, 0x9800000000000000#64,
  0xA800000000000000#64, 0x0000108300E00000#64, 0x0000108304000000#64, 0x0010108300000000#64, 0x0004108300000000#64,
  0x1000100001800000#64, 0x1000100100000000#64, 0x1000100004000000#64, 0x6003000000000000#64, 0x6201000000000000#64,
  0x9400000000000001#64, 0x9005400000000000#64]

/-- Each word decodes to the instruction it was written out for. -/
theorem test_words_decode :
    (∀ e ∈ intWords ++ fpWords ++ predWords ++ moveWords, decodeThread e.1 = some e.2) ∧
    (∀ e ∈ uniWords ++ uliWord ++ ctlWords ++ branchWords ++ localWords ++ globalWords, decodeThread e.1 = some e.2) ∧
    (∀ e ∈ unitWords ++ splitWords ++ gongWords ++ gongUs ++ drvWords ++ drvLocal, decodeThread e.1 = some e.2) := by decide

/-- The vector words decode likewise. -/
theorem test_words_decode_vector : ∀ e ∈ vxWords, decodeThread e.1 = some e.2 := by decide

/-- The words of streams decode for a stream and for no thread but the drover, gong and fence instructions. -/
theorem test_words_decode_stream :
    (∀ e ∈ streamWords ++ gongWords ++ drvWords, decodeStream e.1 = some e.2) ∧
    (∀ e ∈ streamWords.take 5, decodeThread e.1 = none) ∧ decodeStream 0x8001A00000000000#64 = none := by decide

/-- What no table lists is no instruction. -/
theorem test_words_illegal : (illegalWords.all fun w => (decodeThread w).isNone) = true := by decide

/-! States on which a path issues. -/

/-- A package whose rails are on: a BQ1480 with nothing stored and nothing under way. -/
def base : Dev := { Dev.dark 1 Flash.delivered with pw := { (Dev.dark 1 Flash.delivered).pw with on := true, vpm := true } }

/-- The state of a package with no command waiting. -/
def st (d : Dev) : State := { pending := [], dev := d }

/-- Device tables of partition 0. -/
def sp0 : Space := .dev 0 0 0

/-- A started block of one group at address 0. -/
def blk0 : Block :=
  { id := 0, queue := 0, launch := 0, index := 0, count := 1, groups := 1, arg := 0, gong := 7, prog := 0, cls := 0, space := sp0,
    part := 0, trap := false, status := 0, started := true, faulted := false }

/-- A path of all lanes at word 0. -/
def path0 : Path := ⟨BitVec.allOnes 32, 0, [], .ready⟩

/-- Its group: u1, u4, u5, u9 and u31 hold 64-byte aligned offsets and a gong. -/
def grp0 : Group := ⟨0, 0, [(1, 0x2000#64), (4, 0x1000#64), (5, 0x3000#64), (9, 7#64), (31, 0x40000#64)], 0, [], [path0]⟩

/-- A line of words. -/
def lineOf (ws : List Word64) : Line := ws.foldr (fun w x => (x <<< 64) ||| w.setWidth 512) 0

/-- A tile on which a group is resident, its program's first words in the instruction cache. -/
def tileG (g : Group) (ws : List Word64) : Tile :=
  { blocks := [blk0], nextBlk := 1, slots := [(0, g)], icache := [⟨sp0, 0, lineOf ws, 0⟩] }

/-- Cached leaves of the device tables of partition 0: the first GiB at address 0 of the far tier, and the gong window. -/
def mapped : Xlat :=
  { (Dev.dark 1 Flash.delivered).xl with inst := [(0, { cache := [
      ⟨false, 0, 0, 0, 30, 0x1F#64, 1⟩, ⟨false, 0, 0, gongWindow, 25, 0xFF0030000000000B#64, 0⟩] })] }

/-- A package with those leaves of which tile 0 of CD 0 is given. -/
def devT (x : Tile) : Dev := { base with tiles := [(0, x)], xl := mapped }

/-- The path at slot 0 of that tile. -/
def r0 : PathRef := ⟨0, 0, 0, 0⟩

/-- What `Issues` asks of a word, as a check. -/
def issuable (g : Group) (w : Word64) (op : Op) (imms : List Word64) : Bool :=
  let x := tileG g (w :: imms)
  decide (pathOf g 0 = some path0) && decide (g.blk = 0) && decide (issuingPath x g 0 w path0 = some (g, path0)) &&
    decide (fetched x blk0 0 = .word w) && decide (decodeThread w = some op) &&
    decide (fetchImms x blk0 0 (wExt w) = (imms, .word 0)) && immOk op imms

/-- A word that passes the check is issued in a package that the rules allow. -/
theorem issues_of (g : Group) (w : Word64) (op : Op) (imms : List Word64) (h : issuable g w op imms = true) :
    Issues (devT (tileG g (w :: imms))) r0 g path0 blk0 w op imms := by
  simp only [issuable, Bool.and_eq_true, decide_eq_true_eq] at h
  obtain ⟨⟨⟨⟨⟨⟨hp, hb⟩, hj⟩, hf⟩, hd⟩, hi⟩, hl⟩ := h
  exact ⟨⟨g, path0, rfl, hp, hj⟩, by rw [hb]; rfl, rfl, hf, hd, hi, hl⟩

/-- No thread of `grp0` has a poisoned predicate. -/
theorem grp0_clean (w : Word64) : GuardsClean w grp0 path0 := by
  intro l _
  show (wGuarded w && bit (0 : BitVec 8) (wPred w)) = false
  simp [bit]

/-- The leader executes an instruction that is not guarded. -/
theorem grp0_leader (w : Word64) (h : wGuarded w = false) : LeaderGoes w grp0 path0 :=
  ⟨grp0_clean w 0 (by decide +kernel), by show (!wGuarded w || _) = true; rw [h]; rfl⟩

/-- Every word of a list is issued by a path of `grp0`, with the immediates given. -/
def allIssue (l : List (Word64 × Op)) (imms : List Word64) : Prop :=
  ∀ e ∈ l, Issues (devT (tileG grp0 (e.1 :: imms))) r0 grp0 path0 blk0 e.1 e.2 imms ∧ GuardsClean e.1 grp0 path0

/-- The check of a list. -/
theorem allIssue_of (l : List (Word64 × Op)) (imms : List Word64) (h : ∀ e ∈ l, issuable grp0 e.1 e.2 imms = true) :
    allIssue l imms := fun e he => ⟨issues_of grp0 e.1 e.2 imms (h e he), grp0_clean e.1⟩

/-- Every word of a list is issued and its leader executes it. -/
def allLead (l : List (Word64 × Op)) (imms : List Word64) : Prop :=
  ∀ e ∈ l, Issues (devT (tileG grp0 (e.1 :: imms))) r0 grp0 path0 blk0 e.1 e.2 imms ∧ LeaderGoes e.1 grp0 path0

/-- The check of a list. -/
theorem allLead_of (l : List (Word64 × Op)) (imms : List Word64)
    (h : ∀ e ∈ l, issuable grp0 e.1 e.2 imms = true ∧ wGuarded e.1 = false) : allLead l imms :=
  fun e he => ⟨issues_of grp0 e.1 e.2 imms (h e he).1, grp0_leader e.1 (h e he).2⟩

/-! Witnesses: threads. -/

/-- O2: each integer instruction, with registers 63 and 0, a divisor of 0, and both senses of a guard. -/
theorem witness_ThreadIntegerResults : allIssue intWords [] := allIssue_of _ _ (by decide +kernel)

/-- O3: each FP32 instruction and conversion. -/
theorem witness_ThreadFloatResults : allIssue fpWords [] := allIssue_of _ _ (by decide +kernel)

/-- O4: each compare and predicate instruction. -/
theorem witness_ThreadPredicateResults : allIssue predWords [] := allIssue_of _ _ (by decide +kernel)

/-- O5: each move and cross-lane instruction. -/
theorem witness_ThreadMoveResults : allIssue moveWords [] := allIssue_of _ _ (by decide +kernel)

/-- O6: each uniform instruction and `thr.clk` with a leader that executes it, and one whose leader's guard fails. -/
theorem witness_UniformResults : allLead uniWords [] ∧ allLead uliWord [0xFFFFFFFFFFFFFFFF#64] ∧
    Issues (devT (tileG grp0 [0x1710410000800000#64])) r0 grp0 path0 blk0 0x1710410000800000#64 (.umov 4 4) [] ∧
      guardPoison 0x1710410000800000#64 (threadAt grp0 (leader path0)) = false ∧
      guardOk 0x1710410000800000#64 (threadAt grp0 (leader path0)) = false :=
  ⟨allLead_of _ _ (by decide +kernel), allLead_of _ _ (by decide +kernel), issues_of grp0 _ _ _ (by decide +kernel), by decide +kernel, by decide +kernel⟩

/-- A path of the upper lanes, ready. -/
def path1 : Path := ⟨0xFFFF0000#32, 3, [], .ready⟩

/-- A group of two ready paths. -/
def grp1 : Group := ⟨0, 0, [], 0, [], [⟨0xFFFF#32, 0, [], .ready⟩, path1]⟩

/-- O7: control instructions, a path that waits for another, which is at `thr.nop`, and what they release performed; paths held by
`thr.yield` and by fences, which go on. -/
theorem witness_ThreadControlEffects :
    allIssue ctlWords [] ∧ (∀ e ∈ ctlWords, execLanes e.1 grp0 path0 = laneList path0.lanes ∧ execLanes e.1 grp0 path0 ≠ []) ∧
    (let d := devT (tileG grp1 [0x1A00000200000000#64, 0#64, 0#64, 0x1A00000000000000#64])
     readyOthers d 0 0 0 blk0 0xFFFF#32 = 0xFFFF0000#32) ∧
    (let d := devT (tileG grp0 [])
     relDone d 0 0 0 1 1 (BitVec.allOnes 32) = true ∧ fenceDone d 0 0 0 3 1 path0.lanes = true) ∧
    (let d := devT (tileG { grp0 with paths := [{ path0 with st := .yielded 1#32 }] } [])
     (groupAt (tileOf d 0 0) 0).bind (pathOf · 0) = some { path0 with st := .yielded 1#32 }) ∧
    (let d := devT (tileG { grp0 with paths := [{ path0 with st := .fence 3 1 }] } [])
     (groupAt (tileOf d 0 0) 0).bind (pathOf · 0) = some { path0 with st := .fence 3 1 } ∧ fenceDone d 0 0 0 3 1 path0.lanes = true) := by
  refine ⟨allIssue_of _ _ (by decide +kernel), by decide +kernel, by decide +kernel, by decide +kernel, by decide +kernel, by decide +kernel⟩

/-- O8: the branches at their bounds, and a parked path. -/
theorem witness_BranchDestinations : allIssue branchWords [] ∧
    (∀ e ∈ branchWords, ∀ l ∈ execLanes e.1 grp0 path0, tpoison (threadAt grp0 l) 63 = false) ∧
    pathOf { grp0 with paths := [{ path0 with st := .parked, join := [9] }] } 0 =
      some { path0 with st := .parked, join := [9] } := by
  refine ⟨allIssue_of _ _ (by decide +kernel), by decide +kernel, by decide +kernel⟩

/-- A unit instruction of order n. -/
def unitI (n : Nat) (w : Word64) (us : List Nat) (r wr : Nat) : UnitInstr :=
  { ord := n, blk := 0, slot := 0, lane := 0, pc := 0, word := w, uops := us, reads := r, writes := wr, rmem := [], wmem := [],
    bind := {}, trap := false, res := {} }

/-- Does a check pass, and does it fault? -/
def passes : UnitCheck → Bool
  | .ok _ => true
  | .fault _ _ => false

/-- The check of a unit instruction as `grp0` issues it. -/
def checkOf (chk : Ctx → List Nat → UnitCheck) (w : Word64) (op : Op) (imms : List Word64) (us : List Nat) : UnitCheck :=
  chk (issueCtx (devT (tileG grp0 (w :: imms))) r0 grp0 path0 blk0 w op imms) (us.map fun u => (ureg grp0 u).toNat)

/-- O9: each vector instruction with its checks passed and the queue empty, or full; and `vx.ld` at an offset that is no multiple
of 64, whose check faults. -/
theorem witness_VectorIssue : allLead vxWords [] ∧
    (∀ e ∈ vxWords, passes (checkOf vxCheck e.1 e.2 [] (if vUsesUs e.1 then [fld e.1 12 8] else [])) = true) ∧
    (let w := 0x5000000058000900#64
     Issues (devT (tileG grp0 [w])) r0 grp0 path0 blk0 w (.vx 8 0) [] ∧
      passes (checkOf vxCheck w (.vx 8 0) [] [fld w 12 8]) = false) ∧
    ({ queue := List.replicate 8 (unitI 1 0 [] 0 0) } : UnitQ).queue.length = 8 := by
  refine ⟨allLead_of _ _ (by decide +kernel), by decide +kernel, ⟨issues_of grp0 _ _ _ (by decide +kernel), by decide +kernel⟩, by decide +kernel⟩

/-- O10: the matrix, aligner and split instructions with their checks passed, in both split modes; a check that faults;
and a path held by `mx.sync` that may go on. -/
theorem witness_UnitIssue :
    allLead unitWords [] ∧ allLead splitWords [5#64] ∧
    passes (checkOf mmaCheck 0x600038042800001F#64 .mma [] [4, 5]) = true ∧
    passes (checkOf spMmaCheck 0x720428042800001F#64 .spMma [5#64] [4, 5]) = true ∧
    passes (checkOf splitCheck 0x70040004F800001F#64 .spSplit [5#64] [4, 31]) = true ∧
    passes (checkOf splitCheck 0x700400042000001F#64 .spSplit [5#64] [4, 4]) = false ∧
    cdFull base 0 = true ∧ cdFull (Dev.dark 2 Flash.delivered) 0 = false ∧
    syncDone { tileG grp0 [] with split := true } 0 1 = true ∧
    (∀ u ∈ [UnitSel.mx, .al, .sp], unitRoom (tileG grp0 []) u = true) ∧
    unitRoom { tileG grp0 [] with mx := { queue := List.replicate 8 (unitI 1 0 [] 0 0) } } .mx = false := by
  refine ⟨allLead_of _ _ (by decide +kernel), allLead_of _ _ (by decide +kernel), by decide +kernel, by decide +kernel, by decide +kernel, by decide +kernel, by decide +kernel, by decide +kernel,
    by decide +kernel, by decide +kernel, by decide +kernel⟩

/-- A group of which lane 3 has a poisoned p7 and t3. -/
def grpP : Group := { grp0 with thr := [(3, { tp := 8#64, pp := 0x80#8 })] }

/-- A group of which lane 0 has a poisoned t3. -/
def grpQ : Group := { grp0 with thr := [(0, { tp := 8#64 })] }

/-- O11: `thr.add` and `thr.fadd` under a guard that is poisoned in lane 3; a local load whose address register is poisoned in lane 3
alone, and local and global accesses of which the first lane's is. -/
theorem witness_PoisonedOperandFaults :
    (let w := 0x0173F04200000000#64
     Issues (devT (tileG grpP [w])) r0 grpP path0 blk0 w (.alu 0 63 1 (.reg 2)) [] ∧
      (laneList path0.lanes).find? (fun l => guardPoison w (threadAt grpP l)) = some 3) ∧
    (let w := 0x0770108300000000#64
     Issues (devT (tileG grpP [w])) r0 grpP path0 blk0 w (.fp 0 1 2 3 0) [] ∧
      (laneList path0.lanes).find? (fun l => guardPoison w (threadAt grpP l)) = some 3) ∧
    (let w := 0x1003E0C001800000#64
     let m : MemOp := ⟨62, 3, 0, 0, false, 3, false, 0, 0, 0, 0, 0⟩
     Issues (devT (tileG grpP [w])) r0 grpP path0 blk0 w (.ld m) [] ∧ wGuarded w = false ∧
      addrPoison m grpP (threadAt grpP 3) = true ∧ (execLanes w grpP path0).find? (fun l => addrPoison m grpP (threadAt grpP l) ||
        !localOk (localAddr m [] (threadAt grpP l)) (szBytes m.sz)) = some 3) ∧
    (∀ e ∈ [(0x1003E0C001800000#64, (⟨62, 3, 0, 0, false, 3, false, 0, 0, 0, 0, 0⟩ : MemOp)),
        (0x140010C501009000#64, ⟨1, 3, 5, 0, false, 2, false, 0, 0, 0, 9, 0⟩)],
      (execLanes e.1 grpQ path0).head? = some 0 ∧ addrPoison e.2 grpQ (threadAt grpQ 0) = true) := by
  refine ⟨⟨issues_of grpP _ _ _ (by decide +kernel), by decide +kernel⟩, ⟨issues_of grpP _ _ _ (by decide +kernel), by decide +kernel⟩,
    ⟨issues_of grpP _ _ _ (by decide +kernel), by decide +kernel, by decide +kernel, by decide +kernel⟩, by decide +kernel⟩

/-- Group 0 with t3 of every lane at the last aligned word of tile memory, or one byte above it. -/
def grpT (v : Word32) : Group := { grp0 with thr := (List.range 32).map fun l => (l, { t := [(3, v)] }) }

/-- The local access of a word, as `grpT` issues it. -/
def localCtx (v : Word32) (w : Word64) (op : Op) : Ctx := issueCtx (devT (tileG (grpT v) [w])) r0 (grpT v) path0 blk0 w op []

/-- O12: local accesses that end at the last byte of tile memory and wait for nothing, and one that ends one byte after it. -/
theorem witness_LocalAccesses :
    allIssue localWords [] ∧
    (let w := 0x1003E0C001800000#64
     let m : MemOp := ⟨62, 3, 0, 0, false, 3, false, 0, 0, 0, 0, 0⟩
     let g := grpT 0x1FFFF8#32
     Issues (devT (tileG g [w])) r0 g path0 blk0 w (.ld m) [] ∧
      (∀ l ∈ execLanes w g path0, localOk (localAddr m [] (threadAt g l)) 8 = true ∧ addrPoison m g (threadAt g l) = false) ∧
      localWaits (localCtx 0x1FFFF8#32 w (.ld m)) m (execLanes w g path0) = false ∧
      (execLanes w (grpT 0x1FFFF9#32) path0).find? (fun l => !localOk (localAddr m [] (threadAt (grpT 0x1FFFF9#32) l)) 8) = some 0) ∧
    (let w := 0x120010C001300000#64
     let m : MemOp := ⟨1, 3, 0, 0, false, 2, false, 3, 0, 0, 0, 0⟩
     let g := grpT 0x1FFFFC#32
     let k := localCtx 0x1FFFFC#32 w (.st m)
     Issues (devT (tileG g [w])) r0 g path0 blk0 w (.st m) [] ∧
      localWaits k m (execLanes w g path0) = false ∧ releaseWaits (devT (tileG g [w])) k m (execLanes w g path0) = false) ∧
    (base.mem.lost = [] ∧ ∀ l ∈ laneList path0.lanes, ∀ i < 4, (wellLine base ((tilePa 0 0 0 + i + 0 * l) / 64)).valid = false) := by
  refine ⟨allIssue_of _ _ (by decide +kernel), ⟨issues_of _ _ _ _ (by decide +kernel), by decide +kernel, by decide +kernel, by decide +kernel⟩,
    ⟨issues_of _ _ _ _ (by decide +kernel), by decide +kernel, by decide +kernel⟩, by decide +kernel⟩

/-- How the translation of an access ends for `grp0`: 0 all parts, 1 a fault, 2 a wait. -/
def xlatEnds (xl : Xlat) (w : Word64) (op : Op) (m : MemOp) (acc : Access) (atomic : Bool) : Nat :=
  let d := { devT (tileG grp0 [w]) with xl := xl }
  match (xlatAccess acc atomic (issuedDev d r0 grp0 path0 w) (issueCtx d r0 grp0 path0 blk0 w op []) m (execLanes w grp0 path0)).2 with
  | .ok ps => if ps = [] then 3 else 0
  | .fault _ _ _ => 1
  | .wait => 2

/-- Host-assisted translation with nothing cached. -/
def assisted : Dev := setReg base (fnOff 0) 1#32

/-- O13: a load, a store and an atomic of which every lane translates, and a load at an address that no table maps. -/
theorem witness_GlobalAccesses :
    allIssue globalWords [] ∧
    (let m : MemOp := ⟨62, 3, 0, 31, true, 3, false, 0, 1, 3, 0, 0⟩
     xlatEnds mapped 0x1003E0C0FB870000#64 (.ld m) m .read false = 0 ∧
      xlatEnds base.xl 0x1003E0C0FB870000#64 (.ld m) m .read false = 1) ∧
    (let m : MemOp := ⟨1, 3, 0, 31, true, 2, false, 0, 2, 2, 0, 0⟩
     let w := 0x120010C0FB0A0000#64
     xlatEnds mapped w (.st m) m .write false = 0 ∧ xlatEnds base.xl w (.st m) m .write false = 1 ∧
      storeEnters (devT (tileG grp0 [w])) (issueCtx (devT (tileG grp0 [w])) r0 grp0 path0 blk0 w (.st m) []) m [0]
        [(0, [⟨0x40000, 0x40000, 4, 0, none⟩])] = true) ∧
    (let m : MemOp := ⟨2, 3, 4, 31, true, 3, false, 0, 3, 3, 9, 0⟩
     xlatEnds mapped 0x140020C4FB8F9000#64 (.atom m) m .write true = 0 ∧
      xlatEnds base.xl 0x140020C4FB8F9000#64 (.atom m) m .write true = 1) ∧
    (match (translate assisted (.tile 0 0) sp0 0x40000 .read).2 with | .wait => True | _ => False) := by
  refine ⟨allIssue_of _ _ (by decide +kernel), by decide +kernel, by decide +kernel, by decide +kernel, ?_⟩
  show True; trivial

/-- An outstanding load and an outstanding atomic that has been performed. -/
def outT : Tile :=
  { tileG grp0 [] with
    ord := 3
    out := [
      { ord := 1, blk := 0, slot := 0, lanes := 1#32, rd := 2, sz := 2, sx := false, aop := none, acq := false, rel := false, pc := 0,
        trap := false, parts := [⟨0, [⟨0x3C, 0x3C, 4, 0, none⟩], 0, 0, false, none⟩] },
      { ord := 2, blk := 0, slot := 0, lanes := 2#32, rd := 4, sz := 3, sx := false, aop := some 0, acq := false, rel := false, pc := 0,
        trap := false, parts := [⟨1, [⟨64, 64, 8, 0, none⟩], 5, 0, false, some (7, false, false)⟩] }]
    stores := [⟨2, 0xAB, 1#64, false, [⟨3, 0, 0, 1#32⟩]⟩] }

/-- O14: a load that ends at a line's last byte, also by its one part, an atomic, and a store buffer entry that may leave. -/
theorem witness_AccessesPerform :
    (∀ o ∈ outT.out, mayReturn outT o = true ∧ (∀ a ∈ o.parts, ∀ c ∈ a.chunks, c.st = 0 ∧ deadTo (devT outT) 0 (c.pa / 64) = false) ∧
      (∀ a ∈ o.parts, ∀ v p i, a.done = some (v, p, i) → i = false) ∧ groupAt outT o.slot = some grp0 ∧
      outT.out.find? (fun q => q.ord == o.ord) = some o) ∧
    (∀ o ∈ outT.out.take 1, mayReturn outT { o with parts := o.parts.map fun a =>
      { a with chunks := a.chunks.filter fun c => c.pa == 0x3C } } = true) ∧
    (∀ e ∈ outT.stores, deadTo (devT outT) 0 e.line = false ∧ lineLost (devT outT) e.line = false ∧
      (farLine? (devT outT) e.line).isSome = true) := by
  refine ⟨?_, by decide +kernel, by decide +kernel⟩
  intro o ho
  simp only [outT, List.mem_cons, List.not_mem_nil, or_false] at ho
  rcases ho with rfl | rfl <;>
    exact ⟨by decide +kernel, by decide +kernel, fun a ha v p i h => by simp at ha; subst ha; simp_all, by decide +kernel, by decide +kernel⟩

/-- A tile of which each unit has one instruction queued. -/
def unitT : Tile :=
  { tileG grp0 [] with
    mx := { queue := [unitI 1 0x600038042800001F#64 [0x1000, 0x3000] 8 8] }
    al := { queue := [unitI 2 0x7400600000000000#64 [] 0 0x2000] }
    sp := { queue := [unitI 3 0x70040004F800001F#64 [0x8000, 0x40000] 0 0] }
    vx := { queue := [unitI 4 0x400007FF89100000#64 [] 0 0x20] } }

/-- O15: heads of queues that may start, and running instructions that may complete. -/
theorem witness_UnitStartsAndCompletes :
    (∀ i ∈ unitT.mx.queue, isSync i.word = false ∧ depsMet unitT i = true ∧ alignerFree unitT i = true ∧ engineFree unitT = true ∧
      mmaSeg i.word = false ∧ wOp i.word = 0x30) ∧
    (isSync 0x6200C00000000000#64 = true) ∧
    (let i := unitI 9 0x600038042800001F#64 [0x1000, 0x3000] 8 8
     let x := { unitT with mx := { queue := [i], run := [unitI 1 0x600038042800001F#64 [0x1000, 0x3000] 8 8], last := 1 } }
     depsMet x i = false ∧ chains x i = true) ∧
    (∀ i ∈ unitT.al.queue, depsMet unitT i = true ∧ (∀ j ∈ unitT.mx.queue, handsSegments j = true → i.ord ≤ j.ord) ∧
      ∀ j ∈ unitT.al.run, wOp j.word ≠ 0x39) ∧
    (∀ i ∈ unitT.sp.queue ++ unitT.vx.queue, depsMet unitT i = true) ∧
    (let x := { unitT with mx := { run := unitT.mx.queue }, al := { run := unitT.al.queue }, sp := { run := unitT.sp.queue },
                           vx := { run := unitT.vx.queue } }
     (runningAt x .mx 1).isSome = true ∧ (∀ i ∈ x.mx.run, inTurn x i = true) ∧ (runningAt x .al 2).isSome = true ∧ runningAt x .mx 2 = none ∧
      (runningAt x .sp 3).isSome = true ∧ (runningAt x .vx 4).isSome = true) := by decide +kernel

/-- A queue that has a record of some words in hand. -/
def queueW (ws : List Word64) : Queue := { state := .run, words := 0 :: ws ++ [0], pos := 1, count := 1, gen := 1, fetched := 1 }

/-- A package of which queue 0 is given. -/
def devQ (x : Queue) : Dev := { base with qs := [(0, x)], xl := mapped }

/-- Queue 0 starts each word of a list, with the immediate words that follow it. -/
def allStart (l : List (Word64 × Op)) (imms : List Word64) : Prop :=
  ∀ e ∈ l, Starts (devQ (queueW (e.1 :: imms))) 0 e.2 e.1 imms

/-- The check of a list. -/
theorem allStart_of (l : List (Word64 × Op)) (imms : List Word64)
    (h : ∀ e ∈ l, canStart (devQ (queueW (e.1 :: imms))) 0 = true ∧
      streamWord (queueOf (devQ (queueW (e.1 :: imms))) 0) = some (e.2, e.1, imms)) : allStart l imms := fun e he => h e he

/-- Whether a gong check lets an operation go. -/
def goes : GongGo → Bool
  | .go => true
  | .ends _ => false
  | .fault _ _ => false
  | .wait => false

/-- O16: each gong operation by a path whose leader executes it and by a stream; the check of gong 7 passes, that of gong
0x1FFFF of a CD not fitted does not. -/
theorem witness_GongUpdatesSent :
    allLead gongWords [9#64] ∧ allLead [(0x90000000000003A4#64, .gong 0)] [] ∧ allStart gongWords [9#64] ∧
    (let w := 0x9005200000FFFF80#64
     goes (updateCheck (issuedDev (devT (tileG grp0 [w, 9#64])) r0 grp0 path0 w) (.tile 0 0) sp0 0 0x1FFFF w).2 = true) ∧
    goes (gongCheck (devQ {}) (.stream 0) (queueSpace (devQ {}) 0) 7).2 = true ∧
    goes (gongCheck { devQ {} with variant := 4 } (.stream 0) sp0 0x1FFFF).2 = false := by
  refine ⟨allLead_of _ _ (by decide +kernel), allLead_of _ _ (by decide +kernel), allStart_of _ _ (by decide +kernel),
    by decide +kernel, by decide +kernel, by decide +kernel⟩

/-- O17: an update under way that is ready, at a value where the addition wraps and a threshold is met. -/
theorem witness_GongFunctions :
    let u : GongUpd := ⟨7, .add, 2#64, 0, .host, 0⟩
    let d := { base with gg := { base.gg with upd := [u], val := [(7, ⟨0xFFFFFFFFFFFFFFFF#64, some (1#64, 3)⟩)] } }
    d.gg.upd[0]? = some u ∧ updReady d u = true ∧ whoDead d u.who (gongCd u.gong) = false := by decide +kernel

/-- O18: a wait of a queue in WAIT that has not arrived, once with its condition met and once not; a fence that waits. -/
theorem witness_GongWaitsAndHost :
    (let w : Waiter := ⟨7, false, 1#64, 2, .queue 0, false, .none, 0, 0⟩
     let d := { devQ { queueW [] with state := .wait } with
       gg := { base.gg with wait := [w], val := [(7, ⟨1#64, none⟩)], chimeDue := [⟨5, 1, 0, 2⟩] } }
     d.gg.wait[0]? = some w ∧ w.arrived = false ∧ updateAhead d w = false ∧ whoDead d w.who 0 = false ∧ waitHolds (gongOf d 7).value w = true ∧ waitFree d w = true ∧
      waitHolds (gongOf base 7).value w = false ∧ d.gg.chimeDue[0]? = some ⟨5, 1, 0, 2⟩) ∧
    allStart (streamWords.drop 5) [] ∧
    (let d := devQ { queueW [0x9600300000000000#64] with wait := .fence, fenceSys := true }
     (queueOf d 0).wait = .fence ∧ (queueOf d 0).state = .run ∧ streamFenceDone d 0 = true) ∧
    (heldByCbo base (some 63) = false ∧ heldByCbo base none = false ∧
      heldByCbo { base with coh := { base.coh with mshr := [⟨63, 5, .cln, none, false, false, false, false⟩] } } (some 63) = true ∧
      (true && cboOpen base 63) = false ∧ cdFitted base.variant (gongCd (2 ^ 17 - 1)) = true) := by
  refine ⟨by decide +kernel, allStart_of _ _ (by decide +kernel), by decide +kernel, by decide +kernel⟩

/-- How the translation of a stream's write ends. -/
def streamWrite (va : Nat) : XRes := (translate (devQ {}) (.stream 0) (queueSpace (devQ {}) 0) va .write).2

/-- O19: `ctl.nop`, `ctl.complete` with an address that is mapped and one that is not, `cfg.set`, `cfg.fence` and its end,
and `blk.launch` to the last tile. -/
theorem witness_StreamControl_starts :
    allStart [(0xA000000000000000#64, .ctlNop), (0xA400000000000000#64, .cfgFence)] [] ∧
    allStart (streamWords.drop 1 |>.take 1) [0x20#64] ∧ allStart (streamWords.drop 2 |>.take 1) [0#64] ∧
    allStart (streamWords.drop 4 |>.take 1) [0x100#64, 5#64, 7#64] ∧
    (let d := devQ { queueW [0xA400000000000000#64] with state := .wait, wait := .cfgFence, cfg := [⟨qOff 0 3, 0x10#32⟩] }
     (queueOf d 0).cfg.all (cfgApplied d) = true) ∧
    (canStart (devQ (queueW [0#64])) 0 = true ∧ streamWord (queueOf (devQ (queueW [0#64])) 0) = none) := by
  refine ⟨allStart_of _ _ (by decide +kernel), allStart_of _ _ (by decide +kernel), allStart_of _ _ (by decide +kernel),
    allStart_of _ _ (by decide +kernel), by decide +kernel, by decide +kernel⟩

/-- O19, the cases of the clauses: addresses, registers, launches. -/
theorem witness_StreamControl :
    streamWrite 0x20 = .ok 0x20 ∧ recordTarget (devQ {}) 0 0x20 = true ∧ streamWrite 0x100000000 = .cause 1 stXlat ∧
    (let d := devQ {}
     holdsNew d = false ∧ postedUpdates d 0 = false ∧
      (let l := launchOf d 0 0xA60CFB301E000000#64 [0x100#64, 5#64, 7#64]
       l.fixed = true ∧ cdFitted d.variant (gongCd l.gong) = true ∧ ∀ t ∈ namedTiles l, mayName d 0 t = true)) ∧
    (let x : Tile := { tileG grp0 [0x1C00000000000000#64] with nextBlk := 1 }
     let w := 0x1C00000000000000#64
     fetched x blk0 0 = .word w ∧ decodeThread w = none ∧ mayIssue (devT x) 0 x blk0 = true ∧
      issuingPath x grp0 0 w path0 = some (grp0, path0)) ∧
    (let d := setReg (devQ {}) (chnOff 47 0x18) 3#32
     let a := attempt d (chnOff 47 2) 0x20000#32 0x3FFFF#32
     qPart d 0 = 0 ∧ writeAbsent d a = false ∧ opensForeign d 0 a = true ∧ opensForeign (devQ {}) 0 a = false) ∧
    isDoorbell (qOff 0 3) = true := by decide +kernel

/-- A register's buffer with some bits waiting, as a pair's high half would leave it. -/
def buffered (d : Dev) (off : Nat) (v mask : Word32) : Dev := setBuf d off ⟨mask, v, true, false, []⟩

/-- A line that holds a sealed record of one line with generation 1. -/
def recordLine : Line := lineOf [0x10000#64, 0#64, 0#64, 0#64, 0#64, 0#64, 0#64, 0x5EA1000000000001#64]

/-- A package with a ring of 4 KiB at address 0 whose first line, held at its home, is given. -/
def devRing (x : Queue) (l : WellLine) : Dev :=
  let d := { devQ x with mem := { base.mem with lines := [(0, l)] } }
  setReg d (qOff 0 2) 0x00000C01#32

/-- O20, records: a sealed record, an unsealed one at its first, at its eighth and at its ninth read, and a poisoned one. -/
theorem witness_StreamRecords :
    let x : Queue := { state := .run, count := 1 }
    let seen := fun (l : WellLine) => let e := fillLines (devRing x l) (recordLines (devRing x l) 0)
      let r := readRecord e 0 0
      (sealed r.1 r.2 1, r.1.length, r.2)
    wantsRecord x = true ∧ wantsRecord { x with reads := 8 } = true ∧
      seen { valid := true, data := recordLine } = (true, 8, false) ∧ seen { valid := true, data := 0 } = (false, 8, false) ∧
      seen { valid := true, data := recordLine, poison := true } = (false, 8, true) := by decide +kernel

/-- O20, doorbells and actions: every bit of Q.ACTION waits on a queue that is HELD, RUN or EMPTY. -/
theorem witness_StreamRecordsAndActions :
    cdFitted base.variant (queueCd 4095) = true ∧ heldByCbo base none = false ∧ qProducer base 0 = 0 ∧ qProducer (setReg base (qOff 0 2) 0x80#32) 0 = 1 ∧
    (let x : Queue := { queueW [0#64] with state := .held, reason := 1 }
     let act := fun (v : Word32) => buffered (devQ x) (qOff 0 6) v 0xFFFF000F#32
     actionReady x = true ∧ actionReady { x with state := .run } = true ∧
      actionBit (act 0xFFFF0008#32) 0 3 = true ∧ actionBit (act 4#32) 0 2 = true ∧ actionBit (act 4#32) 0 3 = false ∧
      actionBit (act 1#32) 0 0 = true ∧ actionBit (act 1#32) 0 2 = false ∧ actionBit (act 2#32) 0 1 = true ∧
      (dispOf (devQ x) 0).state = 0) := by decide +kernel

/-- A launch of some blocks on the last tile, or anywhere. -/
def launch0 (fixed : Bool) (n : Nat) : Launch :=
  { id := 0, prog := 0, groups := 8, blocks := n, arg := 5#64, gong := 7, fixed := fixed, first := 179, stride := 0, cls := 0,
    next := 0, ahead := [] }

/-- O21: a block that fills a tile's slots, placed by FIXED on tile 179 and by ANY on tile 0, last of its launch or not;
blocks that start, end and time out; a fetch that misses. -/
theorem witness_BlockLife :
    (let d := devQ { queueW [] with launch := some (launch0 true 1), wait := .launch }
     (queueOf d 0).state = .run ∧ isPlaced (launch0 true 1) 0 = false ∧ tileQualifies d 0 179 8 = true ∧
      tileQualifies d 0 0 8 = true ∧ tileQualifies d 0 0 9 = false ∧ (markPlaced (launch0 true 1) 0).next = 1 ∧
      (markPlaced (launch0 false 2) 1).next = 0) ∧
    (let x : Tile := { tileG grp0 [] with blocks := [{ blk0 with started := false }] }
     blockOf x 0 = some { blk0 with started := false } ∧ groupAt x 0 = some grp0 ∧ grp0.blk = 0) ∧
    mayIssue (devT (tileG grp0 [])) 0 (tileG grp0 []) blk0 = true ∧
    (let g : Group := { grp0 with paths := [] }
     mayEnd (devT (tileG g [])) 0 0 blk0 = true ∧ blockLive (tileG grp0 []) 0 = true) ∧
    (let d := { base with mem := { base.mem with past := [⟨1, 7#512, [(0, 0)]⟩] } }
     heldBefore d 0 0 1 7#512 = true ∧ heldBefore d 0 1 1 7#512 = false) ∧
    (∀ l ∈ (tileG grp0 []).icache, l.va ≠ wordVa blk0 8 / 64 * 64) ∧
    (translate (devT (tileG grp0 [])) (.tile 0 0) sp0 64 .fetch).2 = .ok 64 ∧
    (translate { devT (tileG grp0 []) with xl := base.xl } (.tile 0 0) sp0 64 .fetch).2 = .cause 1 stXlat := by decide +kernel

/-- ANY placement on an empty CD takes tile 0: no other tile has more free slots. -/
theorem witness_BlockLife_any :
    let d := devQ { queueW [] with launch := some (launch0 false 1), wait := .launch }
    ∀ u, u < 180 → (freeSlots (tileOf d 0 u)).length = 8 := by decide +kernel

/-- A move of 128 bytes within the tile's memory, and the descriptor words of one. -/
def move0 (phase : MovePhase) (addr : Option Nat) (words : List Word64) : Move :=
  { id := 5, fill := false, dim := 0, addr := addr, words := words, cls := 0, queue := 0, part := 0, space := sp0, tile := some (0, 0),
    ord := 1, phase := phase, status := 0, side := 0, va := none, gongOk := true, msgs := 0, bytes := 0 }

/-- Local source 0x40, local destination 0x1FFF80 (it ends with tile memory), gong 7. -/
def desc0 : List Word64 :=
  [0x40#64, 0x1FFF80#64, 0x0001000100000080#64, 0#64, 0#64, 0#64, 0#64, 0x0280000000020007#64]

/-- A package of which the drover of tile 0 has one move. -/
def devM (m : Move) : Dev := { devT (tileG grp0 []) with drv := [(0, { moves := [m], next := 6 })] }

/-- O22: `drv.*` by a thread (descriptor in memory and local) and by a stream; a descriptor that is fetched; a well-formed
local move, and one that R272 refuses; a move that has ended. -/
theorem witness_DroverMoves :
    allLead drvWords [0x40#64] ∧ allLead drvLocal [] ∧ allStart drvWords [0x40#64] ∧
    (drvQueued (droverOf (devT (tileG grp0 [])) 0) < 16 ∧ holdsNew (devQ {}) = false) ∧
    (let m := move0 .queued (some 0x40) []
     let d := devM m
     let r := drvRange d (moveSel 0 m) sp0 0 .read (rangeLines 0x40 64) []
     drvInFlight (droverOf d 0) < drvCap 0 ∧ (match r.2 with | .inr pas => !pas.isEmpty | .inl _ => false) = true) ∧
    (let m := move0 .read none desc0
     let d := devM m
     moveOf d ⟨0, 5⟩ = some m ∧ (moveGong d (moveSel 0 m) m (descOf m)).2 = some 0 ∧ descOk m = true ∧
      (descOf m).dsp = 1 ∧ (descOf m).ssp = 1 ∧ (descOf m).red = 0 ∧ descOk { m with words := desc0.set 2 0#64 } = false ∧
      (match (checkPieces d (moveSel 0 m) m (descOf m) (movePieces m (descOf m)) []).2 with
        | .inr ps => ps.length == 2
        | .inl _ => false) = true) ∧
    moveOf (devM (move0 .moved none desc0)) ⟨0, 5⟩ = some (move0 .moved none desc0) := by
  refine ⟨allLead_of _ _ (by decide +kernel), allLead_of _ _ (by decide +kernel), allStart_of _ _ (by decide +kernel),
    by decide +kernel, by decide +kernel, by decide +kernel, by decide +kernel⟩

/-- O23: registers that a write reaches: Q.BASE_LO (buffered), the register of a chime entry, a flags register; and an
offset that names none. -/
theorem witness_RegisterWindow :
    (∀ o ∈ [qOff 0 0, chmOff 4863, qOff 4095 5],
      (regRow? o).isSome = true ∧ isDoorbell o = false ∧ unitAbsent base o = false ∧ regRetired base o = false ∧
      writeAbsent base (attempt base o 0xFFFFFFFF (windowMask o &&& ~~~ (cmdBits o &&& ~~~ 0xFFFFFFFF#32))) = false ∧
      writeRefused base (attempt base o 0xFFFFFFFF (windowMask o &&& ~~~ (cmdBits o &&& ~~~ 0xFFFFFFFF#32))) = false) ∧
    regRow? 0x7FFFFFFC = none ∧ isDoorbell 0x7FFFFFFC = false ∧ heldByCbo base (some 0) = false ∧
    heldByCbo { base with coh := { base.coh with mshr := [⟨0, 5, .flu, none, false, false, false, false⟩] } } (some 0) = true := by
  decide +kernel

/-- O24: copies that agree, and copies of which one and two positions differ, of a register with and without an application in the
same P-cycle. -/
theorem witness_VotedRegisters :
    let d := upset (upset base (clkOff 0 0) 0 1#32) (qOff 0 2) 2 3#32
    powered d = true ∧ Sparse.get noVotes base.rg.votes (clkOff 0 0) = {} ∧ Sparse.wf noVotes d.rg.votes = true ∧ votedBits (qOff 0 2) ≠ 0 ∧
      (Sparse.get noVotes d.rg.votes (qOff 0 2)).c = 3#32 ∧ qOff 0 2 ∈ [qOff 0 2] ∧ clkOff 0 0 ∉ [qOff 0 2] := by decide +kernel

/-! Witnesses: registers, host accesses, memory, coherence, translation. -/

/-- O25: HX.SATP of a host space that is not enabled, whole and alone in its instance's buffer. -/
theorem witness_NaturalBoundaries_generic :
    let off := hxOff 3 0
    let d := buffered base off 0x12345678#32 0xFFFFFFFF#32
    bufferedIn d (offInstance (regOff 4 0x18 3 0)) = [off] ∧ bufReady d off = true ∧
      (regBuf d off).mask &&& genericBits d off ≠ 0 ∧ d.rg.mgmt = [] ∧
      offInstance off = offInstance (regOff 4 0x18 3 0) ∧ offReg off < 0x1FF ∧ off % 4 = 0 ∧
      offUnit off ∉ [3, 0x11, 0x12, 0x19, 0x27, 0x2A] ∧ Sparse.get noVotes d.rg.votes off = {} := by decide +kernel

/-- O25, queues: `enable` buffered on a DISABLED queue with a ring that is allowed and with one that is not; a queue that is
HELD and no longer enabled. -/
theorem witness_NaturalBoundaries_queue :
    let after := fun (d : Dev) => boundary (boundary d (offInstance (qOff 0 0)) (queueBits 0))
      (offInstance (regOff (queueCd 0) 0x17 (0 % 1024) 0)) (queueBits 0)
    let on := after (buffered base (qOff 0 2) 0x00000C01#32 0x00001F01#32)
    let small := after (buffered base (qOff 0 2) 0x00000B01#32 0x00001F01#32)
    cdFitted base.variant (queueCd 0) = true ∧ (queueOf base 0).state = .disabled ∧ qPart on 0 = qPart base 0 ∧
      qEnable on 0 = true ∧ ringOk on 0 = true ∧ (dispOf on 0).state = 0 ∧ qEnable small 0 = true ∧ ringOk small 0 = false ∧
      qEnable (after (devQ { queueW [] with state := .held })) 0 = false := by decide +kernel

/-- O25, tiles: FN.MODE `split` buffered, nothing buffered, and a partition buffered for tile 179 of CD 3. -/
theorem witness_NaturalBoundaries :
    splitBuffered (boundary base (offInstance (tgOff 0 0 0)) tileBits) 0 = none ∧
    splitBuffered (boundary (buffered base (fnOff 0) 0x10#32 0x10#32) (offInstance (tgOff 0 0 0)) tileBits) 0 = some true ∧
    tileFree base 3 179 = true ∧ (tileOf base 3 179).retired = false ∧ (tileOf base 3 179).blocks = [] ∧
    (let d := buffered base (tgOff 3 179 7) 5#32 0xF#32
     tilePart (boundary d (offInstance (tgOff 3 179 0)) tilePartBits) 3 179 ≠ tilePart d 3 179 ∧ tileFree d 3 179 = true) := by
  decide +kernel

/-- O26: a counter register, a companion, addresses of each kind with their first and last bytes, private addresses at the
bounds of each range. -/
theorem witness_HostAccesses :
    (unitAbsent base (qOff 0 0x10) = false ∧ regRetired base (qOff 0 0x10) = false ∧ offReg (qOff 0 0x10) < 0x200 ∧ rcBits (qOff 0 0x10) ≠ 0) ∧
    (let off := qOff 0 0x202
     unitAbsent base off = false ∧ regRetired base off = false ∧ 0x200 ≤ offReg off ∧ ((regRow? (off - 0x800)).map fun r => r.rwb ||| r.rov) = some 0x7FFF) ∧
    (paKind base (tilePa 3 179 0x1FFFFF) = .tile 3 179 ∧ tileRetired base 3 179 = false ∧
      tileRetired { base with tiles := [(0, { retired := true })] } 0 0 = true) ∧
    (paKind base 0x10001FFFFFFF = .scratch 0 63 ∧ sliceMode base 0 63 = 0 ∧
      sliceMode (setWell base 0 { wellOf base 0 with current := 63 }) 0 63 = 1) ∧
    paKind base 0x100020000000 = .hole ∧ paKind { base with variant := 4 } 0x120000000000 = .noCd ∧
    (0x400000000000 ≤ 0x40000003FFF8 ∧ 0x40000003FFF8 % 8 = 0 ∧ 0x40000003FFF8 < 0x400000040000) := by decide +kernel

/-- A package with the far-tier record of CD 0 given. -/
def devF (f : FarTier) : Dev := { base with mem := { base.mem with ft := [(0, f)] } }

/-- O27: the first and last lines of the fitted far tier, a pending rewrite, a line not at its home, commands of FT that wait,
a map-out in its copies and at its end. -/
theorem witness_FarTierSectors :
    farLine? base 0 = some (0, 0) ∧ farLine? base (0xC000000000 / 64 - 1) = some (3, 0x3000000000 - 64) ∧
    (let d := devF { noFt 0 with rewr := [⟨1, 5#512, false⟩] }
     (ftOf d 0).rewr.find? (fun r => r.line == 1) = some ⟨1, 5#512, false⟩) ∧
    ((wellLine base 0).valid = false ∧ lineLost base 0 = false ∧ sliceMode base 0 (homeSlice base 0 0) ≠ 2) ∧
    (scrubMode base 0 127 = false ∧ chanState base 0 127 = 0 ∧ cdFitted base.variant 0 = true ∧ pwrState base ≠ 2 ∧ powered base = true) ∧
    (let d := buffered base (fnOff 0) 0x20#32 0x20#32
     bit (regBuf d (fnOff 0)).mask 5 = true ∧ chanState d 0 0 < 3) ∧
    cmdPending (buffered base (ftOff 0 2) 0x3FFFFF#32 0x3FFFFF#32) (ftOff 0 2) = true ∧
    (ftOf (devF { noFt 0 with scrub := some (0, 127, 0) }) 0).scrub = some (0, 127, 0) ∧
    (let d := buffered base (ftOff 0 1) 0x13FFF#32 0x1FFFF#32
     let f := setReg (applyField d (ftOff 0 1) 0x1FFFF) (ftOff 0 1) (regVal (applyField d (ftOff 0 1) 0x1FFFF) (ftOff 0 1) &&& 0xFFFF)
     cmdPending d (ftOff 0 1) = true ∧ mapoutOk f 0 127 127 = true ∧ mapoutOk f 0 127 128 = false) ∧
    (let m : MapOut := ⟨3, 127, false, false, [(5 * 128 + 3, 127 * 128 + 4)]⟩
     (ftOf (devF { noFt 0 with mapout := some m }) 0).mapout = some m ∧ m.left = [(643, 16260)]) ∧
    (paKind base (tilePa 0 0 0 / 64 * 64) = .tile 0 0 ∧ Sparse.find? (devT (tileG grp0 [])).tiles (tileKey 0 0) = some (tileG grp0 [])) :=
  by decide +kernel

/-- An outstanding atomic add of 8 bytes at address 0x40 by lane 31. -/
def atomT : Tile :=
  { tileG grp0 [] with
    ord := 2
    out := [{ ord := 1, blk := 0, slot := 0, lanes := 0x80000000#32, rd := 4, sz := 3, sx := false, aop := some 0, acq := false,
              rel := false, pc := 0, trap := false, parts := [⟨31, [⟨0x40, 0x40, 8, 0, none⟩], 5, 0, false, none⟩] }] }

/-- O28: an atomic whose turn has come; a reduce-write; wells with a target below and above, and a bucket to hand over. -/
theorem witness_HomeOperations :
    (let d := devT atomT
     (∀ o ∈ atomT.out, ∀ a ∈ o.parts, earlierSameLine atomT o.slot 1 31 [1] = false ∧ a.done.isNone = true) ∧
      deadTo d 0 1 = false ∧ lineLost d 1 = false ∧ txnOn d 1 = none ∧ firstInLine d 1 (.device [0, 0, 0, 1, 31]) = true ∧
      dirOf d 1 = {} ∧ (farLine? d 1).isSome = true ∧ poisonAt (homeFill d 1) 1 = false) ∧
    (let r : RedWrite := ⟨9, .move ⟨0, 5⟩, 1, 1, 5#512, 0xF#64, false⟩
     let d := { base with reds := [r] }
     d.reds.find? (fun r => r.id == 9) = some r ∧ txnOn d 1 = none ∧ firstInLine d 1 (.device [1, 9]) = true ∧ dirOf d 1 = {} ∧
      (lineAt (homeFill (unwait d 1 (.device [1, 9])) 1) 1).2 = false) ∧
    (wellTarget (setReg base (wellOff 0 0) 4#32) 0 < (wellOf base 0).current ∧ (wellOf base 0).step = .none) ∧
    (let d := setWell base 0 { wellOf base 0 with current := 63, target := 64 }
     (wellOf d 0).current < wellTarget d 0 ∧ mayJoin d 0 63 = true) ∧
    (let d := setWell base 0 { wellOf base 0 with step := .shrink, stepSlice := 63, left := 4, target := 63 }
     nextTransfer d 0 = some (63, 0) ∧ d.coh.txns = []) ∧
    (lineLost base 1 = false ∧ earlierSameLine atomT 0 1 31 [1] = false ∧ atomT.stores = []) := by decide +kernel

/-- A package with coherence state given. -/
def devC (c : Coh) : Dev := { base with coh := c }

/-- No coherence state. -/
def coh0 : Coh := base.coh

/-- Core 63 holds line 5 in a state. -/
def holds (st : L2State) : Coh := { coh0 with l2 := [(5 * 64 + 63, { st := st, data := 7#512 })] }

/-- O29: a core that holds a line in each state may send requests, and has a credit; a line of unfitted far tier. -/
theorem witness_CoreAccesses :
    (∀ st ∈ [L2State.i, .s, .e, .o, .m],
      (l2Of (devC (holds st)) 63 5).st = st ∧ maySend (devC (holds st)) 63 5 = true ∧ mshrOf (devC (holds st)) 63 5 = none ∧
      hasCredit (devC (holds st)) 63 5 = true ∧ lineLost (devC (holds st)) 5 = false) ∧
    (let d := devC { holds .e with lr := [(63, some 5)] }
     Sparse.get noLr d.coh.lr 63 = some 5 ∧ Sparse.get noLr base.coh.lr 63 ≠ some 5) ∧
    (true && cboOpen base 63) = false ∧
    (let l := 0x6000000000 / 64
     paKind { base with variant := 4 } (l * 64) = .unfitted ∧ (l2Of base 63 l).st = .i) := by decide +kernel

/-- A message under way for core 63 on line 5, and a request of it. -/
def withMsg (c : Coh) (b : MsgBody) : Dev := devC { c with net := [⟨63, 5, b⟩], mshr := [⟨63, 5, .upg, none, false, false, false, false⟩] }

/-- O30: each message has reached its core; the core holds the line in each state, or nothing with a write-back under way. -/
theorem witness_CoreReplies :
    (∀ k ∈ [FwdKind.snpS, .snpX, .snpInv, .snpRecall, .snpClean], ∀ st ∈ [L2State.i, .s, .e, .o, .m],
      let d := withMsg (holds st) (.fwd k (some 62) false)
      findMsg d 63 5 (fun b => match b with | .fwd q _ _ => q == k | _ => false) = some ⟨63, 5, .fwd k (some 62) false⟩ ∧
        (l2Of d 63 5).st = st) ∧
    (let d := withMsg { coh0 with wbs := [⟨63, 5, 0, 0, false⟩], sent := [(5 * 64 + 63, 1)] } .wbAck
     findMsg d 63 5 (fun b => b == .wbAck) = some ⟨63, 5, .wbAck⟩ ∧
      d.coh.wbs.find? (fun w => w.core == 63 && w.line == 5) = some ⟨63, 5, 0, 0, false⟩ ∧ priorOf d 63 5 = 1) ∧
    (let d := withMsg (holds .s) (.comp .m none)
     findMsg d 63 5 (fun b => match b with | .comp _ _ => true | _ => false) = some ⟨63, 5, .comp .m none⟩ ∧
      mshrOf d 63 5 = some ⟨63, 5, .upg, none, false, false, false, false⟩ ∧ (l2Of d 63 5).st ≠ .i) ∧
    (let b := MsgBody.data 9#512 .m false true
     let d := withMsg coh0 b
     findMsg d 63 5 (fun z => match z with | .data _ _ _ _ => true | _ => false) = some ⟨63, 5, b⟩) ∧
    (let d := withMsg coh0 (.amoData 3#64 false)
     findMsg d 63 5 (fun b => match b with | .amoData _ _ => true | _ => false) = some ⟨63, 5, .amoData 3#64 false⟩) := by
  decide +kernel

/-- O31: a request whose turn has come with no copy anywhere, one that awaits a write-back, one behind an open transaction. -/
theorem witness_HomeRequests :
    (let m : CohMsg := ⟨63, 5, .req .rdS 0⟩
     let d := devC { coh0 with net := [m] }
     findMsg d 63 5 (fun b => match b with | .req k _ => k == .rdS | _ => false) = some m ∧ txnOn d 5 = none ∧
      openAt d (homeOf d 5) < 128 ∧ awaitsPrior d 5 63 0 = false ∧ firstInLine d 5 (.core 63) = true ∧ d.coh.defer = [] ∧
      d.coh.txns = [] ∧ d.coh.waiting = [] ∧ dirOf d 5 = {} ∧ inHand d 5 = false ∧ needsVictim d 5 .rdS = false) ∧
    (let d := devC { coh0 with dir := [4194309, 8388613, 12582917, 67371013, 71565317, 75759621, 79953925, 134742021, 138936325,
       143130629, 147324933, 202113029, 206307333, 210501637, 214695941, 269484037].map fun l => (l, soleOwner 1) }
     needsVictim d 5 .rdS = true ∧ victimOk d 5 4194309 = true ∧ victimOk d 5 6 = false) ∧
    (let m : CohMsg := ⟨63, 5, .req (.sc 7#512 1#64) 0⟩
     let d := devC { coh0 with net := [m, ⟨1, 5, .req .rdX 0⟩], defer := [(63, 5)], waiting := [(5, .core 1)] }
     findMsg d 63 5 (fun b => match b with | .req k _ => (match k with | .sc _ _ => true | _ => false) | _ => false) = some m ∧
      firstInLine (frontReq d 5 63) 5 (.core 63) = true ∧ breaksResv (dirOf d 5) (.sc 7#512 1#64) = true) ∧
    servedAs {} 63 .upg = .rdX ∧ servedAs { st := .ds, owner := 0, sharers := 1 } 0 .upg = .upg ∧
    awaitsPrior (devC { coh0 with dir := [(5, soleOwner 63)], net := [⟨63, 5, .evictClean⟩] }) 5 63 1 = true ∧
    (let t : Txn := ⟨5, .core 1, .rdX, none, [⟨5, 63, .snpX, false, false⟩], false, false, false⟩
     txnOn (devC { coh0 with txns := [t] }) 5 = some t) ∧
    breaksResv { st := .ds, owner := 0, sharers := 1 } .rdX = true ∧
    ((63, FwdKind.snpS) ∈ forwards { st := .d_o, owner := 63, sharers := 3 } (some 0) .rdS) ∧
    ((1, FwdKind.snpInv) ∈ forwards { st := .d_o, owner := 63, sharers := 3 } (some 0) .rdX) := by decide +kernel

/-- O32: each response, with its transaction open and with none; a write-back from the owner and from a core not named. -/
theorem witness_HomeResponses :
    (let n : Snoop := ⟨5, 63, .snpRecall, false, false⟩
     let t : Txn := ⟨5, .core 1, .amo 0 3 0 1, none, [n, ⟨5, 62, .snpInv, false, false⟩], false, false, false⟩
     let m : CohMsg := ⟨63, 5, .snpData 9#512 false⟩
     let d := devC { coh0 with txns := [t], net := [m] }
     txnOn d 5 = some t ∧ d.coh.txns = [t] ∧ t.line = 5 ∧ t.pend.erase n ≠ [] ∧
      findMsg d 63 5 (fun b => match b with | .snpData _ _ => true | _ => false) = some m ∧
      t.pend.find? (fun z => z.line == 5 && z.core == 63 && (z.kind == .snpRecall || z.kind == .snpClean) && !z.gone) = some n) ∧
    (let t : Txn := ⟨5, .core 63, .rdS, none, [], false, true, false⟩
     let d := devC { coh0 with txns := [t], net := [⟨63, 5, .compAck⟩] }
     findMsg d 63 5 (fun b => b == .compAck) = some ⟨63, 5, .compAck⟩ ∧
      d.coh.txns.find? (fun t => t.line == 5 && t.who == .core 63 && !t.acked) = some t) ∧
    (let m : CohMsg := ⟨63, 5, .wb 9#512 false .i⟩
     let d := devC { coh0 with dir := [(5, soleOwner 63)], net := [m] }
     findMsg d 63 5 (fun b => match b with | .wb _ _ _ => true | _ => false) = some m ∧ hasOwner (dirOf d 5) = true ∧
      (dirOf d 5).owner = 63 ∧ txnOn d 5 = none ∧ lineLost d 5 = false ∧ (farLine? d 5).isSome = true ∧
      wbAccepted (devC { coh0 with net := [m] }) 63 5 = false) ∧
    (let m : CohMsg := ⟨63, 5, .gone⟩
     let d := devC { coh0 with net := [m] }
     findMsg d 63 5 (fun b => b == .gone) = some m ∧ txnOn d 5 = none) := by decide +kernel

/-- A device table at the root: a 1 GiB leaf at index 0 of level 3's chain, held at the home of line 0. -/
def devTab : Dev :=
  { base with mem := { base.mem with lines := [
      (0, { valid := true, data := lineOf [0x1001#64] }), (0x1000 / 64, { valid := true, data := lineOf [0x2001#64] }),
      (0x2000 / 64, { valid := true, data := lineOf [0x1F#64] })] } }

/-- O33: a walk that ends in a leaf and one that ends in a cause, in hardware mode; a miss in host-assisted mode with a free
slot and with none; an invalidation that waits and one that is done; a fill answer for a waiting slot. -/
theorem witness_TranslationService :
    (selInst (.tile 0 179) < 64 ∧ cachedLeaf devTab (.tile 0 179) sp0 0x40 = none ∧ hostXlat devTab 0 = false ∧
      (walk devTab 0 sp0 0x40).stop = .leaf 0x1F#64 1 ∧ (walk base 0 sp0 0x40).stop = .cause 1 ∧
      outsideSpace devTab sp0 0x40 = false) ∧
    (let d := setReg base (fnOff 0) 1#32
     hostXlat d 0 = true ∧ (slotAt (xinst d 0) 0).waiting = false ∧
      (∀ k < 16, (slotAt { slots := (List.range 16).map fun i => (i, { waiting := true, va := 2 ^ 40 + i * 2 ^ 21 }) } k).waiting = true)) ∧
    (let d := buffered base (codeOff 0 0) 0xD#32 0xFFFFF#32
     cmdReady d (codeOff 0 0) = true ∧ invalOf d 0 = none) ∧
    (let v : Inval := ⟨false, 0, 0, 0, 0, [], [], [], [], []⟩
     invalOf (setInval base 0 (some v)) 0 = some v ∧ invDone base 0 v = true) ∧
    (let s : ReqSlot := { waiting := true, seq := 1, va := 0x40, space := sp0, acc := .read }
     let d := buffered { base with xl := { base.xl with inst := [(0, { slots := [(15, s)] })] } } (codeOff 1 0xA) 0x6001F#32 0xFFFFF#32
     let d := buffered (buffered d (codeOff 1 0xC) 0x1F#32 0xFFFFFFFF#32) (codeOff 1 0xD) 0#32 0xFFFFFFFF#32
     let f := applyField (applyPair d (codeOff 1 0xC)) (codeOff 1 0xA) (BitVec.allOnes 32)
     let v := regVal f (codeOff 1 0xA)
     cmdReady d (codeOff 1 0xA) = true ∧ slotAt (xinst d (codeInst 1)) (fld v 3 0) = s ∧ fld v 11 4 = s.seq ∧ bit v 12 = false ∧
      fillCause f sp0 (reg64 f (codeOff 1 0xC)) (fld v 19 18) s.va s.acc = 0) := by decide +kernel

/-! Witnesses: channels, convoys and peals. -/

/-- A package of which channel 47 is given; its host space 0 maps the first 2 MiB of the far tier for every access. -/
def devH (x : Channel) : Dev :=
  { base with ch := [(47, x)], xl := { base.xl with inst := [(63, { cache := [⟨true, 0, 0, 0, 21, 0xD7#64, 1⟩] })] } }

/-- A channel whose link is up and whose firmware runs, with convoy 8191 given. -/
def chan0 (v : Convoy) : Channel := { link := 2, fw := true, convoys := [(8191, v)] }

/-- A convoy in a state, its next PSN about to wrap, with every permission and a ring of 4 KiB at address 0. -/
def cv0 (st : ConvoyState) : Convoy :=
  { st := st, perm := 15, gbHi := 255, peer := 3, ip := 9, rcvNxt := 0xFFFFFFFF, ringExp := 12, maxOut := 4, cwnd := 64, retryLimit := 2,
    rto := 10 }

/-- A message of a type for convoy 8191, from its peer. -/
def msg0 (typ psn : Nat) (w2 w3 : Word64) (data : List Byte) : RxMsg :=
  ⟨{ ver := 1, typ := typ, cls := 1, ackreq := true, last := true, ecne := false, retx := false, dst := 8191, src := 0x70003,
     ackv := false, psn := psn, ack := 0, w2 := w2, w3 := w3, data := data }, 9, false, []⟩

/-- How the performance of a message ends: 0 it waits, 1 NAK, 2 done, 3 later. -/
def performs : Perform → Nat
  | .wait => 0
  | .nak _ _ _ => 1
  | .done _ _ => 2
  | .later _ => 3

/-- How a message of a type ends for an open convoy of channel 47. -/
def ends (v : Convoy) (r : RxMsg) : Nat := performs (performMsg [] false (readOut (acceptMsg (devH (chan0 v)) 47 8191 r) 47 r) 47 8191 r)

/-- Bytes of a geometry of one row of 64 bytes at address 0x40. -/
def geo0 : List Byte := leBytes 8 0x40 ++ leBytes 8 0x1000100000040 ++ leBytes 16 0

/-- O34: for each type a message that is read and has room; in sequence, done; refused; handed out; held; early and late. -/
theorem witness_SequencedReception :
    (∀ e ∈ [msg0 1 0xFFFFFFFF 0 0 [1#8], msg0 2 0xFFFFFFFF 0x40 0 [1#8], msg0 3 0xFFFFFFFF 0 0 geo0, msg0 5 0xFFFFFFFF 0x200000000000040 0 [1#8, 0#8, 0#8, 0#8],
        msg0 6 0xFFFFFFFF 7 1 [], msg0 7 0xFFFFFFFF 0x10FFF 0 [], msg0 8 0xFFFFFFFF 0 0 geo0],
      let d := devH (chan0 (cv0 .open_))
      readable d 47 e.m.typ e = true ∧ e.m.ackv = false ∧ e.ce = false ∧ (e.m.typ = 6 → w2f e.m 18 17 ≠ 3) ∧
        (convoyOf d 47 8191).st = .open_ ∧ fromPeer d 47 (convoyOf d 47 8191) e = true ∧
        rqUsed d 47 e.m.cls + msgWords e.m ≤ rqCap e.m.cls ∧ e.m.psn = (convoyOf d 47 8191).rcvNxt ∧
        (convoyOf d 47 8191).held = [] ∧
        ends (cv0 .open_) e = (if e.m.typ = 5 then 3 else if e.m.typ = 7 then 1 else 2) ∧
        ends { cv0 .open_ with perm := 0 } e = (if e.m.typ = 1 then 2 else 1)) ∧
    ((cv0 .error).st ≠ .open_ ∧ (cv0 .error).st ≠ .closing ∧ (cv0 .closing).st = .closing) ∧
    fromPeer (devH (chan0 (cv0 .open_))) 47 { cv0 .open_ with ip := 8 } (msg0 1 0 0 0 []) = false ∧
    (let d := devH { chan0 (cv0 .open_) with reserved := [(1, rqCap 1)] }
     rqCap 1 < rqUsed d 47 1 + msgWords (msg0 1 0xFFFFFFFF 0 0 [1#8]).m ∧
      ends { cv0 .open_ with ringTail := 64, ringHead := 0 } (msg0 1 0xFFFFFFFF 0 0 [1#8]) = 0) ∧
    (∃ q ∈ { cv0 .open_ with held := [⟨msg0 1 0 0 0 [], false, false, false⟩] }.held, q.reduce = false ∨ inOrder 5 = true) ∧
    (inOrder 1 = true ∧ { cv0 .open_ with held := [⟨msg0 5 0 0 0 [], true, false, false⟩] }.held ≠ []) ∧
    (psnBefore 0xFFFFFFFE (cv0 .open_).rcvNxt = true ∧ psnBefore 0x7FFFFFFF (cv0 .open_).rcvNxt = true ∧
      psnBefore 0 (cv0 .open_).rcvNxt = false ∧ (cv0 .open_).nakAt = none) := by decide +kernel

/-- A message to send: a SEND of 8,192 bytes, a WRITE read from the far tier, a GONG. -/
def tx0 (typ : Nat) (src : List (Nat × Nat)) (data : List Byte) : TxRec :=
  { msg := { (msg0 typ 0 0 0 data).m with cls := 0 }, owner := .none, src := src }

/-- O35: messages that may be sent by an OPEN convoy and by a CLOSING one; an OPENING convoy; the raw convoy. -/
theorem witness_ConvoySends :
    (∀ st ∈ [ConvoyState.open_, .closing], ∀ r ∈ [tx0 1 [] [], tx0 2 [(0x40, 64)] [], tx0 6 [] []],
      let d := devH (chan0 { cv0 st with sendq := [r], sndNxt := 0xFFFFFFFF, txCredit := 64 })
      (convoyOf d 47 8191).sendq = [r] ∧ (convoyOf d 47 8191).st = st ∧ recsHeld d 47 < recPool ∧ maySendMsg d 47 8191 r = true) ∧
    (convoyOf (devH (chan0 (cv0 .opening))) 47 8191).st = .opening ∧
    (let d := devH { link := 2, fw := true, convoys := [(0, cv0 .open_)] }
     (convoyOf d 47 0).st = .open_ ∧ isDirect d 47 = false ∧ linkUp d 47 = true) := by decide +kernel

/-- A package whose channel 47 uses direct framing. -/
def direct (x : Channel) : Dev := setReg (devH x) (chnOff 47 0) 3#32

/-- O36: control messages on convoys in the states that they meet. -/
theorem witness_ControlReception :
    (∀ e ∈ [(0xA, ConvoyState.opening), (0xB, .open_), (0xC, .closing), (0xE, .open_), (0x14, .open_), (0x15, .open_), (0x4, .open_), (0xD, .open_)],
      let d := devH (chan0 (cv0 e.2))
      let r := msg0 e.1 0 0xFFFFFFFF 0 []
      let v := convoyOf d 47 8191
      readable d 47 e.1 r = true ∧ v.st = e.2 ∧ v.st ≠ .closed ∧ fromPeer d 47 v r = true ∧ r.m.ackv = false ∧ r.ce = false ∧
        fwRuns d 47 = true ∧ w2f r.m 31 0 = v.rcvNxt ∧ w2f (msg0 e.1 0 0 0 []).m 31 0 ≠ v.rcvNxt) ∧
    (let r := msg0 9 0 0xFFFFFFFF 0 []
     readable (devH (chan0 (cv0 .opening))) 47 9 r = true ∧ fromPeer base 47 (cv0 .opening) r = true ∧
      (convoyOf (devH { chan0 {} with convoys := [] }) 47 8191).st = .closed ∧ { base with evac := true }.evac = true) ∧
    (∀ k ∈ [1, 2, 3, 6, 7, 15], w2f (msg0 0xE 0 (BitVec.ofNat 64 (k + 5 * 2 ^ 32)) 0 []).m 3 0 = k) ∧
    unacked { cv0 .open_ with recs := [tx0 1 [] []] } ≠ [] ∧
    (let d := direct (chan0 (cv0 .open_))
     readable d 47 0xF (msg0 0xF 0 0 0xFFFF000000010000#64 []) = true ∧ isDirect d 47 = true) ∧
    (chanOf (devH { chan0 (cv0 .open_) with probe := some ⟨8191, 0x40, 0⟩ }) 47).probe = some ⟨8191, 0x40, 0⟩ ∧
    (let q : TxRec := { tx0 3 [(0x40, 64), (0x80, 64)] geo0 with owner := .move ⟨0, 5⟩, left := 128 }
     let r := msg0 4 0 0 0x40 (List.replicate 64 7#8)
     let v := convoyOf (devH (chan0 { cv0 .open_ with recs := [q] })) 47 8191
     v.recs.find? (fun q => q.msg.typ == 3 && q.msg.psn == r.m.psn && fld q.msg.w2 31 0 == w2f r.m 31 0) = some q ∧
      badData r = false ∧ q.got.contains (fld r.m.w3 31 0) = false ∧ min r.m.data.length q.left < q.left) := by decide +kernel

/-- O37: frames at their bounds, links in each state, timers due, convoys at and past their retry limit. -/
theorem witness_LinkTimersAndFrames :
    (let d := devH { link := 2, fw := true, convoys := [(0, cv0 .open_)] }
     let n := fun k => performs (ringRecord d 47 0 1 k false false 0 0 0 (List.replicate k 1#8))
     linkUp d 47 = true ∧ isDirect d 47 = false ∧ (convoyOf d 47 0).st = .open_ ∧ n 60 = 2 ∧ n 4218 = 0 ∧
      performs (ringRecord { d with xl := base.xl } 47 0 1 60 false false 0 0 0 (List.replicate 60 1#8)) = 1 ∧
      isCtpFrame (chanMac d 47) (chanIp d 47) (regFld d (chnOff 47 0xC) 15 0) (List.replicate 60 1#8) = false ∧
      (convoyOf (devH (chan0 (cv0 .open_))) 47 0).st ≠ .open_) ∧
    { cv0 .open_ with ackDue := true }.ackDue = true ∧
    (let d := direct { chan0 (cv0 .open_) with freed := [(1, 0xFFFF)] }
     isDirect d 47 = true ∧ linkUp d 47 = true ∧ (chanOf d 47).freed ≠ (chanOf d 47).reported ∧ ∀ k < 4, Sparse.get zeroCnt (chanOf d 47).freed k < 2 ^ 16) ∧
    ({ cv0 .open_ with recs := [tx0 1 [] []] }.recs.find? (fun r => !r.acked || r.left != 0) = some (tx0 1 [] []) ∧
      (cv0 .open_).host = false ∧ { cv0 .open_ with host := true }.askedTo = false) ∧
    ({ cv0 .opening with tries := 2 }.tries ≤ (cv0 .opening).retryLimit ∧ (cv0 .opening).retryLimit < { cv0 .opening with tries := 3 }.tries ∧
      unacked (cv0 .closing) = [] ∧ (cv0 .closing).sendq = []) ∧
    (let d := direct { link := 1, fw := true }
     fwRuns d 47 = true ∧ chanEnabled d 47 = true ∧ (chanOf d 47).link = 1 ∧ (chanOf d 47).convoys = [] ∧ (chanOf base 47).link = 0) := by
  decide +kernel

/-- CHN.CMD of channel 47 with an op on a convoy and an argument waiting. -/
def cmd47 (op idx : Nat) (arg : Word32) (d : Dev) : Dev :=
  buffered (buffered (buffered d (chnOff 47 2) (BitVec.ofNat 32 (idx + op * 2 ^ 13 + 2 ^ 17)) 0x3FFFF#32) (chnOff 47 3) arg 0xFFFFFFFF#32)
    (chnOff 47 4) 0#32 0xFFFFFFFF#32

/-- What an op of CHN.CMD sees once its fields are applied. -/
def cmdSeen (d : Dev) : Dev := applyField (applyPair d (chnOff 47 3)) (chnOff 47 2) (BitVec.ofNat 32 (2 ^ 32 - 1))

/-- O38: each op of CHN.CMD taken; an argument that is usable and one that is not; images that are good and that are not;
the states of the convoy that each op distinguishes. -/
theorem witness_ChannelCommands :
    (∀ op < 11, let d := cmd47 op 8191 0x80#32 (devH (chan0 (cv0 .open_)))
      fwRuns d 47 = true ∧ cmdPending d (chnOff 47 2) = true ∧ fld (bufferedVal d (chnOff 47 2)) 16 13 = op ∧
        regFld (cmdSeen d) (chnOff 47 2) 12 0 = 8191 ∧ (convoyOf (cmdSeen d) 47 8191).st = .open_ ∧ linkUp (cmdSeen d) 47 = true ∧
        argOk (cmdSeen d) (chanPart (cmdSeen d) 47) (reg64 (cmdSeen d) (chnOff 47 3)).toNat 128 32 = true ∧
        argOk (cmdSeen d) (chanPart (cmdSeen d) 47) 0x41 128 32 = false) ∧
    ((cv0 .closed).st = .closed ∧ (cv0 .error).st = .error) ∧
    (let f := setReg (devH { link := 2, fw := true }) (hxOff 0 2) 0x20#32
     let raw := fun i => if i = 7 then 12 * 2 ^ 57 else 0
     let img := fun i => (convoyImage (cv0 .closed)).getD i 0
     f.evac = false ∧ openOk f 47 8191 img = true ∧ openOk f 47 0 img = false ∧ openOk f 47 0 raw = true) ∧
    ((cv0 .open_).recs.all (·.spilled) = true ∧ { cv0 .open_ with recs := [tx0 1 [] []] }.recs.all (·.spilled) = false) ∧
    (let g := devH (chan0 { cv0 .open_ with recs := [tx0 1 [] []] })
     (spillConvoy (setReg g (chnOff 47 0x10) 12#32) 47 8191).isSome = true ∧ spillConvoy g 47 8191 = none) := by decide +kernel

/-- The descriptor of peal 7, epoch 9: node 11 at depth d of 2, with a parent on the convoy of `cv0` or none, child 0 on it
or on another convoy, strike and abort gongs 7 and 8. -/
def peal0 (parent child : Bool) : List Word64 :=
  let c := 47 * 8192 + 8191
  [BitVec.ofNat 64 (7 + 9 * 2 ^ 32), BitVec.ofNat 64 (11 + (if parent then 1 else 0) * 2 ^ 16 + 2 * 2 ^ 24), 0#64,
    BitVec.ofNat 64 (if parent then c + 2 ^ 19 else 0), BitVec.ofNat 64 (7 + 2 ^ 17 + (8 + 2 ^ 17) * 2 ^ 18), 0x40#64, 0#64, 0#64,
    BitVec.ofNat 64 ((if child then c else c - 1) + 2 ^ 19 + 12 * 2 ^ 32)] ++ List.replicate 23 0#64

/-- A slot in a state that holds this peal. -/
def slot0 (st : Nat) (parent child : Bool) : PealSlot := { state := st, words := peal0 parent child }

/-- A package with slot 15 given and channel 47 as before. -/
def devP (x : PealSlot) : Dev := { devH (chan0 (cv0 .open_)) with peal := [(15, x)] }

/-- A peal message of a type and epoch. -/
def peal1 (typ epoch late : Nat) : RxMsg :=
  msg0 typ 0xFFFFFFFF 0 0 (pealBody 7 epoch 12 0 0 1 0 late 0 0)

/-- O39: each message of its epoch and of another, for slots in the states that it distinguishes, with and without a parent;
a strike whose time is its last, and one that comes too late. -/
theorem witness_PealMessages :
    (∀ typ ∈ [0x10, 0x11, 0x12, 0x13], ∀ st ∈ [1, 2, 3, 4], ∀ epoch ∈ [9, 8],
      let d := devP (slot0 st true true)
      let r := peal1 typ epoch 0
      let e := readOut (acceptMsg d 47 8191 r) 47 r
      readable d 47 typ r = true ∧ r.m.ackv = false ∧ r.ce = false ∧ (convoyOf d 47 8191).st = .open_ ∧
        fromPeer d 47 (convoyOf d 47 8191) r = true ∧
        rqUsed d 47 r.m.cls + msgWords r.m ≤ rqCap r.m.cls ∧ r.m.psn = (convoyOf d 47 8191).rcvNxt ∧
        pealSlot? e r = some 15 ∧ pealToHost e 47 typ (some 15) = false ∧ (pealOf e 15).state = st ∧
        sameEpoch (pealOf e 15) r = (epoch == 9)) ∧
    (hasParent (slot0 1 true true) = true ∧ parentConvoy (slot0 1 true true) = (47, 8191)) ∧
    ((pealChildren (slot0 2 false true)).find? (fun i => childConvoy (slot0 2 false true) i == (47, 8191)) = some 0 ∧
      (pealChildren (slot0 2 false false)).find? (fun i => childConvoy (slot0 2 false false) i == (47, 8191)) = none ∧
      pealAt (peal1 0x11 9 0) 10 1 = 0) ∧
    (pealAt (peal1 0x12 9 2176) 20 4 = 2176 ∧ (pealDepth (slot0 3 true true)) = (1, 2) ∧ (slot0 3 true true).due = none) := by
  decide +kernel

/-- PEAL.CMD of slot 15 with an op on the convoy of `cv0` and an argument waiting. -/
def cmd15 (op : Nat) (arg : Word32) (x : PealSlot) : Dev :=
  let d := buffered (devP x) (pealOff 15 0) (BitVec.ofNat 32 (op + 8 + (47 * 8192 + 8191) * 2 ^ 6)) 0x1FFFFFF#32
  buffered (buffered d (pealOff 15 1) arg 0xFFFFFFFF#32) (pealOff 15 2) 0#32 0xFFFFFFFF#32

/-- What an op of PEAL.CMD sees once its fields are applied. -/
def pealSeen (d : Dev) : Dev := applyField (applyPair d (pealOff 15 1)) (pealOff 15 0) allBits

/-- O40: each op taken in each state; an address that is usable and ones that are not; a descriptor that fits and one that
does not; an image to send; an action that is due; a hold that has passed. -/
theorem witness_PealCommandsAndTimers :
    (∀ op ∈ [1, 2, 3, 4, 5], ∀ st ∈ [0, 1, 2, 3], ∀ p ∈ [true, false],
      let d := cmd15 op 0x100#32 (slot0 st p true)
      let f := pealSeen d
      cmdPending d (pealOff 15 0) = true ∧ fld (bufferedVal d (pealOff 15 0)) 2 0 = op ∧ (pealOf d 15).state = st ∧
        hasParent (pealOf d 15) = p ∧ argOk f 0 (reg64 f (pealOff 15 1)).toNat 256 64 = true ∧
        regFld f (pealOff 15 0) 24 6 = 47 * 8192 + 8191 ∧ takesTx f (47, 8191) = true) ∧
    argOk (pealSeen (cmd15 1 0x20#32 {})) 0 0x20 256 64 = false ∧
    (let f := pealSeen (cmd15 1 0x100#32 {})
     pealFits f (slot0 1 true true) = true ∧ pealFits f (slot0 1 false true) = true ∧
      pealFits f { state := 1, words := (peal0 true true).set 1 0#64 } = false) ∧
    (let d := pealSeen (cmd15 5 0x100#32 {})
     let d := { d with mem := { d.mem with lines := [(4, { valid := true, data := lineOf [0x131#64] })] } }
     valAt d 0x100 8 / 16 % 64 = 0x13) ∧
    ((pealOf (devP { slot0 3 true true with due := some 5 }) 15).due = some 5 ∧ pealFld (slot0 3 true true) 4 17 17 = 1 ∧
      (slot0 3 true true).due = none) := by decide +kernel

/-! Witnesses: clocks, power, ports, service, identity, management, trace. -/

/-- A package whose power record is given. -/
def devW (p : Power) : Dev := { base with pw := p }

/-- `base`'s power record. -/
def pw0 : Power := base.pw

/-- A package in a power state. -/
def inState (n : Nat) (d : Dev) : Dev := setRegFld d (pwrOff 1) 6 4 n

/-- O41: a reference present; dies locked and stopped; a direct link that is up; classes not yet saturated. -/
theorem witness_ReferenceAndLevels :
    regFld base (clkOff 4 0) 3 3 ≠ 1 ∧ regFld (setReg base (clkOff 0 0) 8#32) (clkOff 0 0) 3 3 = 1 ∧ 4 ∈ dies base ∧ 3 ∈ dies base ∧
    4 ∉ base.pw.stopped ∧ ((chanOf (direct { link := 2, fw := true }) 47).link = 2 ∧ isDirect (direct { link := 2, fw := true }) 47 = true) ∧
    regFld base (lvlOff 3 1) 3 3 = 0 := by decide +kernel

/-- O42: a sample of VIN; charges to the last queue and partition; fits at their bounds. -/
theorem witness_TelemetryAndEstimates :
    (let l : List RailSample := [⟨12, 1200, 5000, 300⟩, ⟨0, 750, 100, 60⟩]
     (l.map (·.rail)).Nodup ∧ ∀ x ∈ l, x.rail < 13) ∧
    (4 ∈ dies base ∧ (∀ x ∈ (⟨[(4095, 7)], [(15, 3)], 2⟩ : Charges).queues, x.1 < 4096) ∧
      (∀ x ∈ (⟨[(4095, 7)], [(15, 3)], 2⟩ : Charges).parts, x.1 < 16) ∧ base.rg.votes = []) ∧
    (let l : List RailFit := [⟨0, 12288, -5, true⟩, ⟨1, 12287, 0, true⟩, ⟨2, 21790, 0, true⟩, ⟨11, 21791, 0, true⟩]
     powered base = true ∧ (l.map (·.rail)).Nodup ∧ (∀ x ∈ l, x.rail < 12) ∧ 100 * 21790 ≤ 133 * 16384 ∧ 133 * 16384 < 100 * 21791) := by decide +kernel

/-- O43: detectors at their bounds, no critical limit yet, a powered package, a rail with phases left. -/
theorem witness_FastLimits :
    4 ∈ dies base ∧ 3 < detectors 4 ∧ 7 < detectors 0 ∧ base.pw.crit = false ∧ (base.pw.change = none → base.pw.next = none) ∧
    powered base = true ∧ railLost base 11 < (railTable 11).1 := by decide +kernel

/-- O44: the package powered and not, VIN in each range, a brace open and none, each end action. -/
theorem witness_SupplyTrouble :
    (powered base = true ∧ base.pw.on = true ∧ base.pw.brace = none ∧ base.pw.aux = true) ∧
    (powered State.reset.dev = false ∧ State.reset.dev.pw.aux = true ∧ State.reset.dev.pw.vin = .normal ∧ State.reset.dev.pw.on = false) ∧
    (∀ r ∈ [VinRange.normal, .low, .sag, .high], { State.reset.dev.pw with vin := r }.vin = r) ∧
    (let b : Brace := ⟨false, true, true⟩
     ∀ a ∈ [0, 1, 2], ∀ st ∈ [0, 1, 4],
      let d := inState st (setRegFld (devW { pw0 with brace := some b }) (pwrOff 3) 29 28 a)
      d.pw.brace = some b ∧ b.window = true ∧ regFld d (pwrOff 3) 29 28 = a ∧ pwrState d = st) := by decide +kernel

/-- O45: each target buffered in each state; an idle tile before the last; states with and without work. -/
theorem witness_PowerStates :
    (∀ t ∈ [0, 1, 2], ∀ st ∈ [0, 1, 2, 3, 4],
      let d := buffered (inState st base) (pwrOff 1) (BitVec.ofNat 32 t) 3#32
      let b := boundary d (offInstance (pwrOff 0)) stateBits
      targetWaits d = true ∧ regFld b (pwrOff 1) 1 0 = t ∧ pwrState b = st) ∧
    pwrState (inState 5 base) = 5 ∧
    (let d := inState 3 base
     pwrState d = 3 ∧ cdFitted d.variant 3 = true ∧ (tileOf d 3 179).blocks = [] ∧ movesTouch d 3 179 = false ∧
      allRetained (setTile d 3 179 { tileOf d 3 179 with retention := true }) = false) ∧
    (let d := inState 3 { base with variant := 4, tiles := ((List.range 180).map fun t => (t, ({ retention := true } : Tile))) ++
        ((List.range 179).map fun t => (tileKey 1 t, ({ retention := true } : Tile))) }
     (tileOf d 1 179).retention = false ∧ cdFitted d.variant 1 = true ∧
      allRetained (setTile d 1 179 { tileOf d 1 179 with retention := true }) = true) ∧
    pwrState (inState 4 base) = 4 ∧
    (pwrState (inState 2 base) = 2 ∧ chanState (inState 2 base) 3 127 ≤ 1) ∧
    (pwrState base = 0 ∧ busy base = false ∧ busy (devT (tileG grp0 [])) = true) := by decide +kernel

/-- A control step's readings: predictions that fall with the setting. -/
def load0 : StepLoad :=
  { estimate := 3000, mean := 3000, windowEnd := true, pred := (List.range 64).map fun i => 4000 - 50 * i, parts := [],
    amps := [], temps := [], vinSteady := true }

/-- O46: a step that lowers, one that reaches the floor, one that ends a brace; a change in each stage. -/
theorem witness_GovernorSteps :
    (let d := setRegFld base (pwrOff 0) 12 0 2500
     let b := (stepStart d load0).1
     (b.pw.change = none → b.pw.next = none) ∧ hostPower b = false ∧ limits b load0 (stepStart d load0).2 = [] ∧
      b.pw.why.testBit 7 = false ∧ effectiveCap b < predOf load0 (present b) ∧ (asked b load0).2.2 = false) ∧
    (let d := setRegFld base (pwrOff 0) 12 0 600
     let b := (stepStart d load0).1
     (asked b load0).2.2 = true ∧ b.pw.why.testBit 7 = false) ∧
    (let d := devW { pw0 with brace := some ⟨false, true, false⟩ }
     d.pw.brace.isSome = true ∧ d.pw.holdup = false ∧ d.pw.vin = .normal ∧ load0.vinSteady = true) ∧
    (∀ g ∈ [ChangeStage.rising, .ready, .gap], (devW { pw0 with change := some ⟨1, 16, g⟩ }).pw.change = some ⟨1, 16, g⟩) ∧
    (devW { pw0 with change := some ⟨1, 16, .gap⟩, next := some (2, 16) }).pw.next = some (2, 16) ∧
    cdFitted base.variant 3 = true := by decide +kernel

/-- A package with some ports given. -/
def devD (ps : List (Nat × Port)) : Dev := { base with ports := ps }

/-- The HD's port 3 and N-port of CD 0, both in traffic. -/
def ports0 (p : Port) : Dev := devD ((List.range 20).filterMap fun k =>
  if k = portKey 4 3 ∨ k = portKey 0 1 then some (k, p) else none)

/-- O47: an UP port with every bundle, one with four, one with all spares of a bundle taken, a wire at its fourth
mismatch, wires at the bounds. -/
theorem witness_PortTraffic :
    (∀ p ∈ [(4, 3), (0, 1)], isPort base p.1 p.2 = true ∧
      ∀ x ∈ [({ state := 2, good := 255 } : Port), { state := 3, good := 15 }], portOf (ports0 x) p.1 p.2 = x) ∧
    (let d := ports0 { state := 2, good := 255, miss := [(7 * 256 + 137, 3)] }
     let x := portOf d 0 1
     let f := applyField (setPort d 0 1 (switchSpares x)) (d2dOff 0 1 1) 0xFF8
     137 < bundleWires 0 1 ∧ (bundlesUp f 0 1).testBit 7 = true ∧ Sparse.get zeroOf x.miss (7 * 256 + 137) + 1 = 4 ∧
      popNat 8 (sparesTaken (switchSpares x) 7) + waitingOf (switchSpares x) 7 < 8 ∧
      popNat 8 (sparesTaken { state := 2, spares := [(7, 255)] } 7) = 8 ∧
      popNat 8 (sparesTaken { state := 2, spares := [(7, 15)] } 7) + waitingOf { waiting := [(7, 0), (7, 1), (7, 2), (7, 3)] } 7 = 8 ∧
      portUp d (peerPort 0 1).1 (peerPort 0 1).2 = false ∧
      (let y : Port := { state := 2, good := 255, todo := [(7, 5, 0), (7, 6, 1)] }
       let e := devD [(portKey 0 1, y), (portKey 1 1, { state := 3, good := 255 })]
       dueSteers (portOf e 0 1) = [(7, 5, 0)] ∧ portUp e (peerPort 0 1).1 (peerPort 0 1).2 = true) ∧
      regFld f (d2dOff 0 1 1) 3 3 = 1 ∧ regFld (setRegFld f (d2dOff 0 1 1) 3 3 0) (d2dOff 0 1 1) 3 3 = 0 ∧ (7, 137) ∉ x.waiting) := by
  decide +kernel

/-- O48: DOWN ports of locked dies that face a die and an empty site; versions that meet and that do not; the third
attempt; buffered bits of D2D.CTRL; a steering. -/
theorem witness_PortTraining :
    (let f := relock base 0
     (portOf f 0 0).state = 0 ∧ regFld (setRegFld f (clkOff 0 0) 2 2 1) (clkOff 0 0) 2 2 = 1 ∧ facesEmpty f 0 0 = false) ∧
    (isPort { base with straps := 7 } 4 3 = true ∧ facesEmpty { base with straps := 7 } 4 3 = true) ∧
    (portOf (ports0 { state := 1, attempts := 3 }) 4 3).state = 1 ∧
    (let i : Ident := ⟨1, 1, 1, 1, 2⟩
     i.lo ≤ min i.hi i.peerHi ∧ i.peerLo ≤ min i.hi i.peerHi ∧ min 1 2 < (⟨1, 1, 2, 2, 2⟩ : Ident).peerLo) ∧
    ((ports0 { state := 1 }).ports ≠ [] ∧ (portOf (ports0 { state := 1 }) 4 3).errs = [] ∧ pickSpare 0 7 = 7) ∧
    (ctrlWaits (buffered base (d2dOff 4 3 1) 0#32 3#32) 4 3 3 = true ∧ ctrlWaits (buffered base (d2dOff 4 3 1) 4#32 4#32) 4 3 4 = true ∧
      regFld (applyCtrl (buffered base (d2dOff 4 3 1) 1#32 3#32) 4 3 3) (d2dOff 4 3 1) 1 0 = 1 ∧
      regFld (applyCtrl (buffered base (d2dOff 4 3 1) 4#32 4#32) 4 3 4) (d2dOff 4 3 1) 2 2 = 1) ∧
    (let d := buffered base (d2dOff 4 3 3) 0x3FFF#32 0x3FFF#32
     (regBuf d (d2dOff 4 3 3)).mask ≠ 0 ∧ cmdPending d (d2dOff 4 3 3) = false) ∧
    (facesLoop (ports0 { state := 1 }) 4 3 = false ∧
      facesLoop (devD [(portKey 3 0, { state := 4 }), (portKey 4 3, { state := 1 })]) 4 3 = true) ∧
    (regBuf (buffered base (d2dOff 4 3 1) 0#32 3#32) (d2dOff 4 3 1)).mask &&& 3#32 ≠ 0#32 ∧
    (regFld (applyField (buffered base (d2dOff 4 3 1) 1#32 3#32) (d2dOff 4 3 1) 3) (d2dOff 4 3 1) 1 0 = 1) ∧
    (regBuf (buffered base (d2dOff 4 3 1) 4#32 4#32) (d2dOff 4 3 1)).mask &&& 4#32 ≠ 0#32 ∧
    cmdPending (buffered base (d2dOff 4 3 3) 0x7FFF#32 0x7FFF#32) (d2dOff 4 3 3) = true := by decide +kernel

/-- O49: heartbeats from a live and from a silent die; a sentry at 16 that holds its peer up, on each kind of port; a CD
that may rejoin. -/
theorem witness_LossAndReturnOfADie :
    (isPort base 0 1 = true ∧ peerPort 0 1 = (1, 1) ∧ isPort base 1 1 = true ∧ silent base 1 = false ∧ silent base 0 = false ∧
      silent (devW { pw0 with stopped := [0] }) 0 = true) ∧
    (∀ p ∈ [(4, 3), (0, 0), (0, 1)],
      let d := setReg base (sentOff p.1 p.2 0) 0x21#32
      isPort d p.1 p.2 = true ∧ regFld d (sentOff p.1 p.2 0) 0 0 = 1 ∧ silent d p.1 = false ∧ regFld d (sentOff p.1 p.2 0) 5 1 = 16 ∧
        d.mem.lost = [] ∧ d.mem.cut = []) ∧
    (let d := { devD [(portKey 3 0, { state := 2, good := 255 }), (portKey 4 3, { state := 3, good := 127 })] with
       pw := { pw0 with stopped := [3] } }
     cdFitted d.variant 3 = true ∧ 3 ∈ d.pw.stopped ∧ portUp d 3 0 = true ∧ portUp d 4 3 = true) ∧ powered base = true := by
  decide +kernel

/-- O50: drifts at their bounds; a failed active tile with a free spare and with none, in both modes; a greatest and a least
drift a margin apart; a swap of a free tile. -/
theorem witness_WearAndSwaps : powered base = true ∧
    (let l : List Drift := [⟨0, 0xFFFF, false⟩, ⟨191, 5, true⟩]
     (l.map (·.tile)).Nodup ∧ ∀ x ∈ l, x.tile < 192) ∧
    (let x : Drift := ⟨5, 0xFFFF, false⟩
     wearState base 3 5 = 0 ∧ 10 * regFld base (wearOff 3 0) 23 16 ≤ x.drift ∧ base.sv.failed = [] ∧ hostSpare base 3 = false ∧
      hostSpare (setRegFld base (fnOff 3) 9 9 1) 3 = true ∧ swapsOf base 3 = [] ∧
      leastDrift base 3 (freeSpares base 3) = some 180 ∧ leastDrift base 3 [] = none ∧ wearLogical base 3 5 = 5) ∧
    (let d := setRegFld (setRegFld base (wearTile 3 5) 15 0 500) (wearTile 3 181) 15 0 0
     let d := ((List.range 12).foldl (fun d i => if i = 1 then d else setRegFld d (wearTile 3 (180 + i)) 15 0 100) d)
     let b := boundary (boundary d (offInstance (wearOff 3 0)) wearCtrlBits) (offInstance (fnOff 3)) spareBits
     let active := (tilesIn b 3 0).filter fun p => !swapWaits b 3 (wearLogical b 3 p)
     hostSpare b 3 = false ∧ 5 ∈ active ∧ (∀ x ∈ active, wearDrift b 3 x < wearDrift b 3 5 ∨ x = 5) ∧ 181 ∈ freeSpares b 3 ∧
      (∀ x ∈ freeSpares b 3, wearDrift b 3 181 < wearDrift b 3 x ∨ x = 181) ∧
      wearDrift b 3 181 + regFld b (wearOff 3 0) 15 8 ≤ wearDrift b 3 5) ∧
    (let d := buffered (setRegFld base (fnOff 3) 9 9 1) (wearOff 3 2) 0x1BFB3#32 0x1FFFF#32
     let f := applyField d (wearOff 3 2) allBits
     let g := setRegFld f (wearOff 3 2) 16 16 0
     cmdPending d (wearOff 3 2) = true ∧ regFld f (wearOff 3 2) 7 0 = 179 ∧ regFld f (wearOff 3 2) 15 8 = 191 ∧
      holderOf g 3 179 = some 179 ∧ hostSpare g 3 = true ∧ swapWaits g 3 179 = false ∧ 191 ∈ freeSpares g 3) ∧
    (let w : Swap := ⟨179, 191, true⟩
     let d := setSwaps base 3 [w]
     (swapsOf d 3).find? (fun w => w.logical == 179) = some w ∧ holderOf d 3 179 = some 179 ∧ tileFree d 3 179 = true ∧
      tilePart (boundary d (offInstance (tgOff 3 179 0)) tilePartBits) 3 179 = tilePart d 3 179) := by decide +kernel

/-- O51: a CD whose next channel in turn is the last; a retrain of it, first and second; sensors at the bounds; a package that
is evacuated; a trend with a frame in reserve and with none. -/
theorem witness_BackgroundWork : powered base = true ∧
    (let d := { base with sv := { base.sv with turn := [(3, 127)] } }
     cdFitted d.variant 3 = true ∧ regFld d (bgOff 3 0) 7 7 = 0 ∧ pwrState d ≠ 2 ∧ 127 < ftCount d.variant ∧ chanState d 3 127 = 0 ∧
      ∀ j < 128, ¬ (j + ftCount d.variant - 127 % ftCount d.variant) % ftCount d.variant <
        (127 + ftCount d.variant - 127 % ftCount d.variant) % ftCount d.variant) ∧
    (let d := setReg (setChan base 3 127 1) (bgOff 3 0) 0xFF#32
     regFld d (bgOff 3 0) 7 7 = 1 ∧ regFld d (bgOff 3 0) 6 0 = 127 ∧ chanState d 3 127 = 1) ∧
    (4 ∈ dies base ∧ Sparse.get zeroCnt { base.sv with good := [(4 * 32 + 15, 2)] }.good (4 * 32 + 15) = 2 ∧
      regFld (setRegFld base bootOff 9 9 1) bootOff 9 9 = 1 ∧ regFld base bootOff 9 9 = 0) ∧
    (let b := boundary { base with evac := true } (offInstance (fnOff 5)) recoveryBits
     b.evac = true ∧ b.sv.evacTold = false ∧ b.ch = [] ∧ votedBits (qOff 0 2) ≠ 0 ∧ dieHeard b (offDie (qOff 0 2)) = true) ∧
    (let b := boundary base (offInstance (fnOff 5)) recoveryBits
     chanState b 3 127 < 3 ∧ b.evac = false ∧ regFld b (fnOff 5) 7 7 = 0 ∧ reservedFrame b 3 = none) ∧
    (let b := boundary (setRegFld base (ftOff 3 0) 4 0 1) (offInstance (fnOff 5)) recoveryBits
     reservedFrame b 3 = some 127 ∧ mapoutOk b 3 127 127 = true) := by decide +kernel

/-- An image of component c with version 0, an empty body, and the bytes of its signature and the rest of its header. -/
def image0 (c : Nat) (sign : List Byte) : List Byte :=
  leBytes 4 0x4D4C4542 ++ leBytes 2 c ++ leBytes 2 1 ++ leBytes 4 0 ++ leBytes 4 0 ++ sign

/-- Floors that are recorded as zero. -/
def flash0 : Flash := { base.fl with floorOk := true }

/-- The head of an image is read as it stands. -/
theorem image0_head (sign : List Byte) (hn : sign.length = 29840) : ∀ c ∈ [1, 2, 3, 4],
    leNat ((image0 c sign).take 4) = 0x4D4C4542 ∧ imageComp (image0 c sign) = c ∧ leNat (((image0 c sign).drop 6).take 2) = 1 ∧
      imageLength (image0 c sign) = 29856 ∧ imageVersion (image0 c sign) = 0 ∧ (image0 c sign).length = 29856 := by
  intro c hc
  have hb : imageBody (image0 c sign) = 0 := by
    simp only [List.mem_cons, List.not_mem_nil, or_false] at hc
    rcases hc with rfl | rfl | rfl | rfl <;> rfl
  have hl : imageLength (image0 c sign) = 29856 := by simp only [imageLength, hb, imageSign]
  have h4 : ∀ v, (leBytes 4 v).length = 4 := fun _ => rfl
  have h2 : ∀ v, (leBytes 2 v).length = 2 := fun _ => rfl
  have ht : (image0 c sign).take 4 = leBytes 4 0x4D4C4542 := rfl
  have hm : leNat (leBytes 4 0x4D4C4542) = 0x4D4C4542 := by decide +kernel
  rw [ht, hm]
  have hs : (image0 c sign).length = 29856 := by simp only [image0, List.length_append, hn, h4, h2]
  simp only [List.mem_cons, List.not_mem_nil, or_false] at hc
  rcases hc with rfl | rfl | rfl | rfl <;> exact ⟨rfl, rfl, rfl, hl, rfl, hs⟩

/-- An image passes its checks for each component that a command updates, in either slot. -/
theorem image0_passes : ∃ sign, ∀ c ∈ [1, 2, 3, 4], ∀ slot < 2,
    imageCheck { base with fl := flash0 } c slot (image0 c sign) true = 0 := by
  refine ⟨List.replicate 29840 0, fun c hc slot hs => ?_⟩
  generalize hg : List.replicate 29840 (0 : Byte) = sign
  have hn : sign.length = 29840 := by rw [← hg, List.length_replicate]
  obtain ⟨h1, h2, h3, h4, h5, h6⟩ := image0_head sign hn c hc
  have hf : ∀ c ∈ [1, 2, 3, 4], ∀ slot < 2, floorOf { base with fl := flash0 } c = 0 ∧ 29856 ≤ (slotPlace c slot).2 := by decide +kernel
  simp [imageCheck, h1, h2, h3, h4, h5, h6, (hf c hc slot hs).1, Nat.not_lt.2 (hf c hc slot hs).2]

/-- SVC.CMD with an op and a target waiting, its argument 0. -/
def svc0 (op target : Nat) (d : Dev) : Dev :=
  let d := buffered d (svcOff 0) (BitVec.ofNat 32 (op + target * 16 + 2 ^ 10)) 0x7FF#32
  buffered (buffered d (svcOff 1) 0#32 0xFFFFFFFF#32) (svcOff 2) 0#32 0xFFFFFFFF#32

/-- O52: each op of SVC.CMD taken, for targets that are fit and that are not; images; each stage of an update. -/
theorem witness_FirmwareUpdates :
    (∀ e ∈ [(1, SvcOp.chn, 47), (2, .disp, 3), (3, .core, 63), (4, .chn, 0), (5, .chn, 0)],
      let d := svc0 e.1 e.2.2 base
      let f := applyField (applyPair d (svcOff 1)) (svcOff 0) allBits
      cmdPending d (svcOff 0) = true ∧ fld (bufferedVal d (svcOff 0)) 3 0 = e.1 ∧ regFld f (svcOff 0) 9 4 = e.2.2 ∧
        svcTarget f e.2.1 e.2.2 = true ∧ coreQuiet f 63 = true ∧ slotWrite f e.2.1 e.2.2 1 (image0 1 []) = some true) ∧
    (svcTarget base .chn 48 = false ∧ svcTarget { base with variant := 4 } .disp 3 = false ∧ plainPa base 0 0 = true ∧
      imageAt base 0x200000000000 = none) ∧
    (∀ e ∈ [(SvcOp.chn, 47), (.disp, 3), (.core, 63)],
      let r : SvcRun := ⟨e.1, e.2, none, leBytes 8 0, 1, true, true, false⟩
      let d := { base with sv := { base.sv with run := some r } }
      d.sv.run = some r ∧ switching d e.1 e.2 = some r) ∧
    coreLines base 63 = [] ∧ ((3 : Nat) ∉ base.mem.lost ∧ 3 ∉ base.pw.stopped) := by decide +kernel

/-- What a boot finds, when all is well. -/
def boot0 : BootIn :=
  { idOk := true, certOk := true, recordOk := true, repairOk := true, ws := ⟨true, true⟩, dispatcher := ⟨true, true⟩,
    core := ⟨true, true⟩, chan := ⟨true, true⟩, descOk := true, trimsOk := true, floorOk := true, floors := [], code := 1, version := 1,
    straps := 15, cds := 15, stackMask := 0xFFFF, ports := [], rootclk := true }

/-- O53: a package that WAKE has powered and one that it has not; what each way of ending boot finds. -/
theorem witness_BootRuns :
    State.reset.dev.pw.vpm = false ∧
    (let d := { State.reset.dev with pw := { State.reset.dev.pw with vpm := true } }
     d.pw.vpm = true ∧ d.rg.votes = [] ∧ regFld d bootOff 4 4 = 0 ∧ bootStep d < 3 ∧ d.pw.holdup = false) ∧
    (bothFail boot0.ws = false ∧ bothFail ⟨false, false⟩ = true ∧ boot0.descOk = true ∧ boot0.floorOk = true ∧ boot0.rootclk = true) ∧
    (bootStep (setReg base bootOff 2#32) = 2 ∧ { boot0 with code := 4, trimsOk := false }.code ≤ 4) := by decide +kernel

/-- A package with an operator whose lane is up. -/
def devG : Dev := { base with mg := { base.mg with link := 2, operator := some ⟨1, 2⟩, lastCmd := some 3 } }

/-- O54: a lane that is up, an operator and none; commands that are accepted, badly signed, and old; registers, settings
that are absent, refused and allowed; services; a report in each state. -/
theorem witness_ManagementMessages :
    (mgtHears devG = true ∧ mgtHears { base with mg := { base.mg with link := 2 } } = true ∧ devG.mg.operator.isSome = true ∧
      regFld devG bootOff 4 4 = 0 ∧ devG.mg.readyAcked = false) ∧
    (let c : Command := ⟨9, true, 0, 4⟩
     c.signed = true ∧ c.boots = devG.fl.boots ∧ (∀ n, devG.mg.lastCmd = some n → n < c.number) ∧
      (∃ n, devG.mg.lastCmd = some n ∧ ({ c with number := 3 } : Command).number ≤ n)) ∧
    ((regRow? (qOff 4095 0)).isSome = true ∧ qOff 4095 0 < 0x60000000 ∧ readClears (qOff 4095 0) = false) ∧
    ((regRow? (qOff 4095 0x10)).isSome = true ∧ readClears (qOff 4095 0x10) = true) ∧
    (writeAbsent devG (attempt devG 0x5FFFFFFC 1 1) = true ∧ writeAbsent devG (attempt devG (qOff 0 0) 1 1) = false ∧
      regRetired devG (qOff 0 0) = false ∧ writeRefused devG (attempt devG (qOff 0 0) 0x1000 0x1000) = false ∧
      isDoorbell (qOff 0 0) = false) ∧
    (let d := setRegFld devG bootOff 3 0 11
     svcFree d = true ∧ cmdWaits d (svcOff 0) = false ∧ svcTarget d .core 63 = true ∧ coreQuiet d 63 = true ∧
      slotWrite d .core 63 1 (image0 3 []) = some true ∧ imageComp (image0 3 []) = 3) ∧
    (idOk (setRegFld devG bootOff 5 5 1) = true ∧ idOk devG = false ∧ devG.id.report = none ∧
      regFld (setRegFld devG bootOff 4 4 1) bootOff 4 4 = 1) ∧
    (powered base = true ∧ base.mg.link ≠ 2) ∧
    (let d := buffered (buffered (buffered base (attOff 0) 1#32 1#32) (attOff 1) 0x40#32 0xFFFFFFFF#32) (attOff 2) 0#32 0xFFFFFFFF#32
     let f := applyField (applyPair d (attOff 1)) (attOff 0) allBits
     cmdPending d (attOff 0) = true ∧ argOk f 0 (reg64 f (attOff 1)).toNat 64 64 = true ∧
      argOk f 0 (reg64 f (attOff 1) + 1).toNat 64 64 = false) ∧
    { base.id with report := some ⟨[], 0, some 4⟩ }.report = some ⟨[], 0, some 4⟩ := by decide +kernel

/-- A trace record that has still to leave on OBS and on the ring. -/
def rec0 (obs ring : Bool) : TraceRec := ⟨1, 2, 3, 4, obs, ring⟩

/-- O55: events selected; a record that leaves on OBS, and one that leaves for the ring, each behind one that has left there
and before another; a ring with room, full, and full with wrap. -/
theorem witness_TraceRecords :
    (let d := setReg (setReg base (trcOff 0) 3#32) (trcOff 1) 0xFFFFFFFF#32
     traceDie d 4 = true ∧ traceDie d 3 = true ∧ traced d 0xD none none = true ∧ traced d 0xB none none = true ∧
      (traceOf d 4).buf = [] ∧ (traceOf d 4).dropped = 0) ∧
    (let d := setTrace base 4 { buf := [rec0 false true] ++ rec0 true true :: [rec0 true false] }
     (traceOf d 4).buf = [rec0 false true] ++ rec0 true true :: [rec0 true false] ∧ (traceOf d 4).dropped = 0) ∧
    (let d := setTrace base 4 { buf := [rec0 true false] ++ rec0 true true :: [rec0 false true] }
     (traceOf d 4).buf = [rec0 true false] ++ rec0 true true :: [rec0 false true] ∧ d.rg.votes = []) ∧
    (∀ e ∈ [16, 34], let d := setRegFld base (trcOff 3) 5 0 e
      ringUnfreed d < 2 ^ (regFld d (trcOff 3) 5 0 - 5) ∧
      2 ^ (regFld d (trcOff 3) 5 0 - 5) ≤ ringUnfreed (setReg64 d (trcOff 5) (BitVec.ofNat 64 (2 ^ (e - 5)))) ∧
      (farLine? d ((regFld d (trcOff 4) 15 0 * 2 ^ 32 + regFld d (trcOff 3) 31 16 * 2 ^ 16) / 64)).isSome = true ∧
      regFld d (trcOff 0) 2 2 = 0 ∧ regFld (setRegFld d (trcOff 0) 2 2 1) (trcOff 0) 2 2 = 1) := by decide +kernel

/-- O1 and O56: queues with a command in front and with none; rails on and off; a die that stretches, one that is stopped. -/
theorem witness_TimePasses :
    ({ pending := [.rootclkLoss, .rootclkReturn], dev := base } : State).pending = .rootclkLoss :: [.rootclkReturn] ∧
    (st base).pending = [] ∧ (st base).dev.pw.on = true ∧ bootStep base < 5 ∧ bootStep (setReg base bootOff 11#32) = 11 ∧ State.reset.dev.pw.on = false ∧ base.rg.votes = [] ∧
    regFld base (clkOff 4 0) 5 5 = 0 ∧ 4 ∈ (devW { pw0 with stopped := [4] }).pw.stopped := by decide +kernel

/-- O59: a state with a byte stored and a command that stores. -/
theorem witness_StepKeepsMemoryCanonical :
    let d := { base with mem := { base.mem with bytes := [(0x10, 1#8), (0x20, 0xFF#8)] } }
    Memory.wf d.mem.bytes = true ∧ step { pending := [.auxLoss], dev := d } = .next { pending := [], dev :=
      { d with pw := { d.pw with aux := false, cause := 0, wakeHeld := false } } } := by
  refine ⟨by decide +kernel, rfl⟩

/-- O60: operations at the bounds of their operands. -/
theorem witness_ThreadWordsRoundTrip :
    opFits 0 (.umov 31 31) = true ∧ opFits 1 (.uli 31) = true ∧ opFits 0 (.mul 3 63 63 63 63) = true ∧ opFits 0 (.umov 32 0) = false := by decide +kernel

end Sys2Proof.Tests
end

section
/-! SUPPORT. Fields of words: what a bit and a field read as after a field or a bit has been set. -/

namespace Sys2Proof.Machine

theorem bit_eq_getLsbD {w : Nat} (x : BitVec w) (i : Nat) : bit x i = x.getLsbD i := rfl

/-- The mask of a field has the bits of the field. -/
theorem bit_fieldMask (w hi lo i : Nat) : bit (fieldMask w hi lo) i = decide (i < w ∧ lo ≤ i ∧ i ≤ hi) := by
  have h : lo ≤ i → (i - lo < hi + 1 - lo ↔ i ≤ hi) := by omega
  rw [bit_eq_getLsbD, fieldMask, BitVec.getLsbD_ofNat, Nat.testBit_shiftLeft, Nat.testBit_two_pow_sub_one]
  by_cases hlo : lo ≤ i <;> simp [hlo, h]

/-- A field replaced: its bits are those of the number, the others as they were. -/
theorem bit_setFld {w : Nat} (x : BitVec w) (hi lo v i : Nat) (hw : hi < w) :
    bit (setFld x hi lo v) i = if lo ≤ i ∧ i ≤ hi then v.testBit (i - lo) else bit x i := by
  have hm := bit_fieldMask w hi lo i
  rw [bit_eq_getLsbD] at hm
  rw [bit_eq_getLsbD, setFld, BitVec.getLsbD_or, BitVec.getLsbD_and, BitVec.getLsbD_and, BitVec.getLsbD_not, hm,
    BitVec.getLsbD_ofNat, Nat.testBit_shiftLeft, bit_eq_getLsbD]
  by_cases h : lo ≤ i ∧ i ≤ hi
  · have : i < w := by omega
    simp [h, this]
  · by_cases hi' : i < w
    · simp [h, hi']
    · simp [h, hi', BitVec.getLsbD_of_ge x i (by omega)]

/-- A bit of a field. -/
theorem testBit_fld {w : Nat} (x : BitVec w) (hi lo i : Nat) :
    (fld x hi lo).testBit i = (decide (i < hi + 1 - lo) && bit x (lo + i)) := by
  simp [fld, bit, Nat.testBit_mod_two_pow]

/-- A field of one bit. -/
theorem fld_bit {w : Nat} (x : BitVec w) (i : Nat) : fld x i i = b2n (bit x i) := by
  have : i + 1 - i = 1 := by omega
  rw [fld, this, bit, Nat.testBit_eq_decide_div_mod_eq, b2n, Nat.shiftRight_eq_div_pow]
  split <;> simp_all

/-- A field just written reads as what was written. -/
theorem fld_setFld_same {w : Nat} (x : BitVec w) (hi lo v : Nat) (hw : hi < w) :
    fld (setFld x hi lo v) hi lo = v % 2 ^ (hi + 1 - lo) := by
  refine Nat.eq_of_testBit_eq fun i => ?_
  rw [testBit_fld, bit_setFld _ _ _ _ _ hw, Nat.testBit_mod_two_pow]
  by_cases h : i < hi + 1 - lo
  · rw [if_pos (by omega), Nat.add_sub_cancel_left]
  · simp [h]

/-- A field reads as before after a write of a field apart from it. -/
theorem fld_setFld_apart {w : Nat} (x : BitVec w) (hi lo v hi' lo' : Nat) (hw : hi' < w) (h : hi < lo' ∨ hi' < lo) :
    fld (setFld x hi' lo' v) hi lo = fld x hi lo := by
  refine Nat.eq_of_testBit_eq fun i => ?_
  rw [testBit_fld, testBit_fld, bit_setFld _ _ _ _ _ hw]
  by_cases hi' : i < hi + 1 - lo
  · rw [if_neg (by omega)]
  · simp [hi']

/-- A word with one more bit set. -/
theorem bit_or_one (x : BitVec 32) (b i : Nat) (hb : b < 32) :
    bit (x ||| BitVec.ofNat 32 (1 <<< b)) i = (bit x i || decide (i = b)) := by
  rw [bit_eq_getLsbD, bit_eq_getLsbD, BitVec.getLsbD_or, BitVec.getLsbD_ofNat, Nat.one_shiftLeft, Nat.testBit_two_pow]
  by_cases h : b = i
  · subst h; simp [hb]
  · simp [h, Ne.symm h]

end Sys2Proof.Machine
end

section
/-! SUPPORT. Flags, traces, chimes and health events: which registers they write, and what of the package they leave alone
(03 R92, R93; 09 R295; 19 R584, R589; 20 R605). -/

namespace Sys2Proof.Machine

open Parts

/-- The register of the lost trace records of a die. -/
def lostOff (die : Nat) : Nat := trcOff (0x20 + die)

/-- The registers that setting a flag writes: its own, its occurrence counter's, the lost trace records'. -/
def flagRegs (off b : Nat) : List Nat := [off, (occOf off b).1, lostOff (min 4 (offDie off))]

/-- The registers that raising a chime writes. -/
def chimeRegs (e : Nat) : List Nat := lostOff 4 :: flagRegs (chmOff e + 4) 0

/-- The registers that a health event writes: its chime's, MGT.LAST, MGT.FLAGS and what counts the flags. -/
def healthRegs : List Nat := mgtOff 2 :: chimeRegs 4738 ++ flagRegs (mgtOff 3) 0 ++ flagRegs (mgtOff 3) 2

/-- Nothing differs but values of registers, chimes, upward messages and trace records. -/
def Reports (d e : Dev) : Prop :=
  ∃ val gg mg tr, e = { d with rg := { d.rg with val := val }, gg := gg, mg := mg, tr := tr }

theorem Reports.refl (d : Dev) : Reports d d := ⟨_, _, _, _, rfl⟩

theorem Reports.trans {d e f : Dev} (h : Reports d e) (h' : Reports e f) : Reports d f := by
  obtain ⟨_, _, _, _, rfl⟩ := h
  obtain ⟨_, _, _, _, rfl⟩ := h'
  exact ⟨_, _, _, _, rfl⟩

/-- Reporting leaves alone what runs, what is stored and what the flash holds. -/
theorem Reports.fields {d e : Dev} (h : Reports d e) :
    e.variant = d.variant ∧ e.straps = d.straps ∧ e.mem = d.mem ∧ e.tiles = d.tiles ∧ e.ch = d.ch ∧ e.pw = d.pw ∧
      e.fl = d.fl ∧ e.rg.votes = d.rg.votes := by
  obtain ⟨_, _, _, _, rfl⟩ := h
  exact ⟨rfl, rfl, rfl, rfl, rfl, rfl, rfl, rfl⟩

theorem setReg_reports (d : Dev) (off : Nat) (v : Word32) : Reports d (setReg d off v) := ⟨_, _, _, _, rfl⟩

theorem countLost_reports (d : Dev) (die : Nat) : Reports d (countLost d die) := ⟨_, _, _, _, rfl⟩

theorem trace_reports (d : Dev) (die unit inst ev : Nat) (part cls : Option Nat) (w2 w3 : Nat) :
    Reports d (trace d die unit inst ev part cls w2 w3) := by
  unfold trace
  split
  · exact .refl d
  · dsimp only
    split
    · exact countLost_reports d die
    · exact ⟨_, _, _, _, rfl⟩

theorem setFlag_reports (d : Dev) (off b : Nat) : Reports d (setFlag d off b) :=
  ((setReg_reports d _ _).trans (setReg_reports _ _ _)).trans (trace_reports _ _ _ _ _ _ _ _ _)

theorem chimeMessage_reports (d : Dev) (e : Nat) : Reports d (chimeMessage d e) := by
  unfold chimeMessage
  dsimp only
  split
  · exact .refl d
  · exact ⟨_, _, _, _, rfl⟩

theorem raiseChime_reports (d : Dev) (e : Nat) : Reports d (raiseChime d e) := by
  have h := (setFlag_reports d (chmOff e + 4) 0).trans (trace_reports _ 4 0x0F (e / 64) 7 none none e 0)
  unfold raiseChime
  dsimp only
  split
  · exact h.trans (chimeMessage_reports _ _)
  · exact h

theorem mgtQueue_reports (d : Dev) (b : UpBody) : Reports d (mgtQueue d b) := by
  unfold mgtQueue mgtSend mgtSendTo
  dsimp only
  split
  · split <;> exact ⟨_, _, _, _, rfl⟩
  · exact ⟨_, _, _, _, rfl⟩

/-- The chime, MGT.LAST and the flag of a health event. -/
def healthSignals (d : Dev) (code die inst : Nat) : Dev :=
  setFlag (setReg (raiseChime d 4738) (mgtOff 2)
    (BitVec.ofNat 32 (code % 256 + die % 16 * 256 + inst % 65536 * 4096))) (mgtOff 3) 0

/-- A health event is its signals, and then its message, or one more lost. -/
theorem healthEvent_eq (d : Dev) (code die inst detail : Nat) :
    healthEvent d code die inst detail =
      let f := healthSignals d code die inst
      if 256 ≤ f.mg.queue.length then setFlag { f with mg := { f.mg with lost := f.mg.lost + 1 } } (mgtOff 3) 2
      else mgtQueue { f with mg := { f.mg with lost := 0 } }
        (.health f.mg.lost ⟨code, die, inst, detail, reg64 f hdPcntOff⟩) := rfl

theorem healthSignals_reports (d : Dev) (code die inst : Nat) : Reports d (healthSignals d code die inst) :=
  ((raiseChime_reports d 4738).trans (setReg_reports _ _ _)).trans (setFlag_reports _ _ _)

theorem healthEvent_reports (d : Dev) (code die inst detail : Nat) : Reports d (healthEvent d code die inst detail) := by
  have h := healthSignals_reports d code die inst
  rw [healthEvent_eq]
  dsimp only
  split
  · exact h.trans (.trans ⟨_, _, _, _, rfl⟩ (setFlag_reports _ _ _))
  · exact h.trans (.trans ⟨_, _, _, _, rfl⟩ (mgtQueue_reports _ _))

/-! The registers written. -/

theorem regRaw_setReg_other (d : Dev) (off : Nat) (v : Word32) {o : Nat} (h : o ≠ off) :
    regRaw (setReg d off v) o = regRaw d o := by
  rw [regRaw_setReg, if_neg h]

@[simp] theorem regRaw_setReg_same (d : Dev) (off : Nat) (v : Word32) : regRaw (setReg d off v) off = v := by
  rw [regRaw_setReg, if_pos rfl]

theorem regRaw_trace (d : Dev) (die unit inst ev : Nat) (part cls : Option Nat) (w2 w3 : Nat) {o : Nat} (h : o ≠ lostOff die) :
    regRaw (trace d die unit inst ev part cls w2 w3) o = regRaw d o := by
  unfold trace
  split
  · rfl
  · dsimp only
    split
    · exact regRaw_setReg_other d _ _ h
    · rfl

/-- The flag's register gets the flag. -/
theorem regRaw_setFlag_same (d : Dev) (off b : Nat) (h : off ∉ (flagRegs off b).tail) :
    regRaw (setFlag d off b) off = regRaw d off ||| BitVec.ofNat 32 (1 <<< b) := by
  simp only [flagRegs, List.tail_cons, List.mem_cons, List.not_mem_nil, or_false, not_or] at h
  exact (regRaw_trace _ _ _ _ _ _ _ _ _ h.2).trans ((regRaw_setReg_other _ _ _ h.1).trans (regRaw_setReg_same _ _ _))

theorem regRaw_setFlag_other (d : Dev) (off b : Nat) {o : Nat} (h : o ∉ flagRegs off b) :
    regRaw (setFlag d off b) o = regRaw d o := by
  simp only [flagRegs, List.mem_cons, List.not_mem_nil, or_false, not_or] at h
  obtain ⟨hoff, hocc, hlost⟩ := h
  exact (regRaw_trace _ _ _ _ _ _ _ _ _ hlost).trans ((regRaw_setReg_other _ _ _ hocc).trans (regRaw_setReg_other _ _ _ hoff))

/-- Setting a flag leaves the other flags of its register as they were. -/
theorem flag_setFlag_same (d : Dev) (off b c : Nat) (hb : b < 32) (h : off ∉ (flagRegs off b).tail) :
    flag (setFlag d off b) off c = (flag d off c || decide (c = b)) := by
  rw [flag, regRaw_setFlag_same d off b h, bit_or_one _ _ _ hb, flag]

theorem regRaw_chimeMessage (d : Dev) (e o : Nat) : regRaw (chimeMessage d e) o = regRaw d o := by
  unfold chimeMessage
  dsimp only
  split <;> rfl

/-- Of registers, raising a chime writes what setting its flag and two trace records write. -/
theorem regRaw_raiseChime (d : Dev) (e : Nat) {o : Nat} (h : o ≠ lostOff 4) :
    regRaw (raiseChime d e) o = regRaw (setFlag d (chmOff e + 4) 0) o := by
  unfold raiseChime
  dsimp only
  split
  · rw [regRaw_chimeMessage, regRaw_trace _ _ _ _ _ _ _ _ _ h]
  · exact regRaw_trace _ _ _ _ _ _ _ _ _ h

theorem regRaw_raiseChime_other (d : Dev) (e : Nat) {o : Nat} (h : o ∉ chimeRegs e) :
    regRaw (raiseChime d e) o = regRaw d o := by
  simp only [chimeRegs, List.mem_cons, not_or] at h
  rw [regRaw_raiseChime d e h.1, regRaw_setFlag_other _ _ _ (by simpa using h.2)]

@[simp] theorem mgtQueue_rg (d : Dev) (b : UpBody) : (mgtQueue d b).rg = d.rg := by
  unfold mgtQueue mgtSend mgtSendTo
  dsimp only
  split
  · split <;> rfl
  · rfl

/-- A message queued stands last. -/
theorem mgtQueue_queue (d : Dev) (b : UpBody) : (mgtQueue d b).mg.queue = d.mg.queue ++ [⟨d.mg.seq, b⟩] := by
  unfold mgtQueue mgtSend mgtSendTo
  dsimp only
  split
  · split <;> rfl
  · rfl

theorem regRaw_mgtQueue (d : Dev) (b : UpBody) (o : Nat) : regRaw (mgtQueue d b) o = regRaw d o := by simp [regRaw]

theorem regRaw_healthEvent (d : Dev) (code die inst detail : Nat) {o : Nat} (h : o ∉ flagRegs (mgtOff 3) 2) :
    regRaw (healthEvent d code die inst detail) o = regRaw (healthSignals d code die inst) o := by
  rw [healthEvent_eq]
  dsimp only
  split
  · exact regRaw_setFlag_other _ _ _ h
  · exact regRaw_mgtQueue _ _ _

theorem regRaw_healthEvent_other (d : Dev) (code die inst detail : Nat) {o : Nat} (h : o ∉ healthRegs) :
    regRaw (healthEvent d code die inst detail) o = regRaw d o := by
  simp only [healthRegs, List.cons_append, List.mem_cons, List.mem_append, not_or] at h
  obtain ⟨hlast, ⟨hchime, hflag⟩, hover⟩ := h
  rw [regRaw_healthEvent _ _ _ _ _ hover, healthSignals, regRaw_setFlag_other _ _ _ hflag, regRaw_setReg_other _ _ _ hlast,
    regRaw_raiseChime_other _ _ hchime]

/-- MGT.LAST names the event. -/
theorem healthEvent_last (d : Dev) (code die inst detail : Nat) :
    regRaw (healthEvent d code die inst detail) (mgtOff 2) =
      BitVec.ofNat 32 (code % 256 + die % 16 * 256 + inst % 65536 * 4096) := by
  rw [regRaw_healthEvent _ _ _ _ _ (by decide), healthSignals, regRaw_setFlag_other _ _ _ (by decide), regRaw_setReg_same]

/-- The flag of health events is up. -/
theorem healthEvent_flag (d : Dev) (code die inst detail : Nat) :
    flag (healthEvent d code die inst detail) (mgtOff 3) 0 = true := by
  have hs : flag (healthSignals d code die inst) (mgtOff 3) 0 = true := by
    rw [healthSignals, flag_setFlag_same _ _ _ _ (by decide) (by decide)]; simp
  rw [healthEvent_eq]
  dsimp only
  split
  · rw [flag_setFlag_same _ _ _ _ (by decide) (by decide)]
    exact Bool.or_eq_true_iff.2 (.inl hs)
  · rw [flag, regRaw_mgtQueue]; exact hs

/-- A chime just raised is pending. -/
theorem chimed_raiseChime (d : Dev) (e : Nat) (hl : chmOff e + 4 ≠ lostOff 4)
    (h : chmOff e + 4 ∉ (flagRegs (chmOff e + 4) 0).tail) :
    Chimed (raiseChime d e) e := by
  rw [Chimed, flag, regRaw_raiseChime _ _ hl]
  have := flag_setFlag_same d (chmOff e + 4) 0 0 (by decide) h
  rw [flag] at this
  rw [this]; simp

end Sys2Proof.Machine
end

section
/-! SUPPORT. What boot has reached, as its stages read it: each stage is an equation on this view (19 R574 to R576). -/

namespace Sys2Proof.Machine

open Parts

/-- What the stages of boot read, and leave behind them: fields of BOOT.STATUS, the votes on it, power, discovery, the count of
boots. -/
structure BootView where
  step : Nat
  recovery : Bool
  ident : Bool
  trims : Bool
  votes : Votes
  pw : Power
  variant : Nat
  straps : Nat
  boots : Nat

/-- The view of a package. -/
def bootView (d : Dev) : BootView :=
  { step := fld (regRaw d bootOff) 3 0, recovery := bit (regRaw d bootOff) 4, ident := bit (regRaw d bootOff) 5
    trims := bit (regRaw d bootOff) 9, votes := Sparse.get noVotes d.rg.votes bootOff
    pw := d.pw, variant := d.variant, straps := d.straps, boots := d.fl.boots }

/-- The applied value of a register whose copies agree is the stored one. -/
theorem regVal_of_noVotes {d : Dev} {off : Nat} (h : Sparse.get noVotes d.rg.votes off = {}) : regVal d off = regRaw d off := by
  simp [regVal, h, maj3]

theorem bootStep_view {d : Dev} (h : (bootView d).votes = {}) : bootStep d = (bootView d).step := by
  rw [bootStep, regFld, regVal_of_noVotes h]; rfl

theorem recovery_view {d : Dev} (h : (bootView d).votes = {}) : regFld d bootOff 4 4 = b2n (bootView d).recovery := by
  rw [regFld, regVal_of_noVotes h, fld_bit]; rfl

/-! What changes the view. -/

theorem bootView_setStep (d : Dev) (n : Nat) : bootView (setStep d n) = { bootView d with step := n % 16 } := by
  have h : regRaw (setStep d n) bootOff = setFld (regRaw d bootOff) 3 0 n := regRaw_setReg_same _ _ _
  have hv : (setStep d n).rg.votes = d.rg.votes := rfl
  simp only [bootView, h, hv, bit_setFld _ _ _ _ _ (show 3 < 32 by decide), fld_setFld_same _ _ _ _ (show 3 < 32 by decide)]
  rfl

theorem regRaw_setBoot (d : Dev) (k : Nat) (v : Bool) : regRaw (setBoot d k v) bootOff = setFld (regRaw d bootOff) k k (b2n v) :=
  regRaw_setReg_same _ _ _

/-- A bit of BOOT.STATUS after a bit has been set. -/
theorem bit_setBoot (d : Dev) (k i : Nat) (v : Bool) (hk : k < 32) :
    bit (regRaw (setBoot d k v) bootOff) i = if i = k then v else bit (regRaw d bootOff) i := by
  rw [regRaw_setBoot, bit_setFld _ _ _ _ _ hk]
  by_cases h : i = k
  · subst h; cases v <;> simp [b2n]
  · rw [if_neg (by omega), if_neg h]

theorem bootView_setBoot (d : Dev) (k : Nat) (v : Bool) (h4 : 4 ≤ k) (hk : k < 32) :
    bootView (setBoot d k v) =
      { bootView d with
        recovery := if 4 = k then v else (bootView d).recovery
        ident := if 5 = k then v else (bootView d).ident
        trims := if 9 = k then v else (bootView d).trims } := by
  have hv : (setBoot d k v).rg.votes = d.rg.votes := rfl
  have hs : fld (regRaw (setBoot d k v) bootOff) 3 0 = fld (regRaw d bootOff) 3 0 := by
    rw [regRaw_setBoot, fld_setFld_apart _ _ _ _ _ _ hk (by omega)]
  simp only [bootView, hs, hv, bit_setBoot d k _ v hk]
  rfl

theorem bootView_setPw (d : Dev) (f : Power → Power) : bootView (setPw d f) = { bootView d with pw := f (bootView d).pw } := rfl

/-! What leaves the view as it is. -/

theorem bootView_reports {d e : Dev} (h : Reports d e) (hb : regRaw e bootOff = regRaw d bootOff) : bootView e = bootView d := by
  obtain ⟨hvar, hstr, -, -, -, hpw, hfl, hv⟩ := h.fields
  simp only [bootView, hb, hvar, hstr, hpw, hfl, hv]

theorem bootView_setReg (d : Dev) (off : Nat) (v : Word32) (h : bootOff ≠ off) : bootView (setReg d off v) = bootView d :=
  bootView_reports (setReg_reports d off v) (regRaw_setReg_other d off v h)

@[simp] theorem bootView_healthEvent (d : Dev) (code die inst detail : Nat) :
    bootView (healthEvent d code die inst detail) = bootView d :=
  bootView_reports (healthEvent_reports _ _ _ _ _) (regRaw_healthEvent_other _ _ _ _ _ (by decide))

@[simp] theorem bootView_setMeasured (d : Dev) (inst slot : Nat) (i : List Byte) :
    bootView (setMeasured d inst slot i) = bootView d := rfl

@[simp] theorem bootView_setPort (d : Dev) (die inst : Nat) (p : Port) : bootView (setPort d die inst p) = bootView d := rfl

@[simp] theorem bootView_setChan (d : Dev) (c k st : Nat) : bootView (setChan d c k st) = bootView d := rfl

@[simp] theorem bootView_setChannel (d : Dev) (ch : Nat) (x : Channel) : bootView (setChannel d ch x) = bootView d := rfl

@[simp] theorem bootView_setTile (d : Dev) (c t : Nat) (x : Tile) : bootView (setTile d c t x) = bootView d := rfl

@[simp] theorem bootView_setSlotRecord (d : Dev) (inst slot : Nat) (fell : Bool) :
    bootView (setSlotRecord d inst slot fell) = bootView d := by
  unfold setSlotRecord
  split <;> rfl

/-- A walk over a list whose every step leaves the view as it is. -/
theorem bootView_foldl {α : Type} (l : List α) (f : Dev → α → Dev)
    (h : ∀ d, ∀ x ∈ l, bootView (f d x) = bootView d) (d : Dev) :
    bootView (l.foldl f d) = bootView d := by
  induction l generalizing d with
  | nil => rfl
  | cons x l ih =>
    rw [List.foldl_cons, ih (fun d y hy => h d y (List.mem_cons_of_mem _ hy)), h d x List.mem_cons_self]

theorem bootView_startInstance (comp : Nat) (c : SlotCheck) (d : Dev) (inst : Nat) :
    bootView (startInstance comp c d inst) = bootView d := by
  unfold startInstance
  dsimp only
  split
  · exact bootView_healthEvent _ _ _ _ _
  · rw [bootView_setMeasured]
    split
    · split
      · rfl
      · exact bootView_setSlotRecord _ _ _ _
    · rw [bootView_healthEvent, bootView_setBoot _ _ _ (by decide) (by decide), bootView_setSlotRecord]; rfl

@[simp] theorem bootView_startAll (d : Dev) (comp : Nat) (c : SlotCheck) : bootView (startAll d comp c) = bootView d :=
  bootView_foldl _ _ (fun d i _ => bootView_startInstance comp c d i) d

theorem bootView_trainPort (b : BootIn) (alive : Nat → Bool) (d : Dev) (p : Nat × Nat) :
    bootView (trainPort b alive d p) = bootView d := by
  unfold trainPort
  dsimp only
  split
  · rfl
  · split <;> rfl

theorem bootView_settleEnd (d : Dev) (die inst : Nat) : bootView (settleEnd d die inst) = bootView d := by
  unfold settleEnd
  dsimp only
  split
  · rfl
  · split
    · rfl
    · split <;> rfl

@[simp] theorem bootView_trainPorts (d : Dev) (b : BootIn) (alive : Nat → Bool) :
    bootView (trainPorts d b alive) = bootView d := by
  unfold trainPorts
  extract_lets cds all d1 d2
  calc bootView { d2 with full := identified d2 }
    _ = bootView d2 := rfl
    _ = bootView d1 := bootView_foldl all _ (fun d p _ => bootView_settleEnd d p.1 p.2) d1
    _ = bootView d := bootView_foldl all _ (fun d p _ => bootView_trainPort b alive d p) d

@[simp] theorem bootView_noStack (d : Dev) (n : Nat) : bootView (noStack d n) = bootView d :=
  bootView_foldl _ _ (fun d k _ => bootView_setChan d _ k _) d

/-- The wear registers of a CD are not BOOT.STATUS. -/
theorem bootOff_ne_wearTile {c p : Nat} (hp : p < 192) : bootOff ≠ wearTile c p := by
  simp only [bootOff, wearTile, wearOff, regOff]; omega

/-- Nor are the sensors of a CD or of the HD. -/
theorem bootOff_ne_thmOff {die i : Nat} (hi : i < 20) : bootOff ≠ thmOff die i := by
  simp only [bootOff, thmOff, regOff]; omega

theorem bootView_loadTiles (d : Dev) (c : Nat) : bootView (loadTiles d c) = bootView d := by
  unfold loadTiles
  split
  · rfl
  · refine bootView_foldl _ _ (fun d e _ => ?_) d
    have hr := bootView_setReg d (wearTile c (e.1 % 192)) e.2 (bootOff_ne_wearTile (Nat.mod_lt _ (by decide)))
    dsimp only
    split
    · rw [bootView_setTile, hr]
    · exact hr

theorem bootView_validSensors (d : Dev) (b : BootIn) (die : Nat) : bootView (validSensors d b die) = bootView d := by
  refine bootView_foldl _ _ (fun d i hi => ?_) d
  split
  · exact bootView_setReg _ _ _ (bootOff_ne_thmOff (List.mem_range.1 hi))
  · rfl

@[simp] theorem bootView_tellFailed (d : Dev) (b : BootIn) : bootView (tellFailed d b) = bootView d := by
  unfold tellFailed
  dsimp only
  rw [bootView_foldl _ _ fun d n _ => bootView_healthEvent _ _ _ _ _,
    bootView_foldl _ _ fun d n _ => bootView_healthEvent _ _ _ _ _]

@[simp] theorem bootView_writePkg (d : Dev) (b : BootIn) : bootView (writePkg d b) = bootView d := by
  unfold writePkg
  dsimp only
  rw [bootView_setReg _ _ _ (by decide), bootView_setReg _ _ _ (by decide), bootView_setReg _ _ _ (by decide)]

/-! What of the view a whole part of the package holds. -/

theorem bootView_mem (d : Dev) (m : Mem) : bootView { d with mem := m } = bootView d := rfl

theorem bootView_mg (d : Dev) (m : Mgmt) : bootView { d with mg := m } = bootView d := rfl

/-! The stages. -/

/-- What steps 2 and 3 do: the boot is counted and the cause of the last stop kept, unless a boot goes on from step 2; the
identity is checked. -/
def BootView.early (v : BootView) (b : BootIn) : BootView :=
  { v with
    step := 2, ident := b.idOk
    boots := if v.step = 2 then v.boots else (v.boots + 1) % 2 ^ 64
    pw := { v.pw with lastStop := if v.step = 2 then v.pw.lastStop else v.pw.cause } }

/-- What step 4 does: the descriptor's variant and the straps are taken, and the rails are raised. -/
def BootView.rails (v : BootView) (b : BootIn) : BootView :=
  { v with
    step := 4, trims := b.trimsOk
    variant := if 1 ≤ b.code ∧ b.code ≤ 4 then b.code else v.variant, straps := b.straps % 16
    pw := { v.pw with on := true, op := if b.trimsOk then 0 else 3 } }

/-- The view as boot goes on to a step. -/
def BootView.reach (v : BootView) (n : Nat) : BootView := { v with step := n }

/-- After steps 2 and 3 either the waystation starts, or recovery is entered. -/
theorem bootEarly_cases (d : Dev) (b : BootIn) (hv : (bootView d).votes = {}) :
    ∃ x, bootView x = (bootView d).early b ∧
      bootEarly d b =
        if bothFail b.ws then enterRecovery (healthEvent x 0x0C 5 0 0) 3 else setStep (startAll x 1 b.ws) 3 := by
  have hs := bootStep_view hv
  unfold bootEarly
  extract_lets again fl d1 d2 d3 d4 fl' d5 d6 mg d7
  have h2 : bootView d2 = { (bootView d).early b with ident := (bootView d).ident } := by
    rw [bootView_setPw, bootView_setStep]
    simp only [d1, fl, again, hs]
    rfl
  have h3 : bootView d3 = (bootView d).early b := by
    rw [bootView_setBoot _ 6 _ (by decide) (by decide), bootView_setBoot _ 5 _ (by decide) (by decide), h2]; rfl
  have h4 : bootView d4 = bootView d3 := by
    unfold d4; split
    · rfl
    · exact bootView_healthEvent _ _ _ _ _
  have h5 : bootView d5 = bootView d4 := by unfold d5; split <;> rfl
  have h6 : bootView d6 = bootView d5 := bootView_setBoot d5 7 false (by decide) (by decide)
  refine ⟨d7, ?_, rfl⟩
  rw [bootView_mg, h6, h5, h4, h3]

/-- With an image of the waystation boot comes to step 3. -/
theorem bootView_bootEarly (d : Dev) (b : BootIn) (hv : (bootView d).votes = {}) (hw : bothFail b.ws = false) :
    bootView (bootEarly d b) = ((bootView d).early b).reach 3 := by
  obtain ⟨x, hx, he⟩ := bootEarly_cases d b hv
  rw [he, hw, if_neg Bool.false_ne_true, bootView_setStep, bootView_startAll, hx]; rfl

/-- With no image of the waystation recovery is entered at step 3. -/
theorem bootEarly_recovery (d : Dev) (b : BootIn) (hv : (bootView d).votes = {}) (hw : bothFail b.ws = true) :
    ∃ x, (bootView x).votes = {} ∧ bootEarly d b = enterRecovery x 3 := by
  obtain ⟨x, hx, he⟩ := bootEarly_cases d b hv
  refine ⟨healthEvent x 0x0C 5 0 0, ?_, by rw [he, if_pos hw]⟩
  rw [bootView_healthEvent, hx]; exact hv

/-- With a descriptor and a floor record the rails are raised. -/
theorem bootView_bootRails (d : Dev) (b : BootIn) (hd : b.descOk = true) (hf : b.floorOk = true) :
    bootView (bootRails d b) = (bootView d).rails b := by
  unfold bootRails
  extract_lets fl fl' d1 d2 rep fl'' d3 d4 d5 d6 mem d7
  have h3 : bootView d3 = bootView d2 := by unfold d3; split <;> rfl
  have h4 : bootView d4 = { bootView d3 with trims := b.trimsOk } := by
    rw [bootView_setBoot _ 9 _ (by decide) (by decide), bootView_setBoot _ 8 _ (by decide) (by decide)]; rfl
  have h6 : bootView d6 = bootView d4 := by
    unfold d6; split
    · rfl
    · exact bootView_healthEvent _ _ _ _ _
  have h7 : bootView d7 = bootView d6 := by unfold d7; split <;> rfl
  rw [hd, hf, if_neg (by decide), bootView_setPw, bootView_setStep, h7, h6, h4, h3]
  rfl

/-- With a descriptor or floor record that fails recovery is entered at step 4. -/
theorem bootRails_recovery (d : Dev) (b : BootIn) (h : b.descOk = false ∨ b.floorOk = false) :
    ∃ x, (bootView x).votes = (bootView d).votes ∧ bootRails d b = enterRecovery x 4 := by
  unfold bootRails
  extract_lets fl fl' d1
  refine ⟨healthEvent d1 0x0C 5 0 0, ?_, if_pos ?_⟩
  · rw [bootView_healthEvent]; rfl
  · simpa using h

/-- Recovery is entered at a step, the rails off (19 R575). -/
theorem bootView_enterRecovery (d : Dev) (n : Nat) :
    bootView (enterRecovery d n) =
      { bootView d with step := n % 16, recovery := true, pw := { d.pw with on := false, brace := none } } := by
  have h (x : Dev) : bootView (railsOff x) = { bootView x with pw := { x.pw with on := false, brace := none } } := rfl
  rw [enterRecovery, bootView_healthEvent, h, bootView_setBoot _ _ _ (by decide) (by decide), bootView_setStep]
  rfl

/-- Steps 5 to 8 reach step 8. -/
theorem bootView_bootUnits (d : Dev) (b : BootIn) : bootView (bootUnits d b) = (bootView d).reach 8 := by
  unfold bootUnits
  extract_lets d1 d2 d3 out mem d4 d5 d6
  have h2 : bootView d2 = bootView d1 := bootView_foldl _ _ (fun d n _ => bootView_noStack d n) d1
  have h3 : bootView d3 = bootView d2 := by
    unfold d3; split
    · exact bootView_healthEvent _ _ _ _ _
    · exact bootView_foldl _ _ (fun d i _ => bootView_startInstance 2 b.dispatcher d i) d2
  have h5 : bootView d5 = bootView d4 := bootView_foldl _ _ (fun d c _ => bootView_loadTiles d c) d4
  have h6 : bootView d6 = bootView d5 := by
    unfold d6; split
    · exact bootView_foldl _ _ (fun d c _ => bootView_validSensors d b c) d5
    · rfl
  rw [bootView_setStep, h6, h5, bootView_mem, h3, h2, bootView_trainPorts]; rfl

/-! Steps 10 and 11. -/

/-- A channel after the channels' firmware has been loaded, or has failed to load. -/
theorem chanOf_loadAll (d : Dev) (v : Bool) (n ch : Nat) :
    chanOf ((upto n).foldl (fun d ch => setChannel d ch { chanOf d ch with fw := v }) d) ch =
      if ch < n then { chanOf d ch with fw := v } else chanOf d ch := by
  induction n with
  | zero => simp [upto]
  | succ n ih =>
    rw [upto, List.range_succ, List.foldl_append, List.foldl_cons, List.foldl_nil, chanOf_setChannel, ← upto]
    by_cases h : ch = n
    · subst h
      rw [if_pos rfl, ih, if_neg (Nat.lt_irrefl _), if_pos (Nat.lt_succ_self _)]
    · have hlt : ch < n + 1 ↔ ch < n := by omega
      rw [if_neg h, ih]; simp only [hlt]

theorem writePkg_reports (d : Dev) (b : BootIn) : Reports d (writePkg d b) := by
  unfold writePkg
  extract_lets
  exact ((setReg_reports _ _ _).trans (setReg_reports _ _ _)).trans (setReg_reports _ _ _)

/-- PKG.VARIANT names the descriptor's code. -/
theorem writePkg_code (d : Dev) (b : BootIn) : fld (regRaw (writePkg d b) (regOff 5 5 0 0)) 7 0 = b.code % 256 := by
  unfold writePkg
  extract_lets
  rw [regRaw_setReg_other _ _ _ (by decide), regRaw_setReg_other _ _ _ (by decide), regRaw_setReg_same, fld, BitVec.toNat_ofNat]
  omega

/-- A walk over a list whose every step only reports. -/
theorem Reports.foldl {α : Type} (l : List α) (f : Dev → α → Dev) (h : ∀ d x, Reports d (f d x)) (d : Dev) :
    Reports d (l.foldl f d) := by
  induction l generalizing d with
  | nil => exact .refl d
  | cons x l ih => exact (h d x).trans (ih (f d x))

theorem tellFailed_reports (d : Dev) (b : BootIn) : Reports d (tellFailed d b) :=
  (Reports.foldl _ _ (fun d c => healthEvent_reports d 1 c 0 0) d).trans
    (Reports.foldl _ _ (fun d n => healthEvent_reports d 1 (n / 4) n 1) _)

theorem regRaw_foldl {α : Type} (o : Nat) (l : List α) (f : Dev → α → Dev)
    (h : ∀ d x, regRaw (f d x) o = regRaw d o) (d : Dev) :
    regRaw (l.foldl f d) o = regRaw d o := by
  induction l generalizing d with
  | nil => rfl
  | cons x l ih => rw [List.foldl_cons, ih, h]

theorem regRaw_tellFailed (d : Dev) (b : BootIn) {o : Nat} (h : o ∉ healthRegs) : regRaw (tellFailed d b) o = regRaw d o :=
  (regRaw_foldl o _ _ (fun d n => regRaw_healthEvent_other d 1 (n / 4) n 1 h) _).trans
    (regRaw_foldl o _ _ (fun d c => regRaw_healthEvent_other d 1 c 0 0 h) d)

/-- What steps 10 and 11 leave behind them: the channels, PKG.VARIANT, the ready chime, READY last in the queue. -/
structure Ready (d e : Dev) (b : BootIn) : Prop where
  view : bootView e = (bootView d).reach 11
  code : fld (regRaw e (regOff 5 5 0 0)) 7 0 = b.code % 256
  channels : ∀ ch, ch < 48 → (chanOf e ch).fw = !bothFail b.chan
  chime : Chimed e 4736
  told : ∃ q n, e.mg.queue =
    q ++ [⟨n, .ready (regVal e (regOff 5 5 0 0)) (regVal e (regOff 5 5 0 1)) (regVal e bootOff)⟩]

theorem bootReady_ready (d : Dev) (b : BootIn) : Ready d (bootReady d b) b := by
  unfold bootReady
  extract_lets d1 d2 d3 d4 d5
  generalize he : mgtQueue d5 _ = e
  have hreg : ∀ o, o ∉ chimeRegs 4737 → regRaw e o = regRaw d4 o := by
    intro o ho
    rw [← he, regRaw_mgtQueue]
    unfold d5; split
    · exact regRaw_raiseChime_other _ _ ho
    · rfl
  have h5 : Reports d4 d5 := by
    unfold d5; split
    · exact raiseChime_reports _ _
    · exact .refl _
  have h3 : Reports (setStep (writePkg d2 b) 11) e :=
    ((tellFailed_reports _ b).trans (raiseChime_reports _ 4736)).trans (h5.trans (he ▸ mgtQueue_reports _ _))
  have hstage : ∀ o, o ∉ chimeRegs 4737 → o ∉ chimeRegs 4736 → o ∉ healthRegs →
      regRaw e o = regRaw (setStep (writePkg d2 b) 11) o := fun o h h' h'' => by
    rw [hreg o h, regRaw_raiseChime_other _ _ h', regRaw_tellFailed _ _ h'']
  constructor
  case view =>
    rw [bootView_reports h3 (hstage _ (by decide) (by decide) (by decide)), bootView_setStep, bootView_writePkg,
      bootView_foldl _ _ fun d ch _ => bootView_setChannel d ch _, bootView_startAll]
    rfl
  case code =>
    rw [hstage _ (by decide) (by decide) (by decide), setStep, setRegFld, regRaw_setReg_other _ _ _ (by decide), writePkg_code]
  case channels =>
    intro ch hch
    obtain ⟨-, -, -, -, hchan, -⟩ := (((writePkg_reports d2 b).trans (setReg_reports _ _ _)).trans h3).fields
    rw [chanOf, hchan, ← chanOf, chanOf_loadAll, if_pos hch]
  case chime =>
    rw [Chimed, flag, hreg _ (by decide)]
    exact chimed_raiseChime d3 4736 (by decide) (by decide)
  case told =>
    have hval : ∀ o, regVal e o = regVal d5 o := fun o => by simp only [← he, regVal, regRaw, mgtQueue_rg]
    simp only [hval]
    exact ⟨_, _, he ▸ mgtQueue_queue _ _⟩

/-! Recovery, and the stages of a boot that starts. -/

/-- The package is in recovery at a step: the rails are off, and a health event tells it (19 R575, R589). -/
structure InRecovery (e : Dev) (n : Nat) : Prop where
  step : fld (regRaw e bootOff) 3 0 = n
  recovery : bit (regRaw e bootOff) 4 = true
  off : e.pw.on = false
  flagged : flag e (mgtOff 3) 0 = true
  last : regRaw e (mgtOff 2) = BitVec.ofNat 32 (0x10 + 5 * 256)

theorem enterRecovery_inRecovery (d : Dev) {n : Nat} (hn : n < 16) : InRecovery (enterRecovery d n) n := by
  have h := bootView_enterRecovery d n
  constructor
  case step => exact (congrArg BootView.step h).trans (Nat.mod_eq_of_lt hn)
  case recovery => exact congrArg BootView.recovery h
  case off => exact congrArg (·.pw.on) h
  case flagged => exact healthEvent_flag _ _ _ _ _
  case last => exact healthEvent_last _ _ _ _ _

/-- BOOT with the waystation's power, from a step before 3 and not in recovery. -/
structure BootStarts (d : Dev) : Prop where
  power : d.pw.vpm = true
  votes : (bootView d).votes = {}
  calm : regFld d bootOff 4 4 = 0
  early : bootStep d < 3

/-- A package that has entered recovery shows it. -/
theorem calm_enterRecovery {d : Dev} (hv : (bootView d).votes = {}) (n : Nat) : regFld (enterRecovery d n) bootOff 4 4 = 1 := by
  have h := bootView_enterRecovery d n
  rw [recovery_view (by rw [h]; exact hv), h]; rfl

section Stages

variable {d : Dev} {b : BootIn} (h : BootStarts d) (hw : bothFail b.ws = false)
include h hw

/-- After steps 2 and 3 with an image of the waystation boot is not in recovery. -/
theorem calm_bootEarly : regFld (bootEarly d b) bootOff 4 4 = 0 := by
  have he := bootView_bootEarly d b h.votes hw
  have hc := h.calm
  rw [recovery_view h.votes] at hc
  rw [recovery_view (by rw [he]; exact h.votes), he]; exact hc

theorem bootStep_bootEarly : bootStep (bootEarly d b) = 3 := by
  have he := bootView_bootEarly d b h.votes hw
  rw [bootStep_view (by rw [he]; exact h.votes), he]; rfl

theorem holdup_bootEarly : (bootEarly d b).pw.holdup = d.pw.holdup :=
  congrArg (·.pw.holdup) (bootView_bootEarly d b h.votes hw)

variable (hd : b.descOk = true) (hf : b.floorOk = true)
include hd hf

/-- The view at step 4. -/
theorem bootView_railsUp : bootView (bootRails (bootEarly d b) b) = (((bootView d).early b).reach 3).rails b := by
  rw [bootView_bootRails _ b hd hf, bootView_bootEarly d b h.votes hw]

theorem calm_railsUp : regFld (bootRails (bootEarly d b) b) bootOff 4 4 = 0 := by
  have hr := bootView_railsUp h hw hd hf
  have hc := h.calm
  rw [recovery_view h.votes] at hc
  rw [recovery_view (by rw [hr]; exact h.votes), hr]; exact hc

end Stages

/-- Recovery as the obligation states it. -/
theorem InRecovery.reached {s : State} {b : BootIn} {e : Dev} {n : Nat} (hc : Completes (.boot b) s e) (h : InRecovery e n) :
    ∃ e, Completes (.boot b) s e ∧ fld (regRaw e bootOff) 3 0 = n ∧ bit (regRaw e bootOff) 4 = true ∧ e.pw.on = false ∧
      flag e (mgtOff 3) 0 = true ∧ regRaw e (mgtOff 2) = BitVec.ofNat 32 (0x10 + 5 * 256) :=
  ⟨e, hc, h.step, h.recovery, h.off, h.flagged, h.last⟩

/-! The ways through BOOT. -/

theorem BootStarts.not_past {d : Dev} (h : BootStarts d) : ¬ 4 < bootStep d := by
  have := h.early; omega

section Paths

variable {s : State} {b : BootIn}

theorem completes_boot {e : Dev} : Completes (.boot b) s e ↔ execBoot b s = .next { s with dev := e } := Iff.rfl

theorem boot_without_power (h : s.dev.pw.vpm = false) : Completes (.boot b) s s.dev := by
  simp [completes_boot, execBoot, act, h]

/-- With no image of the waystation boot ends in recovery at step 3. -/
theorem boot_waystation_recovery (h : BootStarts s.dev) (hw : bothFail b.ws = true) :
    ∃ x, Completes (.boot b) s (enterRecovery x 3) := by
  obtain ⟨x, hx, he⟩ := bootEarly_recovery s.dev b h.votes hw
  exact ⟨x, by simp [completes_boot, execBoot, act, h.power, h.calm, h.early, h.not_past, he, calm_enterRecovery hx 3]⟩

variable (h : BootStarts s.dev) (hw : bothFail b.ws = false)
include h hw

/-- HOLDUP# holds boot before the rails. -/
theorem boot_held (hh : s.dev.pw.holdup = true) : Completes (.boot b) s (bootEarly s.dev b) := by
  simp [completes_boot, execBoot, act, h.power, h.calm, h.early, h.not_past, calm_bootEarly h hw, bootStep_bootEarly h hw,
    holdup_bootEarly h hw, hh]

variable (hh : s.dev.pw.holdup = false)
include hh

/-- With a descriptor or floor record that fails boot ends in recovery at step 4. -/
theorem boot_rails_recovery (hdf : b.descOk = false ∨ b.floorOk = false) :
    ∃ x, Completes (.boot b) s (enterRecovery x 4) := by
  obtain ⟨x, hx, he⟩ := bootRails_recovery (bootEarly s.dev b) b hdf
  have hv : (bootView x).votes = {} := by rw [hx, bootView_bootEarly _ b h.votes hw]; exact h.votes
  exact ⟨x, by simp [completes_boot, execBoot, act, h.power, h.calm, h.early, h.not_past, calm_bootEarly h hw,
    bootStep_bootEarly h hw, holdup_bootEarly h hw, hh, he, calm_enterRecovery hv 4]⟩

variable (hd : b.descOk = true) (hf : b.floorOk = true)
include hd hf

/-- Without ROOTCLK boot waits at step 4. -/
theorem boot_without_rootclk (hc : b.rootclk = false) :
    Completes (.boot b) s (healthEvent (bootRails (bootEarly s.dev b) b) 3 5 0 0) := by
  simp [completes_boot, execBoot, act, h.power, h.calm, h.early, h.not_past, calm_bootEarly h hw, bootStep_bootEarly h hw,
    holdup_bootEarly h hw, hh, calm_railsUp h hw hd hf, hc]

variable (hc : b.rootclk = true)
include hc

/-- With no image of the host cores boot ends in recovery at step 9. -/
theorem boot_core_recovery (hcore : bothFail b.core = true) : ∃ x, Completes (.boot b) s (enterRecovery x 9) :=
  ⟨healthEvent (bootUnits (bootRails (bootEarly s.dev b) b) b) 0x0C 5 5 0, by
    simp [completes_boot, execBoot, act, h.power, h.calm, h.early, h.not_past, calm_bootEarly h hw, bootStep_bootEarly h hw,
      holdup_bootEarly h hw, hh, calm_railsUp h hw hd hf, hc, hcore]⟩

/-- With all that it needs boot reaches step 11, with what each of its stages has left behind. -/
theorem boot_ready (hcore : bothFail b.core = false) :
    ∃ x e, Completes (.boot b) s e ∧ Ready x e b ∧
      bootView e = ((((bootView s.dev).early b).reach 3).rails b).reach 11 := by
  have hready := bootReady_ready (setStep (startAll (bootUnits (bootRails (bootEarly s.dev b) b) b) 3 b.core) 9) b
  refine ⟨_, _, ?_, hready, ?_⟩
  · simp [completes_boot, execBoot, act, h.power, h.calm, h.early, h.not_past, calm_bootEarly h hw, bootStep_bootEarly h hw,
      holdup_bootEarly h hw, hh, calm_railsUp h hw hd hf, hc, hcore]
  · rw [hready.view, bootView_setStep, bootView_startAll, bootView_bootUnits, bootView_railsUp h hw hd hf]; rfl

end Paths

end Sys2Proof.Machine
end

section
/-! PROOFS. The obligation on boot. -/

open Sys2Proof Sys2Proof.Machine

/-- Settles O53: each stage of boot is an equation on what boot has reached (`BootView`), and each way through BOOT takes the
stages that its findings let it take. -/
theorem bootRuns : Obligations.BootRuns := by
  unfold Obligations.BootRuns
  intro s b
  refine ⟨boot_without_power, fun hp hv hcalm hstep => ?_⟩
  have h : BootStarts s.dev := ⟨hp, hv, hcalm, hstep⟩
  refine ⟨fun hw => ?_, fun hw hh => ?_, fun hw hh =>
    ⟨fun hdf => ?_, fun hd hf => ⟨fun hc => ?_, fun hc hcore => ?_, fun hc hcore => ?_⟩⟩⟩
  · obtain ⟨x, hx⟩ := boot_waystation_recovery h hw
    exact (enterRecovery_inRecovery x (by decide)).reached hx
  · have hview := bootView_bootEarly s.dev b h.votes hw
    exact ⟨_, boot_held h hw hh, congrArg BootView.step hview, congrArg (·.pw.on) hview⟩
  · obtain ⟨x, hx⟩ := boot_rails_recovery h hw hh hdf
    exact (enterRecovery_inRecovery x (by decide)).reached hx
  · have hview := (bootView_healthEvent _ 3 5 0 0).trans (bootView_railsUp h hw hd hf)
    exact ⟨_, boot_without_rootclk h hw hh hd hf hc, congrArg BootView.step hview, congrArg (·.pw.on) hview,
      healthEvent_last _ _ _ _ _⟩
  · obtain ⟨x, hx⟩ := boot_core_recovery h hw hh hd hf hc hcore
    exact (enterRecovery_inRecovery x (by decide)).reached hx
  · obtain ⟨x, e, hrun, hready, hview⟩ := boot_ready h hw hh hd hf hc hcore
    rw [bootStep_view h.votes]
    exact ⟨e, hrun, congrArg BootView.step hview, congrArg (·.pw.on) hview, congrArg BootView.boots hview,
      congrArg (·.pw.lastStop) hview, congrArg BootView.variant hview, congrArg BootView.straps hview, hready.code,
      congrArg (·.pw.op) hview, congrArg BootView.ident hview, congrArg BootView.trims hview, hready.channels, hready.chime,
      hready.told⟩

end

section
/-! SUPPORT. A command as its effect on the package; what a stream does as it starts an instruction (02 R38; 03 R69, R75). -/

namespace Sys2Proof.Machine

open Parts

variable {s : State} {c : Instr} {q : Nat} {op : Op} {w : Word64} {imms : List Word64}

/-- A command whose meaning is an effect on the package completes with that effect. -/
theorem completes_of_act {f : Dev → Dev} {e : Dev} (hc : exec c s = act s f) (he : f s.dev = e) : Completes c s e :=
  he ▸ hc

/-- A stream that starts an instruction which its command takes: the instruction's effect, and the trace of a start. -/
theorem issueStream_starts {d : Dev} (h : Starts d q op w imms) {sel : Op → Bool} (hs : sel op = true)
    (f : Dev → Op → Word64 → List Word64 → Nat → Dev) :
    issueStream q sel d f = started d q w (f d op w imms (1 + wExt w)) := by
  obtain ⟨hc, hw⟩ := h
  simp [issueStream, hc, hw, hs, started]

/-- A stream's command completes with the effect of the instruction that the stream starts. -/
theorem completes_stream {sel : Op → Bool} {f : Dev → Op → Word64 → List Word64 → Nat → Dev} {e : Dev}
    (hc : exec c s = act s fun d => issueStream q sel d f) (h : Starts s.dev q op w imms) (hs : sel op = true)
    (he : f s.dev op w imms (1 + wExt w) = e) : Completes c s (started s.dev q w e) :=
  completes_of_act hc (he ▸ issueStream_starts h hs f)

end Sys2Proof.Machine
end

section
/-! SUPPORT. The instructions that control a stream (02 R38, R40 to R43, R50; 09 R297 to R299). -/

namespace Sys2Proof.Machine

open Parts

variable {s : State} {q : Nat} {w : Word64} {imms : List Word64}

theorem completes_ctlNop (h : Starts s.dev q .ctlNop w imms) :
    Completes (.ctlNop q) s (started s.dev q w (retireInstr s.dev q (1 + wExt w))) :=
  completes_stream rfl h rfl rfl

theorem completes_cfgFence (h : Starts s.dev q .cfgFence w imms) :
    Completes (.cfgFence q) s
      (started s.dev q w (setQueue s.dev q { queueOf s.dev q with state := .wait, wait := .cfgFence })) :=
  completes_stream rfl h rfl rfl

theorem completes_cfgFenceRetire (hw : (queueOf s.dev q).wait = .cfgFence) (hs : (queueOf s.dev q).state = .wait)
    (ha : (queueOf s.dev q).cfg.all (cfgApplied s.dev) = true) :
    Completes (.cfgFenceRetire q) s (retireInstr (setQueue s.dev q { queueOf s.dev q with cfg := [] }) q 1) := by
  change execCfgFenceRetire q s = _
  simp [execCfgFenceRetire, act, hw, hs, ha]

section Complete

variable (h : Starts s.dev q .ctlComplete w imms)
include h

/-- `ctl.complete` with an address that is not aligned. -/
theorem ctlComplete_misaligned (ha : (imms.headD 0).toNat % 32 ≠ 0) :
    Completes (.ctlComplete q) s (started s.dev q w (refuseState s.dev q (1 + wExt w))) :=
  completes_stream rfl h rfl (if_pos ha)

variable {e : Dev} (ha : (imms.headD 0).toNat % 32 = 0)
include ha

/-- `ctl.complete` with an address that does not translate. -/
theorem ctlComplete_untranslated {k st : Nat}
    (ht : translate s.dev (.stream (queueCd q)) (queueSpace s.dev q) ((imms.headD 0).toNat % vaMod) .write =
      (e, .cause k st)) :
    Completes (.ctlComplete q) s (started s.dev q w (refuseState e q (1 + wExt w))) :=
  completes_stream rfl h rfl ((if_neg fun hn => hn ha).trans (by rw [ht]))

variable {pa : Nat}
  (ht : translate s.dev (.stream (queueCd q)) (queueSpace s.dev q) ((imms.headD 0).toNat % vaMod) .write = (e, .ok pa))
include ht

/-- `ctl.complete` with an address at which no record may be written. -/
theorem ctlComplete_refused (hr : recordTarget e q pa = false) :
    Completes (.ctlComplete q) s (started s.dev q w (refuseState e q (1 + wExt w))) :=
  completes_stream rfl h rfl ((if_neg fun hn => hn ha).trans (by simp only [ht, hr, Bool.not_false, if_true]))

/-- `ctl.complete` writes its record. -/
theorem ctlComplete_written (hr : recordTarget e q pa = true) :
    let f := writeAt e pa (completionBytes e q (fld w 42 42)) false
    let f := setQueue f q { queueOf f q with accum := 0, seq := (queueOf f q).seq + 1 }
    Completes (.ctlComplete q) s
      (started s.dev q w (retireInstr (if bit w 0 then raiseChime f q else f) q (1 + wExt w))) :=
  completes_stream rfl h rfl ((if_neg fun hn => hn ha).trans
    (by simp only [ht, hr, Bool.not_true, Bool.false_eq_true, if_false]))

end Complete

section Set

/-- The register that `cfg.set` names. -/
def cfgSetOff (w : Word64) : Nat := fld w 31 0

/-- The value that `cfg.set` writes. -/
def cfgSetValue (imms : List Word64) : Word32 := (imms.headD 0).setWidth 32

/-- The bits that `cfg.set` writes. -/
def cfgSetMask (imms : List Word64) : Word32 := ((imms.headD 0) >>> 32).setWidth 32

variable (h : Starts s.dev q .cfgSet w imms) (keep : Word32)
include h

/-- `cfg.set` of absent hardware. -/
theorem cfgSet_absent (ha : writeAbsent s.dev (attempt s.dev (cfgSetOff w) (cfgSetValue imms) (cfgSetMask imms)) = true) :
    Completes (.cfgSet q keep) s (started s.dev q w (retireWith s.dev q (1 + wExt w) stAbsent)) :=
  completes_stream rfl h rfl (if_pos ha)

variable (ha : writeAbsent s.dev (attempt s.dev (cfgSetOff w) (cfgSetValue imms) (cfgSetMask imms)) = false)
include ha

/-- `cfg.set` of a register of another partition. -/
theorem cfgSet_notOwned (hp : qPart s.dev q ≠ 0) (ho : regOwnedBy s.dev (cfgSetOff w) (qPart s.dev q) = false) :
    Completes (.cfgSet q keep) s (started s.dev q w (refuseState s.dev q (1 + wExt w))) :=
  completes_stream rfl h rfl ((if_neg (Bool.eq_false_iff.1 ha)).trans (if_pos ⟨hp, congrArg not ho⟩))

variable (ho : qPart s.dev q = 0 ∨ regOwnedBy s.dev (cfgSetOff w) (qPart s.dev q) = true)
include ho

omit h ha in
/-- The test for a register of another partition does not refuse one of the queue's own. -/
theorem cfgSet_owned : ¬ (qPart s.dev q ≠ 0 ∧ (!regOwnedBy s.dev (cfgSetOff w) (qPart s.dev q)) = true) := by
  rintro ⟨hp, hr⟩
  rcases ho with h | h
  · exact hp h
  · simp [h] at hr

/-- `cfg.set` that would open a convoy of a channel of another partition. -/
theorem cfgSet_opensForeign
    (hf : opensForeign s.dev q (attempt s.dev (cfgSetOff w) (cfgSetValue imms) (cfgSetMask imms)) = true) :
    Completes (.cfgSet q keep) s (started s.dev q w (refuseState s.dev q (1 + wExt w))) :=
  completes_stream rfl h rfl ((if_neg (Bool.eq_false_iff.1 ha)).trans ((if_neg (cfgSet_owned ho)).trans (if_pos hf)))

variable (hf : opensForeign s.dev q (attempt s.dev (cfgSetOff w) (cfgSetValue imms) (cfgSetMask imms)) = false)
include hf

/-- `cfg.set` of a doorbell. -/
theorem cfgSet_doorbell (hd : isDoorbell (cfgSetOff w) = true) :
    Completes (.cfgSet q keep) s (started s.dev q w
      (retireInstr (doorbell s.dev (offQueue (cfgSetOff w)) .stream (fld (cfgSetValue imms) 15 0)) q (1 + wExt w))) :=
  completes_stream rfl h rfl ((if_neg (Bool.eq_false_iff.1 ha)).trans ((if_neg (cfgSet_owned ho)).trans
    ((if_neg (Bool.eq_false_iff.1 hf)).trans (if_pos hd))))

variable (hd : isDoorbell (cfgSetOff w) = false)
include hd

/-- `cfg.set` that its register refuses. -/
theorem cfgSet_refused (hr : (regRetired s.dev (cfgSetOff w) ||
      writeRefused s.dev (attempt s.dev (cfgSetOff w) (cfgSetValue imms) (cfgSetMask imms))) = true) :
    Completes (.cfgSet q keep) s (started s.dev q w (refuseState s.dev q (1 + wExt w))) :=
  completes_stream rfl h rfl ((if_neg (Bool.eq_false_iff.1 ha)).trans ((if_neg (cfgSet_owned ho)).trans
    ((if_neg (Bool.eq_false_iff.1 hf)).trans ((if_neg (Bool.eq_false_iff.1 hd)).trans (if_pos hr)))))

/-- `cfg.set` stores its bits, and the queue notes those that are buffered. -/
theorem cfgSet_stored (hr : (regRetired s.dev (cfgSetOff w) ||
      writeRefused s.dev (attempt s.dev (cfgSetOff w) (cfgSetValue imms) (cfgSetMask imms))) = false)
    {row : RegRow} (hrow : regRow? (cfgSetOff w) = some row) :
    let bits := cfgSetMask imms &&& BitVec.ofNat 32 (row.rwb ||| row.rov)
    let e := storeReg s.dev (cfgSetOff w) (cfgSetValue imms) (cfgSetMask imms &&& ~~~ (keep &&& clearable (cfgSetOff w)))
    Completes (.cfgSet q keep) s (started s.dev q w (retireInstr (if bits = 0 then e else
      setQueue e q { queueOf e q with cfg := (queueOf e q).cfg ++ [⟨cfgSetOff w, bits⟩] }) q (1 + wExt w))) :=
  completes_stream rfl h rfl ((if_neg (Bool.eq_false_iff.1 ha)).trans ((if_neg (cfgSet_owned ho)).trans
    ((if_neg (Bool.eq_false_iff.1 hf)).trans ((if_neg (Bool.eq_false_iff.1 hd)).trans
      ((if_neg (Bool.eq_false_iff.1 hr)).trans (by simp only [cfgSetOff] at hrow ⊢; simp only [hrow]; rfl))))))

end Set

section Launch

variable (h : Starts s.dev q .launch w imms) (hn : holdsNew s.dev = false) (hu : postedUpdates s.dev q = false)
  (hg : cdFitted s.dev.variant (gongCd (launchOf s.dev q w imms).gong) = true)
include h hn hu hg

/-- `blk.launch` of a FIXED launch that names a tile it may not name. -/
theorem blkLaunch_refused (hx : (launchOf s.dev q w imms).fixed = true)
    (ht : ∃ t ∈ namedTiles (launchOf s.dev q w imms), mayName s.dev q t = false) :
    Completes (.blkLaunch q) s (started s.dev q w (refuseState s.dev q (1 + wExt w))) :=
  completes_stream rfl h rfl (by simp [hn, hu, hg, hx, ht])

/-- `blk.launch` of tiles that it may name, or of any. -/
theorem blkLaunch_placing (ht : (launchOf s.dev q w imms).fixed = true →
      ∀ t ∈ namedTiles (launchOf s.dev q w imms), mayName s.dev q t = true) :
    let p := dispOf s.dev (queueCd q)
    let e := setDisp s.dev (queueCd q) { p with nextLaunch := p.nextLaunch + 1 }
    Completes (.blkLaunch q) s (started s.dev q w
      (setQueue e q { queueOf e q with wait := .launch, launch := some (launchOf s.dev q w imms) })) :=
  have hall : ¬ ((launchOf s.dev q w imms).fixed && !(namedTiles (launchOf s.dev q w imms)).all (mayName s.dev q)) = true := by
    simpa using ht
  completes_stream rfl h rfl ((if_neg (by simp [hn, hu])).trans ((if_neg (by simp [hg])).trans (if_neg hall)))

end Launch

/-- A word that is no instruction of a stream holds its queue. -/
theorem reservedOpcode_stream (hc : canStart s.dev q = true) (hw : streamWord (queueOf s.dev q) = none) :
    Completes (.reservedOpcode (.stream q)) s (holdQueue s.dev q 4) := by
  change execReservedOpcode (.stream q) s = _
  simp [execReservedOpcode, act, hc, hw]

/-- A word that is no instruction of a thread faults the block of the path that would issue it. -/
theorem reservedOpcode_thread {r : PathRef} {g₀ g : Group} {p₀ p : Path} {b : Block}
    (hg : groupAt (tileOf s.dev r.cd r.tile) r.slot = some g₀) (hp : pathOf g₀ r.lane = some p₀)
    (hb : blockOf (tileOf s.dev r.cd r.tile) g₀.blk = some b) (hm : mayIssue s.dev r.cd (tileOf s.dev r.cd r.tile) b = true)
    (hf : fetched (tileOf s.dev r.cd r.tile) b p₀.pc = .word w) (hw : decodeThread w = none)
    (hi : issuingPath (tileOf s.dev r.cd r.tile) g₀ r.slot w p₀ = some (g, p)) :
    Completes (.reservedOpcode (.thread r)) s
      (blockFault s.dev r.cd r.tile b.id r.slot (leader p) p.pc stIllegal none) := by
  change execReservedOpcode (.thread r) s = _
  simp [execReservedOpcode, act, issueBad, hg, hp, hb, hm, hf, hw, hi]

end Sys2Proof.Machine
end

section
/-! PROOFS. The obligation on the control instructions of streams. -/

open Sys2Proof Sys2Proof.Machine

/-- Settles O19, case by case of each command: every case is the effect of the instruction that the stream starts. -/
theorem streamControl : Obligations.StreamControl := by
  unfold Obligations.StreamControl
  intro s q w imms
  refine ⟨completes_ctlNop, fun h => ⟨ctlComplete_misaligned h, fun e ha =>
      ⟨fun _ _ ht => ctlComplete_untranslated h ha ht, fun pa ht => ⟨ctlComplete_refused h ha ht, ctlComplete_written h ha ht⟩⟩⟩,
    fun h keep => ⟨cfgSet_absent h keep, fun ha => ⟨cfgSet_notOwned h keep ha, cfgSet_opensForeign h keep ha,
      fun ho hf => ⟨cfgSet_doorbell h keep ha ho hf, fun hd =>
        ⟨cfgSet_refused h keep ha ho hf hd, fun hr _ => cfgSet_stored h keep ha ho hf hd hr⟩⟩⟩⟩,
    completes_cfgFence, completes_cfgFenceRetire,
    fun h hn hu hg => ⟨blkLaunch_refused h hn hu hg, blkLaunch_placing h hn hu hg⟩,
    reservedOpcode_stream, fun _ _ _ _ _ _ => reservedOpcode_thread⟩

end

section
/-! SUPPORT. Traces, tiles, blocks and groups: what an update leaves as it was, and what is read after it. -/

namespace Sys2Proof.Machine.Sparse

variable {α : Type}

/-- What is found at a key is listed there. -/
theorem mem_of_find? {m : List (Nat × α)} {a : Nat} {v : α} (h : find? m a = some v) : (a, v) ∈ m := by
  induction m with
  | nil => simp [find?] at h
  | cons e m ih =>
    obtain ⟨k, u⟩ := e
    simp only [find?] at h
    split at h
    · cases h; subst_vars; exact List.mem_cons_self
    · exact List.mem_cons_of_mem _ (ih h)

/-- A map whose entries are changed in place. -/
theorem find?_mapVal (f : α → α) (g : Nat × α → Nat × α) (hg : ∀ e, g e = (e.1, f e.2)) (m : List (Nat × α)) (a : Nat) :
    find? (m.map g) a = (find? m a).map f := by
  induction m with
  | nil => rfl
  | cons e m ih =>
    simp only [List.map_cons, hg, find?]
    split
    · rfl
    · exact ih

/-- A table of a function's values with its defaults left out reads as the function. -/
theorem get_filterMap [DecidableEq α] (dflt f : Nat → α) (ls : List Nat) (a : Nat) (ha : a ∈ ls) :
    get dflt (ls.filterMap fun l => if f l = dflt l then none else some (l, f l)) a = f a := by
  have absent : ∀ ls : List Nat, f a = dflt a →
      find? (ls.filterMap fun l => if f l = dflt l then none else some (l, f l)) a = none := by
    intro ls hd
    induction ls with
    | nil => rfl
    | cons l ls ih =>
      by_cases hl : f l = dflt l
      · simpa [hl] using ih
      · have : a ≠ l := fun h => hl (h ▸ hd)
        simpa [hl, find?, this] using ih
  by_cases hd : f a = dflt a
  · rw [get, absent ls hd, hd]; rfl
  · induction ls with
    | nil => cases ha
    | cons l ls ih =>
      by_cases hal : a = l
      · subst hal; simp [hd, get, find?]
      · have ih := ih (by simpa [hal] using ha)
        by_cases hl : f l = dflt l
        · simpa [hl] using ih
        · simpa [hl, get, find?, hal] using ih

end Sys2Proof.Machine.Sparse

namespace Sys2Proof.Machine

open Parts

/-- A trace changes the lost records' register and the trace unit, and nothing else. -/
theorem trace_frame (d : Dev) (die unit inst ev : Nat) (part cls : Option Nat) (w2 w3 : Nat) :
    ∃ val tr, trace d die unit inst ev part cls w2 w3 = { d with rg := { d.rg with val := val }, tr := tr } := by
  unfold trace
  split
  · exact ⟨_, _, rfl⟩
  · dsimp only
    split <;> exact ⟨_, _, rfl⟩

@[simp] theorem queueOf_trace (d : Dev) (die unit inst ev : Nat) (part cls : Option Nat) (w2 w3 q : Nat) :
    queueOf (trace d die unit inst ev part cls w2 w3) q = queueOf d q := by
  obtain ⟨_, _, h⟩ := trace_frame d die unit inst ev part cls w2 w3
  rw [h]; rfl

@[simp] theorem tileOf_trace (d : Dev) (die unit inst ev : Nat) (part cls : Option Nat) (w2 w3 c t : Nat) :
    tileOf (trace d die unit inst ev part cls w2 w3) c t = tileOf d c t := by
  obtain ⟨_, _, h⟩ := trace_frame d die unit inst ev part cls w2 w3
  rw [h]; rfl

/-- The block found under a number has that number. -/
theorem blockOf_id {x : Tile} {id : Nat} {b : Block} (h : blockOf x id = some b) : b.id = id := by
  simpa using List.find?_some h

/-- A stored block is found under its number, where one stood. -/
theorem blockOf_setBlock_same {x : Tile} {b c : Block} (h : blockOf x b.id = some c) : blockOf (setBlock x b) b.id = some b := by
  have hid : ((fun z : Block => z.id == b.id) ∘ fun z => if z.id = b.id then b else z) = fun z => z.id == b.id := by
    funext z
    by_cases hz : z.id = b.id <;> simp [hz]
  have hc : c.id = b.id := blockOf_id h
  rw [blockOf] at h
  rw [blockOf, setBlock, List.find?_map, hid, h, Option.map_some, if_pos hc]

@[simp] theorem setGroup_nextBlk (x : Tile) (s : Nat) (g : Group) : (setGroup x s g).nextBlk = x.nextBlk := rfl

end Sys2Proof.Machine
end

section
/-! SUPPORT. Placement of blocks (02 R41, R42). -/

namespace Sys2Proof.Machine

open Parts

/-! The tile with the most room. -/

/-- One step of the search for the candidate with the most room. -/
def pickStep (ok : Nat → Bool) (room : Nat → Nat) (best : Option Nat) (t : Nat) : Option Nat :=
  if !ok t then best
  else match best with
    | none => some t
    | some b => if room b < room t then some t else best

/-- Of the candidates below `n`, `t` has the most room, and is the lowest with as much. -/
def MostRoom (ok : Nat → Bool) (room : Nat → Nat) (n t : Nat) : Prop :=
  t < n ∧ ok t = true ∧ ∀ u < n, ok u = true → room u ≤ room t ∧ (room u = room t → t ≤ u)

theorem MostRoom.unique {ok : Nat → Bool} {room : Nat → Nat} {n t u : Nat} (ht : MostRoom ok room n t)
    (hu : MostRoom ok room n u) : t = u := by
  obtain ⟨htn, hto, ht⟩ := ht
  obtain ⟨hun, huo, hu⟩ := hu
  have h1 := ht u hun huo
  have h2 := hu t htn hto
  have hroom := Nat.le_antisymm h1.1 h2.1
  exact Nat.le_antisymm (h1.2 hroom) (h2.2 hroom.symm)

/-- The search finds the candidate with the most room, or there is none. -/
theorem foldl_pickStep (ok : Nat → Bool) (room : Nat → Nat) (n : Nat) :
    (∃ t, (upto n).foldl (pickStep ok room) none = some t ∧ MostRoom ok room n t) ∨
      ((upto n).foldl (pickStep ok room) none = none ∧ ∀ u < n, ok u = false) := by
  induction n with
  | zero => exact .inr ⟨rfl, fun u hu => absurd hu (Nat.not_lt_zero u)⟩
  | succ n ih =>
    have hstep : (upto (n + 1)).foldl (pickStep ok room) none =
        pickStep ok room ((upto n).foldl (pickStep ok room) none) n := by
      simp [upto, List.range_succ]
    rw [hstep]
    cases hn : ok n with
    | false =>
      rcases ih with ⟨t, ht, htn, hto, hm⟩ | ⟨ht, hm⟩
      · refine .inl ⟨t, by simp [pickStep, hn, ht], by omega, hto, fun u hu huo => hm u ?_ huo⟩
        have : u ≠ n := by rintro rfl; simp [hn] at huo
        omega
      · refine .inr ⟨by simp [pickStep, hn, ht], fun u hu => ?_⟩
        rcases Nat.lt_succ_iff_lt_or_eq.1 hu with h | rfl
        · exact hm u h
        · exact hn
    | true =>
      rcases ih with ⟨t, ht, htn, hto, hm⟩ | ⟨ht, hm⟩
      · by_cases hr : room t < room n
        · refine .inl ⟨n, by simp [pickStep, hn, ht, hr], by omega, hn, fun u hu huo => ?_⟩
          rcases Nat.lt_succ_iff_lt_or_eq.1 hu with h | rfl
          · have := (hm u h huo).1
            omega
          · omega
        · refine .inl ⟨t, by simp [pickStep, hn, ht, hr], by omega, hto, fun u hu huo => ?_⟩
          rcases Nat.lt_succ_iff_lt_or_eq.1 hu with h | rfl
          · exact hm u h huo
          · omega
      · refine .inl ⟨n, by simp [pickStep, hn, ht], by omega, hn, fun u hu huo => ?_⟩
        rcases Nat.lt_succ_iff_lt_or_eq.1 hu with h | rfl
        · simp [hm u h] at huo
        · omega

/-- ANY placement takes the qualifying tile with the most free slots, the lowest among equals. -/
theorem anyTile_eq {d : Dev} {q n t : Nat}
    (h : MostRoom (tileQualifies d q · n) (fun u => (freeSlots (tileOf d (queueCd q) u)).length) 180 t) :
    anyTile d q n = some t := by
  have hfold : anyTile d q n = (upto 180).foldl
      (pickStep (tileQualifies d q · n) fun u => (freeSlots (tileOf d (queueCd q) u)).length) none := rfl
  rw [hfold]
  rcases foldl_pickStep (tileQualifies d q · n) (fun u => (freeSlots (tileOf d (queueCd q) u)).length) 180 with
    ⟨u, hu, hm⟩ | ⟨-, hm⟩
  · rw [hu, hm.unique h]
  · have := hm t h.1
    simp [h.2.1] at this

/-! The slots that a block takes. -/

/-- A tile whose slots, listed, hold the groups of the block that is placed next, numbered from `i`. -/
def takeSlots (x : Tile) (i : Nat) (slots : List Nat) : Tile :=
  (enumFrom i slots).foldl (fun x e => setGroup x e.2 ⟨x.nextBlk, e.1, [], 0, [], []⟩) x

theorem takeSlots_cons (x : Tile) (i k : Nat) (slots : List Nat) :
    takeSlots x i (k :: slots) = takeSlots (setGroup x k ⟨x.nextBlk, i, [], 0, [], []⟩) (i + 1) slots := rfl

@[simp] theorem takeSlots_blocks (x : Tile) (i : Nat) (slots : List Nat) : (takeSlots x i slots).blocks = x.blocks := by
  induction slots generalizing x i with
  | nil => rfl
  | cons k slots ih => rw [takeSlots_cons, ih]; rfl

theorem groupAt_takeSlots_other (x : Tile) (i : Nat) (slots : List Nat) {k : Nat} (h : k ∉ slots) :
    groupAt (takeSlots x i slots) k = groupAt x k := by
  induction slots generalizing x i with
  | nil => rfl
  | cons j slots ih =>
    obtain ⟨hj, hs⟩ := not_or.1 (mt List.mem_cons.2 h)
    rw [takeSlots_cons, ih _ _ hs, groupAt_setGroup, if_neg hj]

/-- The slot at an index gets the group of that number. -/
theorem groupAt_takeSlots (x : Tile) (i : Nat) (slots : List Nat) (hn : slots.Nodup) {k : Nat} (hk : k < slots.length) :
    groupAt (takeSlots x i slots) slots[k] = some ⟨x.nextBlk, i + k, [], 0, [], []⟩ := by
  induction slots generalizing x i k with
  | nil => exact absurd hk (Nat.not_lt_zero k)
  | cons j slots ih =>
    obtain ⟨hj, hs⟩ := List.nodup_cons.1 hn
    rw [takeSlots_cons]
    cases k with
    | zero => rw [List.getElem_cons_zero, groupAt_takeSlots_other _ _ _ hj, groupAt_setGroup_same]; rfl
    | succ k =>
      rw [List.getElem_cons_succ, ih _ _ hs (Nat.lt_of_succ_lt_succ hk), setGroup_nextBlk]
      simp only [Nat.add_assoc, Nat.add_comm 1]

theorem freeSlots_nodup (x : Tile) : (freeSlots x).Nodup := List.Pairwise.filter _ List.nodup_range

/-- The block that a placement puts on a tile. -/
def placedBlock (d : Dev) (q t i : Nat) (l : Launch) : Block :=
  { id := (tileOf d (queueCd q) t).nextBlk, queue := q, launch := l.id, index := i, count := l.blocks, groups := l.groups,
    arg := l.arg, gong := l.gong, prog := l.prog, cls := l.cls, space := queueSpace d q, part := qPart d q, trap := false,
    status := 0, started := false, faulted := false }

/-- A placed block stands last on its tile. -/
theorem placeBlock_blocks (d : Dev) (q t i : Nat) (l : Launch) :
    (tileOf (placeBlock d q t i l) (queueCd q) t).blocks =
      (tileOf d (queueCd q) t).blocks ++ [placedBlock d q t i l] := by
  rw [placeBlock, tileOf_trace, tileOf_setTile_same]
  exact congrArg (· ++ [_]) (takeSlots_blocks _ _ _)

/-- A placed block has its groups in the lowest free slots of its tile. -/
theorem groupAt_placeBlock (d : Dev) (q t i : Nat) (l : Launch) {k : Nat} (hk : k < l.groups)
    (hroom : l.groups ≤ (freeSlots (tileOf d (queueCd q) t)).length) :
    groupAt (tileOf (placeBlock d q t i l) (queueCd q) t) ((freeSlots (tileOf d (queueCd q) t)).getD k 0) =
      some ⟨(tileOf d (queueCd q) t).nextBlk, k, [], 0, [], []⟩ := by
  have hlen : k < ((freeSlots (tileOf d (queueCd q) t)).take l.groups).length := by
    rw [List.length_take]; omega
  have hslot : (freeSlots (tileOf d (queueCd q) t)).getD k 0 = ((freeSlots (tileOf d (queueCd q) t)).take l.groups)[k] := by
    rw [List.getElem_take, List.getD_eq_getElem?_getD, List.getElem?_eq_getElem (by omega), Option.getD_some]
  have h := groupAt_takeSlots (tileOf d (queueCd q) t) 0 _ ((freeSlots_nodup _).sublist (List.take_sublist l.groups _)) hlen
  rw [Nat.zero_add] at h
  rw [placeBlock, tileOf_trace, tileOf_setTile_same, hslot]
  exact h

theorem queueOf_placeBlock (d : Dev) (q t i : Nat) (l : Launch) (p : Nat) : queueOf (placeBlock d q t i l) p = queueOf d p := by
  rw [placeBlock, queueOf_trace]; rfl

/-- The tile that a block of a launch goes to, if one qualifies. -/
def launchTile (d : Dev) (q i : Nat) (l : Launch) : Option Nat :=
  if l.fixed then (if tileQualifies d q (fixedTile l i) l.groups then some (fixedTile l i) else none)
  else anyTile d q l.groups

theorem tileQualifies_room {d : Dev} {q t n : Nat} (h : tileQualifies d q t n = true) :
    n ≤ (freeSlots (tileOf d (queueCd q) t)).length := by
  simp only [tileQualifies, Bool.and_eq_true, decide_eq_true_eq] at h
  exact h.2

theorem launchTile_eq {d : Dev} {q i t : Nat} {l : Launch} (hq : tileQualifies d q t l.groups = true)
    (hfixed : l.fixed = true → t = fixedTile l i)
    (hany : l.fixed = false → t < 180 ∧ ∀ u < 180, tileQualifies d q u l.groups = true →
      (freeSlots (tileOf d (queueCd q) u)).length ≤ (freeSlots (tileOf d (queueCd q) t)).length ∧
      ((freeSlots (tileOf d (queueCd q) u)).length = (freeSlots (tileOf d (queueCd q) t)).length → t ≤ u)) :
    launchTile d q i l = some t := by
  cases hf : l.fixed with
  | true => simp [launchTile, hf, ← hfixed hf, hq]
  | false => exact (if_neg (by simp [hf])).trans (anyTile_eq ⟨(hany hf).1, hq, (hany hf).2⟩)

/-- A launch with block i placed on tile t: it goes on with its other blocks, or retires. -/
def launchPlaced (d : Dev) (q t i : Nat) (l : Launch) : Dev :=
  let e := placeBlock d q t i l
  if l.blocks ≤ (markPlaced l i).next then retireInstr (setQueue e q { queueOf d q with launch := none }) q 4
  else setQueue e q { queueOf d q with launch := some (markPlaced l i) }

theorem completes_blockPlacement {s : State} {q i t : Nat} {l : Launch} (hl : (queueOf s.dev q).launch = some l)
    (hs : (queueOf s.dev q).state = .run) (hi : i < l.blocks) (hp : isPlaced l i = false)
    (ht : launchTile s.dev q i l = some t) : Completes (.blockPlacement q i) s (launchPlaced s.dev q t i l) := by
  change execBlockPlacement q i s = _
  rw [launchTile] at ht
  simp only [execBlockPlacement, act, hl, hs, hp, Nat.not_le.2 hi, ht, queueOf_placeBlock, launchPlaced, bne_self_eq_false,
    decide_false, Bool.or_self, Bool.false_eq_true, if_false]
  rfl

end Sys2Proof.Machine
end

section
/-! SUPPORT. Start of blocks (04 R120). -/

namespace Sys2Proof.Machine

open Parts

/-- A thread at the start of a block: its number in the block and its lane. -/
def startThread (index l : Nat) : Thread :=
  setTreg (setTreg {} 0 (BitVec.ofNat 32 (32 * index + l)) false) 1 (BitVec.ofNat 32 l) false

theorem threadAt_startGroup (c t : Nat) (b : Block) (index : Nat) {l : Nat} (hl : l < 32) :
    threadAt (startGroup c t b index) l = startThread index l :=
  Sparse.get_filterMap noThread (startThread index) lanes32 l (List.mem_range.2 hl)

theorem treg_startThread (index l n : Nat) :
    treg (startThread index l) n =
      if n = 1 then BitVec.ofNat 32 l else if n = 0 then BitVec.ofNat 32 (32 * index + l) else 0 := by
  simp only [startThread, treg_setTreg]; rfl

@[simp] theorem startThread_p (index l : Nat) : (startThread index l).p = 0 := rfl

/-- The uniform registers of a group at the start of its block. -/
theorem ureg_startGroup (c t : Nat) (b : Block) (index : Nat) :
    let g := startGroup c t b index
    ureg g 0 = b.arg ∧ ureg g 1 = BitVec.ofNat 64 (b.index + b.count * 2 ^ 32) ∧
      ureg g 2 = BitVec.ofNat 64 (t + c * 2 ^ 8 + b.part * 2 ^ 10 + b.groups * 2 ^ 14 + index * 2 ^ 18) ∧
      ureg g 3 = BitVec.ofNat 64 b.queue := by
  simp [startGroup, ureg_setUreg]

@[simp] theorem startGroup_paths (c t : Nat) (b : Block) (index : Nat) :
    (startGroup c t b index).paths = [⟨BitVec.allOnes 32, 0, [], .ready⟩] := rfl

/-- A tile on which a block has started. -/
def startedTile (x : Tile) (c t : Nat) (b : Block) : Tile :=
  { setBlock x { b with started := true } with
    icache := if x.lastLaunch = some b.launch then x.icache else []
    lastLaunch := some b.launch
    slots := x.slots.map fun e => if e.2.blk = b.id then (e.1, startGroup c t b e.2.index) else e }

theorem completes_blockStart {s : State} {cd tile blk : Nat} {b : Block}
    (hb : blockOf (tileOf s.dev cd tile) blk = some b) (hs : b.started = false) :
    Completes (.blockStart cd tile blk) s (setTile s.dev cd tile (startedTile (tileOf s.dev cd tile) cd tile b)) := by
  change execBlockStart cd tile blk s = _
  simp only [execBlockStart, act, hb, hs, Bool.false_eq_true, if_false, startedTile, blockOf_id hb]
  rfl

theorem blockOf_startedTile {x : Tile} {blk : Nat} {b : Block} (c t : Nat) (h : blockOf x blk = some b) :
    blockOf (startedTile x c t b) blk = some { b with started := true } := by
  obtain rfl := blockOf_id h
  exact blockOf_setBlock_same (b := { b with started := true }) h

/-- The groups of a started block are at its start. -/
theorem groupAt_startedTile {x : Tile} {slot : Nat} {g : Group} {b : Block} (c t : Nat) (h : groupAt x slot = some g)
    (hg : g.blk = b.id) : groupAt (startedTile x c t b) slot = some (startGroup c t b g.index) := by
  have hmap := Sparse.find?_mapVal (fun g : Group => if g.blk = b.id then startGroup c t b g.index else g)
    (fun e => if e.2.blk = b.id then (e.1, startGroup c t b e.2.index) else e)
    (fun e => by split <;> rfl) x.slots slot
  rw [groupAt] at h
  exact hmap.trans (by rw [h, Option.map_some, if_pos hg])

end Sys2Proof.Machine
end

section
/-! SUPPORT. End of blocks (02 R44; 04 R151, R153; 09 R293): what the waits of other blocks that it lets go leave as it was. -/

namespace Sys2Proof.Machine

open Parts

/-- No gong update is sent and no block or group leaves its tile or comes to one. -/
def KeepsBlocks (d e : Dev) : Prop :=
  e.gg.upd = d.gg.upd ∧ ∀ c t, (tileOf e c t).blocks = (tileOf d c t).blocks ∧
    ∀ slot, (groupAt (tileOf e c t) slot).map Group.blk = (groupAt (tileOf d c t) slot).map Group.blk

theorem KeepsBlocks.refl (d : Dev) : KeepsBlocks d d := ⟨rfl, fun _ _ => ⟨rfl, fun _ => rfl⟩⟩

theorem KeepsBlocks.trans {d e f : Dev} (h : KeepsBlocks d e) (h' : KeepsBlocks e f) : KeepsBlocks d f :=
  ⟨h'.1.trans h.1, fun c t => ⟨((h'.2 c t).1).trans (h.2 c t).1, fun slot => ((h'.2 c t).2 slot).trans ((h.2 c t).2 slot)⟩⟩

/-- An update that touches neither tiles nor gong updates. -/
theorem KeepsBlocks.of_eq {d e : Dev} (hg : e.gg.upd = d.gg.upd) (ht : e.tiles = d.tiles) : KeepsBlocks d e := by
  have htile : ∀ c t, tileOf e c t = tileOf d c t := fun c t => by rw [tileOf, ht]; rfl
  exact ⟨hg, fun c t => by rw [htile]; exact ⟨rfl, fun _ => rfl⟩⟩

theorem setPathState_keepsBlocks (d : Dev) (c t slot lane : Nat) (f : Path → Path) :
    KeepsBlocks d (setPathState d c t slot lane f) := by
  unfold setPathState
  dsimp only
  split
  · exact .refl d
  · rename_i g hg
    split
    · exact .refl d
    · refine ⟨rfl, fun c' t' => ?_⟩
      rw [tileOf_setTile]
      split
      · rename_i hk
        have hx : tileOf d c' t' = tileOf d c t := by rw [tileOf, hk]; rfl
        rw [hx]
        refine ⟨rfl, fun slot' => ?_⟩
        rw [groupAt_setGroup]
        split
        · rename_i hs; rw [hs, hg]; rfl
        · rfl
      · exact ⟨rfl, fun _ => rfl⟩

theorem releaseWait_keepsBlocks (d : Dev) (w : Waiter) : KeepsBlocks d (releaseWait d w) := by
  have h : KeepsBlocks d (dropWait d w) := .of_eq rfl rfl
  unfold releaseWait
  dsimp only
  split
  · exact h.trans (.of_eq rfl rfl)
  · exact h.trans (setPathState_keepsBlocks _ _ _ _ _ _)
  · exact h

theorem arriveWait_keepsBlocks (d : Dev) (w : Waiter) : KeepsBlocks d (arriveWait d w) := by
  unfold arriveWait
  split
  · exact releaseWait_keepsBlocks d w
  · exact .of_eq rfl rfl

theorem retryWaits_keepsBlocks (d : Dev) : KeepsBlocks d (retryWaits d) := by
  have key : ∀ (ws : List Waiter) (d : Dev), KeepsBlocks d (ws.foldl arriveWait d) := by
    intro ws
    induction ws with
    | nil => exact .refl
    | cons w ws ih => exact fun d => (arriveWait_keepsBlocks d w).trans (ih _)
  exact key _ d

/-- A tile that a block has left. -/
def leftTile (x : Tile) (blk : Nat) : Tile :=
  { x with blocks := x.blocks.filter fun e => e.id != blk, slots := x.slots.filter fun e => e.2.blk != blk }

theorem groupAt_leftTile {x : Tile} {blk slot : Nat} {g : Group} (h : groupAt (leftTile x blk) slot = some g) : g.blk ≠ blk := by
  have := (List.mem_filter.1 (Sparse.mem_of_find? h)).2
  simpa using this

theorem trace_keepsBlocks (d : Dev) (die unit inst ev : Nat) (part cls : Option Nat) (w2 w3 : Nat) :
    KeepsBlocks d (trace d die unit inst ev part cls w2 w3) := by
  obtain ⟨_, _, h⟩ := trace_frame d die unit inst ev part cls w2 w3
  rw [h]
  exact .of_eq rfl rfl

/-- The package without the waits of a block's paths. -/
def dropBlockWaits (d : Dev) (c t : Nat) (slots : List Nat) : Dev :=
  { d with gg := { d.gg with wait := d.gg.wait.filter fun w => !whoIn c t slots w.who } }

/-- The package once a block has left its tile and the waits that remain have tried again. -/
def blockLeft (d : Dev) (c t : Nat) (b : Block) : Dev :=
  let slots := ((tileOf d c t).slots.filter fun e => e.2.blk == b.id).map (·.1)
  let e := dropBlockWaits (setTile d c t (leftTile (tileOf d c t) b.id)) c t slots
  trace (dropAnswers (prunePast (retryWaits e)) c t) c 7 t 3 (some b.part) (some b.cls) (b.queue + b.index * 2 ^ 20) b.status

/-- Once its block has left, nothing else of a tile's blocks and groups has changed. -/
theorem blockLeft_keepsBlocks (d : Dev) (c t : Nat) (b : Block) :
    KeepsBlocks (setTile d c t (leftTile (tileOf d c t) b.id)) (blockLeft d c t b) := by
  have waits : ∀ e slots, KeepsBlocks e (dropBlockWaits e c t slots) := fun _ _ => .of_eq rfl rfl
  have past : ∀ e, KeepsBlocks e (dropAnswers (prunePast e) c t) := fun _ => .of_eq rfl rfl
  exact (waits _ _).trans ((retryWaits_keepsBlocks _).trans ((past _).trans (trace_keepsBlocks _ _ _ _ _ _ _ _ _)))

theorem completes_blockEnd {s : State} {cd tile blk : Nat} {b : Block}
    (hb : blockOf (tileOf s.dev cd tile) blk = some b) (hm : mayEnd s.dev cd tile b = true) :
    Completes (.blockEnd cd tile blk) s
      (sendUpdate (accumulate (blockLeft s.dev cd tile b) b.queue b.status) ⟨b.gong, .add, 1, 2, .blockEnd, 0⟩) := by
  change execBlockEnd cd tile blk s = _
  simp only [execBlockEnd, act, hb, hm, Bool.not_true, Bool.false_eq_true, if_false, blockLeft, dropBlockWaits, leftTile, blockOf_id hb]

end Sys2Proof.Machine
end

section
/-! SUPPORT. The block watchdog and instruction fetch (04 R121, R149, R154, R633). -/

namespace Sys2Proof.Machine

open Parts

theorem completes_blockWatchdogExpiry {s : State} {cd tile blk : Nat} {b : Block}
    (hb : blockOf (tileOf s.dev cd tile) blk = some b) (hs : b.started = true)
    (hm : mayIssue s.dev cd (tileOf s.dev cd tile) b = true) (hl : blockLive (tileOf s.dev cd tile) blk = true) :
    let z := strandedAt (tileOf s.dev cd tile) blk
    Completes (.blockWatchdogExpiry cd tile blk) s
      (setFlag (blockFault s.dev cd tile blk z.1 z.2.1 z.2.2 stStranded none) (tgOff cd tile 6) 1) := by
  change execBlockWatchdogExpiry cd tile blk s = _
  simp only [execBlockWatchdogExpiry, act, hb, hs, hm, hl, Bool.not_true, Bool.or_self, Bool.false_eq_true, if_false]

/-- A line that is not in a tile's instruction cache is not found there. -/
theorem not_cached {x : Tile} {space : Space} {va : Nat} (h : ∀ l ∈ x.icache, l.space = space → l.va ≠ va) :
    x.icache.any (fun l => l.space == space && l.va == va) = false := by
  simpa using h

/-- A line in the instruction cache of a tile, in front of the others. -/
def cacheLine (d : Dev) (r : PathRef) (space : Space) (va : Nat) (data : Line) (st : Nat) : Dev :=
  setTile d r.cd r.tile { tileOf d r.cd r.tile with
    icache := (⟨space, va, data, st⟩ :: (tileOf d r.cd r.tile).icache).take 512 }

section Fetch

variable {s : State} {r : PathRef} {k : Nat} {seen : Option Line} {g : Group} {p : Path} {b : Block} {e : Dev}
  (hg : groupAt (tileOf s.dev r.cd r.tile) r.slot = some g) (hp : pathOf g r.lane = some p)
  (hb : blockOf (tileOf s.dev r.cd r.tile) g.blk = some b) (hf : b.faulted = false) (hk : k ≤ 3)
  (hmiss : ∀ l ∈ (tileOf s.dev r.cd r.tile).icache, l.space = b.space → l.va ≠ wordVa b (p.pc + k) / 64 * 64)
include hg hp hb hf hk hmiss

/-- A fetch that does not translate leaves its failure in the cache. -/
theorem instructionFetch_cause {c st : Nat}
    (ht : translate s.dev (.tile r.cd r.tile) b.space (wordVa b (p.pc + k) / 64 * 64) .fetch = (e, .cause c st)) :
    Completes (.instructionFetch r k seen) s (cacheLine e r b.space (wordVa b (p.pc + k) / 64 * 64) 0 stXlat) := by
  change execInstructionFetch r k seen s = _
  simp only [execInstructionFetch, act, hg, hp, hb, hf, not_cached hmiss, ht, Nat.not_lt.2 hk, decide_false, Bool.or_self,
    Bool.false_eq_true, if_false, cacheLine]

/-- A fetch that translates fills its line at its home, and shows what the line holds or held before. -/
theorem instructionFetch_ok {pa : Nat}
    (ht : translate s.dev (.tile r.cd r.tile) b.space (wordVa b (p.pc + k) / 64 * 64) .fetch = (e, .ok pa)) {data : Line}
    (hd : (seen = some data ∧ heldBefore (fillLines e [pa / 64]) r.cd b.launch (pa / 64) data = true) ∨
      data = (lineAt (fillLines e [pa / 64]) (pa / 64)).1 ∧
        ∀ old, seen = some old → heldBefore (fillLines e [pa / 64]) r.cd b.launch (pa / 64) old = false) :
    Completes (.instructionFetch r k seen) s (cacheLine (fillLines e [pa / 64]) r b.space
      (wordVa b (p.pc + k) / 64 * 64) data (fetchStatus (fillLines e [pa / 64]) b.part pa)) := by
  change execInstructionFetch r k seen s = _
  simp only [execInstructionFetch, act, hg, hp, hb, hf, not_cached hmiss, ht, Nat.not_lt.2 hk, decide_false, Bool.or_self,
    Bool.false_eq_true, if_false, cacheLine]
  rcases hd with ⟨rfl, hd⟩ | ⟨rfl, hd⟩
  · simp only [hd, if_true]
  · cases seen with
    | none => rfl
    | some old => simp only [hd old rfl, Bool.false_eq_true, if_false]

end Fetch

end Sys2Proof.Machine
end

section
/-! PROOFS. The obligation on the life of a block. -/

open Sys2Proof Sys2Proof.Machine Sys2Proof.Machine.Parts

/-- Settles O21: placement by the search for the tile with the most room, start by the registers of a group at its start, end by
what the waits that it lets go leave as it was. -/
theorem blockLife : Obligations.BlockLife := by
  unfold Obligations.BlockLife
  refine ⟨?placement, ?start, ?ends, fun _ _ _ _ _ => completes_blockWatchdogExpiry, ?fetch⟩
  case placement =>
    intro s q i t l d c hl hs hi hp hq hfixed hany e m
    have hroom : l.groups ≤ (freeSlots (tileOf d c t)).length := tileQualifies_room hq
    have hdone := completes_blockPlacement hl hs hi hp (launchTile_eq hq hfixed hany)
    refine ⟨fun hm => ?_, fun hm => ?_, placedBlock d q t i l, placeBlock_blocks d q t i l, rfl, rfl, rfl, rfl, rfl, rfl, rfl, rfl,
      fun k hk => ⟨_, groupAt_placeBlock d q t i l hk hroom, rfl, rfl⟩⟩
    · rwa [launchPlaced, if_neg (Nat.not_le.2 hm)] at hdone
    · rwa [launchPlaced, if_pos hm] at hdone
  case start =>
    intro s cd tile blk slot l b g hb hs hg hgb hl
    obtain ⟨hu0, hu1, hu2, hu3⟩ := ureg_startGroup cd tile b g.index
    refine ⟨_, startGroup cd tile b g.index, completes_blockStart hb hs, ?_, ?_, ?_, ?_, ?_, hu0, hu1, hu2, hu3, startGroup_paths .., ?_⟩
    · rw [tileOf_setTile_same, groupAt_startedTile cd tile hg (hgb.trans (blockOf_id hb).symm)]
    · simp [threadAt_startGroup _ _ _ _ hl, treg_startThread]
    · simp [threadAt_startGroup _ _ _ _ hl, treg_startThread]
    · intro n h2 hn
      rw [threadAt_startGroup _ _ _ _ hl, treg_startThread, if_neg (by omega), if_neg (by omega)]
    · rw [threadAt_startGroup _ _ _ _ hl, startThread_p]
    · rw [tileOf_setTile_same, blockOf_startedTile cd tile hb]
  case ends =>
    intro s cd tile blk b hb hm
    obtain ⟨hupd, htile⟩ := blockLeft_keepsBlocks s.dev cd tile b
    obtain ⟨hblocks, hgroups⟩ := htile cd tile
    rw [tileOf_setTile_same] at hblocks hgroups
    obtain rfl := blockOf_id hb
    refine ⟨_, blockLeft s.dev cd tile b, ?_, rfl, hupd, hblocks, fun slot g hg => ?_⟩
    · have h := completes_blockEnd hb hm
      rwa [sendUpdate, show (accumulate (blockLeft s.dev cd tile b) b.queue b.status).gg.upd = s.dev.gg.upd from hupd] at h
    · have h := hgroups slot
      rw [hg, Option.map_some, eq_comm, Option.map_eq_some_iff] at h
      obtain ⟨g', hg', hblk⟩ := h
      exact hblk ▸ groupAt_leftTile hg'
  case fetch =>
    intro s r k seen g p b e x va hg hp hb hf hk hmiss
    refine ⟨fun _ _ ht => instructionFetch_cause hg hp hb hf hk hmiss ht, fun pa ht => ⟨fun data hs hd => ?_, fun hd => ?_⟩⟩
    · exact instructionFetch_ok hg hp hb hf hk hmiss ht (.inl ⟨hs, hd⟩)
    · exact instructionFetch_ok hg hp hb hf hk hmiss ht (.inr ⟨rfl, hd⟩)

end

section
/-! SUPPORT. The application of buffered bits at a boundary (03 R84, R87; 18 R560, R561). -/

namespace Sys2Proof.Machine

open Parts

/-- A register below index 0x1FF is not the generation register beside it. -/
theorem ne_genOff {off : Nat} (h : offReg off < 0x1FF) : off ≠ genOff off := by
  simp only [offReg, genOff, offInstance] at h ⊢
  omega

theorem genOff_instance (off : Nat) : genOff (offInstance off * 0x1000) = genOff off := by
  simp only [genOff, offInstance]
  omega

/-- The applied value of a register depends on its stored value and its votes alone. -/
theorem regVal_congr {d e : Dev} {o : Nat} (hr : regRaw e o = regRaw d o)
    (hv : Sparse.get noVotes e.rg.votes o = Sparse.get noVotes d.rg.votes o) : regVal e o = regVal d o := by
  rw [regVal, regVal, hr, hv]

theorem regVal_setReg_other (d : Dev) (off : Nat) (v : Word32) {o : Nat} (h : o ≠ off) :
    regVal (setReg d off v) o = regVal d o :=
  regVal_congr (regRaw_setReg_other d off v h) rfl

theorem regVal_applyBits_other (d : Dev) (off : Nat) (v m : Word32) {o : Nat} (h : o ≠ off) :
    regVal (applyBits d off v m) o = regVal d o :=
  regVal_congr (regRaw_setReg_other d off _ h) (Sparse.get_set_other _ _ _ _ _ h)

/-- A register whose copies agree takes the bits, and its copies go on to agree. -/
theorem regVal_applyBits_same {d : Dev} {off : Nat} (v m : Word32) (h : Sparse.get noVotes d.rg.votes off = {}) :
    regVal (applyBits d off v m) off = mergeMask (regVal d off) v m := by
  have hv : Sparse.get noVotes (applyBits d off v m).rg.votes off = {} := by
    simp [applyBits, h]
  rw [regVal_of_noVotes hv, regVal_of_noVotes h]
  exact regRaw_setReg_same _ _ _

theorem regVal_applyBuf (d : Dev) (off : Nat) (bits : Word32) (o : Nat) :
    regVal (applyBuf d off bits) o = regVal (applyBits d off (regBuf d off).value ((regBuf d off).mask &&& bits)) o := rfl

/-- The bits applied leave the buffer. -/
theorem regBuf_applyBuf_mask (d : Dev) (off : Nat) (bits : Word32) :
    (regBuf (applyBuf d off bits) off).mask = (regBuf d off).mask &&& ~~~ bits := by
  simp only [applyBuf, regBuf_setBuf, if_true]
  split
  · rename_i h; exact h.symm
  · rfl

theorem strayCmd_of_unit {d : Dev} {off : Nat} (h : offUnit off ∉ [0x19, 0x27, 0x2A]) : strayCmd d off = false := by
  simp only [List.mem_cons, List.not_mem_nil, or_false, not_or] at h
  obtain ⟨h1, h2, h3⟩ := h
  simp [strayCmd, h1, h2, h3]

/-- A register of a unit whose new values have no further consequences. -/
theorem settled_of_unit {old d : Dev} {off : Nat} (h : offUnit off ∉ [3, 0x11, 0x12, 0x19, 0x27, 0x2A]) :
    settled old d off = d := by
  simp only [List.mem_cons, List.not_mem_nil, or_false, not_or] at h
  obtain ⟨h03, h11, h12, h19, h27, h2A⟩ := h
  have hs : strayCmd d off = false := strayCmd_of_unit (by simp [h19, h27, h2A])
  simp [settled, h03, h11, h12, h19, hs]

/-- A boundary at which one register is buffered and ready, and has no further consequences: its bits are applied, and the
generation advances where a voted field changes. -/
theorem boundary_single {d : Dev} {off : Nat} {dom : Dev → Nat → Word32} (hb : bufferedIn d (offInstance off) = [off])
    (hr : bufReady d off = true) (hm : (regBuf d off).mask &&& dom d off ≠ 0)
    (hw : ∀ w ∈ d.rg.mgmt, offInstance w.off ≠ offInstance off) (hu : offUnit off ∉ [3, 0x11, 0x12, 0x19, 0x27, 0x2A]) :
    boundary d (offInstance off) dom =
      let e := applyBuf d off (dom d off)
      if votedDiffer d e [off] then bumpGen e (offInstance off * 0x1000) else e := by
  have hready : (bufReady d off && (regBuf d off).mask &&& dom d off != 0) = true := by
    rw [hr, Bool.true_and]
    exact bne_iff_ne.2 hm
  have hreg : [off].foldl (applyIn dom) d = applyBuf d off (dom d off) := (if_pos hready).trans (settled_of_unit hu)
  have hnone : d.rg.mgmt.filter (mgmtTaken dom d (offInstance off)) = [] := by
    rw [List.filter_eq_nil_iff]
    intro w hwm
    simp [mgmtTaken, hw w hwm]
  rw [boundary, hb, hreg]
  dsimp only
  split
  · exact congrArg (List.foldl _ _) hnone
  · exact congrArg (List.foldl _ _) hnone

/-- A step of the generation changes no register but its own. -/
theorem regVal_bumpIf (p : Prop) [Decidable p] (d : Dev) {off o : Nat} (h : o ≠ genOff off) :
    regVal (if p then bumpGen d (offInstance off * 0x1000) else d) o = regVal d o := by
  split
  · exact regVal_setReg_other d _ _ (by rwa [genOff_instance])
  · rfl

theorem regBuf_bumpIf (p : Prop) [Decidable p] (d : Dev) (off o : Nat) :
    regBuf (if p then bumpGen d off else d) o = regBuf d o := by
  split <;> rfl

/-- Where no management write waits, a boundary that has no row of its own is that of its buffers. -/
theorem completes_bufferedWriteApply {s : State} {die unit inst : Nat}
    (hw : ∀ w ∈ s.dev.rg.mgmt, offInstance w.off ≠ offInstance (regOff die unit inst 0)) :
    Completes (.bufferedWriteApply die unit inst) s (boundary s.dev (offInstance (regOff die unit inst 0)) genericBits) := by
  have hnone : (s.dev.rg.mgmt.filter fun w => offInstance w.off == offInstance (regOff die unit inst 0) && mgmtStarts w) = [] := by
    rw [List.filter_eq_nil_iff]
    intro w hwm
    simp [hw w hwm]
  change execBufferedWriteApply die unit inst s = _
  simp only [execBufferedWriteApply, act, hnone, List.foldl_nil]

end Sys2Proof.Machine
end

section
/-! SUPPORT. The boundary of a queue (03 R94 to R96). -/

namespace Sys2Proof.Machine

open Parts

/-- A package once the buffers of a queue, and of its translation registers, have been applied. -/
def queueApplied (d : Dev) (q : Nat) : Dev :=
  boundary (boundary d (offInstance (qOff q 0)) (queueBits q))
    (offInstance (regOff (queueCd q) 0x17 (q % 1024) 0)) (queueBits q)

/-- A queue that has nothing to do goes to EMPTY. -/
theorem wakeQueue_idle {d : Dev} {q : Nat} (hw : (queueOf d q).words = []) (hf : (queueOf d q).fetched = (queueOf d q).count)
    (hd : (dispOf d (queueCd q)).state = 0) : wakeQueue d q = setQueue d q { queueOf d q with state := .empty } := by
  simp [wakeQueue, hw, hf, hd]

/-- A queue with its generations, its place in its ring and the record in hand at zero. -/
def zeroedQueue (x : Queue) : Queue :=
  { x with fetched := 0, retired := 0, count := 0, line := 0, seq := 0, words := [], pos := 0, reads := 0 }

/-- A queue with an allowed ring is enabled, and nothing else changes. -/
theorem enableQueue_ok {d : Dev} {q : Nat} (hr : ringOk d q = true) (hd : (dispOf d (queueCd q)).state = 0) :
    enableQueue d q = { d with qs := (enableQueue d q).qs } ∧
      queueOf (enableQueue d q) q = { queueOf d q with
        state := .empty, fetched := 0, retired := 0, count := 0, line := 0, seq := 0, words := [], pos := 0, reads := 0 } ∧
      ∀ p, p ≠ q → queueOf (enableQueue d q) p = queueOf d p := by
  have hwake : enableQueue d q = wakeQueue (setQueue d q (zeroedQueue (queueOf d q))) q := by
    rw [enableQueue, hr, Bool.not_true, if_neg Bool.false_ne_true]; rfl
  have hq : queueOf (setQueue d q (zeroedQueue (queueOf d q))) q = zeroedQueue (queueOf d q) := by
    rw [queueOf_setQueue, if_pos rfl]
  have hdisp : (dispOf (setQueue d q (zeroedQueue (queueOf d q))) (queueCd q)).state = 0 := hd
  rw [hwake, wakeQueue_idle (by rw [hq]; rfl) (by rw [hq]; rfl) hdisp, hq]
  refine ⟨rfl, ?_, fun p hpq => ?_⟩
  · rw [queueOf_setQueue, if_pos rfl]; rfl
  · rw [queueOf_setQueue, if_neg hpq, queueOf_setQueue, if_neg hpq]

/-- A queue whose ring is not allowed is refused. -/
theorem enableQueue_refused {d : Dev} {q : Nat} (hr : ringOk d q = false) :
    enableQueue d q = setFlag (accumulate (setRegFld d (qOff q 2) 0 0 0) q stState) (qOff q 5) 16 := by
  simp [enableQueue, hr]

section Boundary

variable {s : State} {q : Nat} (hc : cdFitted s.dev.variant (queueCd q) = true)
  (hp : qPart (queueApplied s.dev q) q = qPart s.dev q)
include hc hp

/-- A DISABLED queue whose `enable` is 1. -/
theorem queueBoundary_enable (hs : (queueOf s.dev q).state = .disabled) (he : qEnable (queueApplied s.dev q) q = true) :
    Completes (.queueBoundary q) s (enableQueue (queueApplied s.dev q) q) := by
  rw [queueApplied] at hp he
  change execQueueBoundary q s = _
  simp [execQueueBoundary, act, hc, hs, hp, he, queueApplied]

/-- A DISABLED queue whose `enable` is 1, with a ring that is not allowed. -/
theorem queueBoundary_refused (hs : (queueOf s.dev q).state = .disabled) (he : qEnable (queueApplied s.dev q) q = true)
    (hr : ringOk (queueApplied s.dev q) q = false) :
    Completes (.queueBoundary q) s
      (setFlag (accumulate (setRegFld (queueApplied s.dev q) (qOff q 2) 0 0 0) q stState) (qOff q 5) 16) := by
  rw [← enableQueue_refused hr]
  exact queueBoundary_enable hc hp hs he

/-- An EMPTY or HELD queue whose `enable` is 0. -/
theorem queueBoundary_disable (hs : (queueOf s.dev q).state = .empty ∨ (queueOf s.dev q).state = .held)
    (he : qEnable (queueApplied s.dev q) q = false) :
    Completes (.queueBoundary q) s (disableQueue (queueApplied s.dev q) q) := by
  rw [queueApplied] at hp he
  change execQueueBoundary q s = _
  rcases hs with hs | hs <;> simp [execQueueBoundary, act, hc, hs, hp, he, queueApplied]

end Boundary

end Sys2Proof.Machine
end

section
/-! SUPPORT. The boundary and the partition move of a tile (02 R47, R49, R56). -/

namespace Sys2Proof.Machine.Sparse

/-- A map of which the entries of some keys are kept. -/
theorem find?_filterKey {α : Type} (m : List (Nat × α)) (p : Nat → Bool) (a : Nat) :
    find? (m.filter fun e => p e.1) a = if p a then find? m a else none := by
  induction m with
  | nil => simp [find?]
  | cons e m ih =>
    obtain ⟨k, v⟩ := e
    by_cases ha : a = k
    · subst ha
      cases hp : p a <;> simp [hp, find?, ih]
    · cases hp : p k <;> simp [hp, find?, ih, ha]

end Sys2Proof.Machine.Sparse

namespace Sys2Proof.Machine

open Parts

/-- A range of storage that is zeroed reads as zero, the rest as before. -/
theorem rawByte_zeroRange (d : Dev) (lo n a : Nat) :
    rawByte (zeroRange d lo n) a = if lo ≤ a ∧ a < lo + n then 0 else rawByte d a := by
  rw [rawByte, Sparse.get, zeroRange, Sparse.find?_filterKey d.mem.bytes fun k => decide (k < lo) || decide (lo + n ≤ k)]
  by_cases h : lo ≤ a ∧ a < lo + n
  · have hk : (decide (a < lo) || decide (lo + n ≤ a)) = false := by simp; omega
    rw [if_pos h, hk]; rfl
  · have hk : (decide (a < lo) || decide (lo + n ≤ a)) = true := by simp; omega
    rw [if_neg h, hk]; rfl

theorem applyField_tiles (d : Dev) (off : Nat) (bits : Word32) : (applyField d off bits).tiles = d.tiles := by
  unfold applyField
  dsimp only
  split <;> rfl

/-- A CD's `split` that comes to rest changes no tile. -/
theorem tileOf_settleSplit (d : Dev) (c c' t : Nat) : tileOf (settleSplit d c) c' t = tileOf d c' t := by
  unfold settleSplit
  split
  · rw [tileOf, applyField_tiles]; rfl
  · rfl

theorem takeSplit_none {d : Dev} {c : Nat} (t : Nat) (h : splitBuffered d c = none) : takeSplit d c t = d := by
  simp only [takeSplit, h]

theorem tileOf_takeSplit {d : Dev} {c : Nat} {v : Bool} (t : Nat) (h : splitBuffered d c = some v) :
    tileOf (takeSplit d c t) c t = { tileOf d c t with split := v } := by
  simp only [takeSplit, h, tileOf_settleSplit, tileOf_setTile_same]
  rfl

/-- Zeroing counters changes registers only: no tile and no byte of storage. -/
theorem foldl_zeroCtr_frame (offs : List Nat) (d : Dev) :
    (offs.foldl zeroCtr d).tiles = d.tiles ∧ (offs.foldl zeroCtr d).mem = d.mem := by
  induction offs generalizing d with
  | nil => exact ⟨rfl, rfl⟩
  | cons o offs ih =>
    obtain ⟨htiles, hmem⟩ := ih (zeroCtr d o)
    exact ⟨htiles, hmem⟩

/-- The package once a tile has changed partition, but for its counters. -/
def emptiedTile (d : Dev) (c t : Nat) : Dev :=
  let e := zeroRange d (tilePa c t 0) tileBytes
  emptyTlb (setTile e c t (clearedTile (tileOf e c t))) c t

/-- A tile that changes partition keeps nothing but its modes, and its memory is zero; no other byte changes. -/
theorem partitionMove_changed {d : Dev} {c t : Nat}
    (h : tilePart (boundary d (offInstance (tgOff c t 0)) tilePartBits) c t ≠ tilePart d c t) :
    let e := boundary d (offInstance (tgOff c t 0)) tilePartBits
    tileOf (partitionMove d c t) c t = clearedTile (tileOf e c t) ∧
      ∀ a, rawByte (partitionMove d c t) a =
        if tilePa c t 0 ≤ a ∧ a < tilePa c t 0 + tileBytes then 0 else rawByte e a := by
  intro e
  have hmove : partitionMove d c t = (tileCounters c t).foldl zeroCtr (emptiedTile e c t) := if_neg h
  obtain ⟨htiles, hmem⟩ := foldl_zeroCtr_frame (tileCounters c t) (emptiedTile e c t)
  rw [hmove]
  refine ⟨?_, fun a => ?_⟩
  · rw [tileOf, htiles]
    exact tileOf_setTile_same _ _ _ _
  · rw [rawByte, hmem]
    exact rawByte_zeroRange e _ _ a

section Tile

variable {s : State} {cd tile : Nat} (hc : cdFitted s.dev.variant cd = true) (ht : tile < 180)
include hc ht

theorem completes_tileBlockBoundary (hb : (tileOf s.dev cd tile).blocks = []) :
    Completes (.tileBlockBoundary cd tile) s
      (takeSplit (loadMgmt (boundary s.dev (offInstance (tgOff cd tile 0)) tileBits) (fnOff cd) 0x10) cd tile) := by
  change execTileBlockBoundary cd tile s = _
  simp [execTileBlockBoundary, act, hc, Nat.not_le.2 ht, hb]

theorem completes_tilePartitionMove (hf : tileFree s.dev cd tile = true) (hr : (tileOf s.dev cd tile).retired = false) :
    Completes (.tilePartitionMove cd tile) s (partitionMove s.dev cd tile) := by
  change execTilePartitionMove cd tile s = _
  simp [execTilePartitionMove, act, hc, Nat.not_le.2 ht, hf, hr]

end Tile

end Sys2Proof.Machine
end

section
/-! PROOFS. The obligation on natural boundaries. -/

open Sys2Proof Sys2Proof.Machine Sys2Proof.Machine.Parts

/-- Settles O25, boundary by boundary: what the buffers bring is the model's `boundary`; what follows from them is said once for
each of queues, tiles and partitions. -/
theorem naturalBoundaries : Obligations.NaturalBoundaries := by
  unfold Obligations.NaturalBoundaries
  refine ⟨?generic, ?queue, ?tile⟩
  case generic =>
    intro s die unit inst off d b bits hb hr hm hw hi hreg _ hu hv
    have hdone := completes_bufferedWriteApply hw
    rw [← hi] at hb hw hdone
    rw [boundary_single hb hr hm hw hu] at hdone
    refine ⟨_, hdone, ?_, ?_, fun o ho hg => ?_⟩
    · rw [regVal_bumpIf _ _ (ne_genOff hreg), regVal_applyBuf, regVal_applyBits_same _ _ hv]
    · rw [regBuf_bumpIf, regBuf_applyBuf_mask]
    · rw [regVal_bumpIf _ _ hg, regVal_applyBuf, regVal_applyBits_other _ _ _ _ ho]
  case queue =>
    intro s q d st e hc hp
    exact ⟨fun hs he hr hd => ⟨_, queueBoundary_enable hc hp hs he, enableQueue_ok hr hd⟩,
      queueBoundary_refused hc hp, queueBoundary_disable hc hp⟩
  case tile =>
    intro s cd tile d hc ht
    refine ⟨fun hb => ⟨fun hn => ?_, fun v hv => ⟨_, completes_tileBlockBoundary hc ht hb, tileOf_takeSplit tile hv⟩⟩,
      fun hf hr => ⟨fun hsame => ?_, fun hdiff => ⟨_, completes_tilePartitionMove hc ht hf hr, partitionMove_changed hdiff⟩⟩⟩
    · have h := completes_tileBlockBoundary hc ht hb
      rwa [takeSplit_none tile hn] at h
    · have h := completes_tilePartitionMove hc ht hf hr
      rwa [show partitionMove s.dev cd tile = _ from if_pos hsame] at h

end

section
/-! SUPPORT. The package at reset, as its readers see it (03 R94; 17 R526, R535; log entries 4, 5, 7). -/

namespace Sys2Proof.Machine

theorem regVal_reset (off : Nat) : regVal State.reset.dev off = regReset off := regVal_of_noVotes rfl

/-- No line is held at its home, and nothing is stored: a byte reads zero. -/
theorem byteAt_reset (a : Nat) : byteAt State.reset.dev a = 0 := rfl

theorem pwrState_reset : pwrState State.reset.dev = 0 := by decide

theorem reasons_reset : reasons State.reset.dev = 0 := by decide

end Sys2Proof.Machine
end

section
/-! PROOFS. The obligation on the state at reset. -/

open Sys2Proof Sys2Proof.Machine Sys2Proof.Machine.Parts

/-- Settles O57: the tables of units are empty at reset, so each unit is as its default is. -/
theorem resetLeaves : Obligations.ResetLeaves := by
  unfold Obligations.ResetLeaves
  refine ⟨rfl, ?registers, ?queues, ?gongs, ?tiles, ?channels, rfl, byteAt_reset, rfl, rfl, rfl, pwrState_reset,
    reasons_reset, rfl, rfl, rfl⟩
  case registers => exact fun off => ⟨regVal_reset off, rfl⟩
  case queues => exact fun _ => ⟨rfl, rfl⟩
  case gongs => exact fun _ => rfl
  case tiles => exact fun _ _ => rfl
  case channels => exact fun _ => rfl

end

section
/-! SUPPORT. Writes that reach their register (03 R84 to R86, R92; 09 R296): what of the register file they change. -/

namespace Sys2Proof.Machine

open Parts

/-! Bits of words. -/

theorem bit_and {w : Nat} (x y : BitVec w) (i : Nat) : bit (x &&& y) i = (bit x i && bit y i) := BitVec.getLsbD_and

theorem bit_or {w : Nat} (x y : BitVec w) (i : Nat) : bit (x ||| y) i = (bit x i || bit y i) := BitVec.getLsbD_or

theorem bit_not (x : Word32) {i : Nat} (hi : i < 32) : bit (~~~ x) i = !bit x i := by
  rw [bit_eq_getLsbD, BitVec.getLsbD_not, decide_eq_true hi, Bool.true_and, bit_eq_getLsbD]

theorem bit_ofNat (n : Nat) {i : Nat} (hi : i < 32) : bit (BitVec.ofNat 32 n) i = n.testBit i := by
  rw [bit_eq_getLsbD, BitVec.getLsbD_ofNat, decide_eq_true hi, Bool.true_and]

theorem bit_mergeMask (old new mask : Word32) {i : Nat} (hi : i < 32) :
    bit (mergeMask old new mask) i = if bit mask i then bit new i else bit old i := by
  rw [mergeMask, bit_or, bit_and, bit_and, bit_not _ hi]
  cases bit mask i <;> simp

theorem mergeMask_zero (old new : Word32) : mergeMask old new 0#32 = old := by
  rw [mergeMask, BitVec.not_zero, BitVec.and_allOnes, BitVec.and_zero, BitVec.or_zero]

/-- Bits already taken out of a mask are not taken out again. -/
theorem and_not_of_masked (x y k : Word32) : x &&& ~~~ y &&& k &&& ~~~ y = x &&& ~~~ y &&& k := by
  rw [BitVec.and_assoc, BitVec.and_assoc, BitVec.and_assoc, BitVec.and_comm k, ← BitVec.and_assoc (~~~ y), BitVec.and_self]

/-! The buffer. -/

/-- A buffered write changes buffers and nothing else. -/
theorem bufferWrite_frame (d : Dev) (off pair : Nat) (value mask : Word32) :
    bufferWrite d off pair value mask = { d with rg := { d.rg with buf := (bufferWrite d off pair value mask).rg.buf } } := by
  unfold bufferWrite
  split
  · rfl
  · dsimp only
    split
    · rfl
    · split <;> rfl
    · rfl

/-- A buffered write of a register that is no half of a pair is merged over what was buffered. -/
theorem regBuf_bufferWrite (d : Dev) (off : Nat) (value mask : Word32) :
    (regBuf (bufferWrite d off 0 value mask) off).mask = (regBuf d off).mask ||| mask ∧
      (regBuf (bufferWrite d off 0 value mask) off).value = mergeMask (regBuf d off).value value mask := by
  unfold bufferWrite
  split
  next h => subst h; exact ⟨BitVec.or_zero.symm, (mergeMask_zero _ _).symm⟩
  next => simp [setBuf, regBuf]

/-! The register. -/

section Write
variable {off : Nat} {row : RegRow} (hrow : regRow? off = some row)
include hrow

theorem writeReg_eq (d : Dev) (value m : Word32) :
    let rw := BitVec.ofNat 32 row.rw &&& m
    let w1c := BitVec.ofNat 32 row.w1c &&& m &&& value
    writeReg d off value m =
      bufferWrite (if rw ||| w1c = 0 then d else setReg d off (mergeMask (regRaw d off) value rw &&& ~~~ w1c)) off row.pair value
        (BitVec.ofNat 32 (row.rwb ||| row.rov) &&& m &&& ~~~ (BitVec.ofNat 32 row.cmd &&& ~~~ value)) := by
  simp [writeReg, hrow]

/-- RW bits take the value written, W1C-S bits written 1 read 0, all others read as before. -/
theorem bit_regRaw_writeReg (d : Dev) (value m : Word32) {i : Nat} (hi : i < 32) :
    bit (regRaw (writeReg d off value m) off) i =
      if row.w1c.testBit i && bit m i && bit value i then false
      else if row.rw.testBit i && bit m i then bit value i
      else bit (regRaw d off) i := by
  rw [writeReg_eq hrow, bufferWrite_frame]
  have hbits : bit (mergeMask (regRaw d off) value (BitVec.ofNat 32 row.rw &&& m) &&&
        ~~~ (BitVec.ofNat 32 row.w1c &&& m &&& value)) i =
      if row.w1c.testBit i && bit m i && bit value i then false
      else if row.rw.testBit i && bit m i then bit value i
      else bit (regRaw d off) i := by
    rw [bit_and, bit_not _ hi, bit_mergeMask _ _ _ hi, bit_and, bit_and, bit_and, bit_ofNat _ hi, bit_ofNat _ hi]
    cases row.w1c.testBit i && bit m i && bit value i <;> simp
  rw [← hbits]
  by_cases h : BitVec.ofNat 32 row.rw &&& m ||| BitVec.ofNat 32 row.w1c &&& m &&& value = 0
  · obtain ⟨hrw, hw1c⟩ := BitVec.or_eq_zero_iff.1 h
    rw [if_pos h, hrw, hw1c, mergeMask_zero, BitVec.not_zero, BitVec.and_allOnes]
    rfl
  · rw [if_neg h]
    exact congrArg (bit · i) (regRaw_setReg_same ..)

/-- Of the register file a write changes the value of its register, and buffers. -/
theorem writeReg_frame (d : Dev) (value m : Word32) :
    ∃ val buf, writeReg d off value m = { d with rg := { d.rg with val := val, buf := buf } } ∧
      ∀ o, o ≠ off → Sparse.get regReset val o = regRaw d o := by
  rw [writeReg_eq hrow, bufferWrite_frame]
  split
  · exact ⟨_, _, rfl, fun o _ => rfl⟩
  · exact ⟨_, _, rfl, fun o ho => regRaw_setReg_other d off _ ho⟩

theorem regBuf_writeReg (d : Dev) (value m : Word32) (hp : row.pair = 0) :
    let buf := BitVec.ofNat 32 (row.rwb ||| row.rov) &&& m &&& ~~~ (BitVec.ofNat 32 row.cmd &&& ~~~ value)
    (regBuf (writeReg d off value m) off).mask = (regBuf d off).mask ||| buf ∧
      (regBuf (writeReg d off value m) off).value = mergeMask (regBuf d off).value value buf := by
  rw [writeReg_eq hrow, hp]
  split <;> exact regBuf_bufferWrite _ _ _ _

/-- A register's buffer after a write, bit by bit, where the mask holds no command bit written 0. -/
theorem bit_regBuf_writeReg (d : Dev) (value m : Word32) (hp : row.pair = 0)
    (hcmd : m &&& ~~~ (cmdBits off &&& ~~~ value) = m) {i : Nat} (hi : i < 32) :
    let buf := BitVec.ofNat 32 (row.rwb ||| row.rov) &&& m
    bit (regBuf (writeReg d off value m) off).mask i = (bit buf i || bit (regBuf d off).mask i) ∧
      bit (regBuf (writeReg d off value m) off).value i = if bit buf i then bit value i else bit (regBuf d off).value i := by
  obtain ⟨hmask, hvalue⟩ := regBuf_writeReg hrow d value m hp
  have hrowCmd : cmdBits off = BitVec.ofNat 32 row.cmd := by rw [cmdBits, hrow]
  rw [hmask, hvalue, BitVec.and_assoc, ← hrowCmd, hcmd]
  exact ⟨by rw [bit_or, Bool.or_comm], bit_mergeMask _ _ _ hi⟩

end Write

/-- What follows a write of RW bits is a chime message at most. -/
theorem wroteNow_frame (old d : Dev) (off : Nat) : wroteNow old d off = { d with gg := (wroteNow old d off).gg } := by
  unfold wroteNow chimeMessage
  split
  · dsimp only
    split <;> rfl
  · rfl

/-- The register file after a write that reaches its register is what the write made of it. -/
theorem storeReg_rg (d : Dev) (off : Nat) (value m : Word32) : (storeReg d off value m).rg = (writeReg d off value m).rg := by
  rw [storeReg, wroteNow_frame]

theorem regRaw_storeReg (d : Dev) (off : Nat) (value m : Word32) (o : Nat) :
    regRaw (storeReg d off value m) o = regRaw (writeReg d off value m) o := by
  rw [regRaw, storeReg_rg, regRaw]

theorem regBuf_storeReg (d : Dev) (off : Nat) (value m : Word32) (o : Nat) :
    regBuf (storeReg d off value m) o = regBuf (writeReg d off value m) o := by
  rw [regBuf, storeReg_rg, regBuf]

/-- A write that reaches its register changes that register's value, buffers, and chime messages; no voted copy. -/
theorem storeReg_frame {off : Nat} {row : RegRow} (hrow : regRow? off = some row) (d : Dev) (value m : Word32) :
    let e := storeReg d off value m
    (∀ o, o ≠ off → regRaw e o = regRaw d o) ∧ e.rg.votes = d.rg.votes ∧ e = { d with rg := e.rg, gg := e.gg } := by
  obtain ⟨val, buf, hframe, hothers⟩ := writeReg_frame hrow d value m
  refine ⟨fun o ho => ?_, ?_, ?_⟩
  · rw [regRaw_storeReg, hframe]; exact hothers o ho
  · rw [storeReg_rg, hframe]
  · rw [storeReg, wroteNow_frame, hframe]

end Sys2Proof.Machine
end

section
/-! SUPPORT. The register window (03 R82, R85, R86; 11 R358). -/

namespace Sys2Proof.Machine

open Parts

variable {s : State} {off : Nat} {value : Word32} {after : Option Nat}

/-- The bits that a window write writes: command bits written 0 are not (03 R84, R85). -/
def windowWritten (off : Nat) (value : Word32) : Word32 := windowMask off &&& ~~~ (cmdBits off &&& ~~~ value)

theorem registerWrite_stored {row : RegRow} (keep : Word32) (hrow : regRow? off = some row) (hd : isDoorbell off = false)
    (ha : unitAbsent s.dev off = false) (hr : regRetired s.dev off = false) (hh : heldByCbo s.dev after = false)
    (habs : writeAbsent s.dev (attempt s.dev off value (windowWritten off value)) = false)
    (href : writeRefused s.dev (attempt s.dev off value (windowWritten off value)) = false) :
    Completes (.registerWrite off value keep after) s
      (storeReg s.dev off value (windowWritten off value &&& ~~~ (keep &&& clearable off))) := by
  rw [windowWritten] at habs href ⊢
  change execRegisterWrite off value keep after s = _
  simp [execRegisterWrite, act, hh, hd, hrow, ha, hr, habs, href]

/-- A write that a FENCE holds, or that names no register. -/
theorem registerWrite_none (keep : Word32)
    (h : (regRow? off = none ∧ isDoorbell off = false) ∨ heldByCbo s.dev after = true) :
    Completes (.registerWrite off value keep after) s s.dev := by
  change execRegisterWrite off value keep after s = _
  rcases h with ⟨hrow, hd⟩ | hh
  · simp [execRegisterWrite, act, hrow, hd]
  · simp [execRegisterWrite, act, hh]

end Sys2Proof.Machine
end

section
/-! PROOFS. The obligation on the register window. -/

open Sys2Proof Sys2Proof.Machine Sys2Proof.Machine.Parts

/-- Settles O23: what the window stores is a write of the register by the mask of the window, and a chime message at most. -/
theorem registerWindow : Obligations.RegisterWindow := by
  unfold Obligations.RegisterWindow
  refine ⟨?stored, fun s off value keep after h => registerWrite_none keep h⟩
  intro s off value keep after row d mask m buf hrow hd ha hr hh habs href
  have hcmd : m &&& ~~~ (cmdBits off &&& ~~~ value) = m := and_not_of_masked _ _ _
  obtain ⟨hothers, hvotes, hframe⟩ := storeReg_frame hrow d value m
  refine ⟨storeReg d off value m, registerWrite_stored keep hrow hd ha hr hh habs href, fun i hi => ?_, hothers, hvotes,
    fun hp i hi => ?_, hframe⟩
  · rw [regRaw_storeReg]
    exact bit_regRaw_writeReg hrow d value m hi
  · rw [regBuf_storeReg]
    exact bit_regBuf_writeReg hrow d value m hp hcmd hi

end

section
/-! SUPPORT. Voted registers (03 R87 to R89): an upset of one copy, and the scrub of the copies. -/

namespace Sys2Proof.Machine.Sparse

/-- Keys that rise are above the bound, and each is below those after it. -/
theorem pairwise_of_rising {α : Type} {lo : Option Nat} {m : List (Nat × α)} (h : rising lo m = true) :
    (∀ l, lo = some l → ∀ e ∈ m, l < e.1) ∧ m.Pairwise fun e f => e.1 < f.1 := by
  induction m generalizing lo with
  | nil => simp
  | cons e m ih =>
    obtain ⟨k, v⟩ := e
    simp only [rising, Bool.and_eq_true] at h
    obtain ⟨hlo, hm⟩ := h
    obtain ⟨habove, hpair⟩ := ih hm
    refine ⟨?_, List.pairwise_cons.2 ⟨habove k rfl, hpair⟩⟩
    rintro l rfl
    have hk : l < k := by simpa using hlo
    exact List.forall_mem_cons.2 ⟨hk, fun f hf => Nat.lt_trans hk (habove k rfl f hf)⟩

/-- An entry of a map in canonical form is the only one of its key. -/
theorem wf_split {α : Type} [DecidableEq α] {dflt : Nat → α} {m : List (Nat × α)} {a : Nat} {v : α} (h : wf dflt m = true)
    (hm : (a, v) ∈ m) : ∃ l r, m = l ++ (a, v) :: r ∧ (∀ e ∈ l, e.1 ≠ a) ∧ ∀ e ∈ r, e.1 ≠ a := by
  simp only [wf, Bool.and_eq_true] at h
  obtain ⟨l, r, rfl⟩ := List.append_of_mem hm
  obtain ⟨_, hr, hlr⟩ := List.pairwise_append.1 (pairwise_of_rising h.1).2
  exact ⟨l, r, rfl, fun e he => Nat.ne_of_lt (hlr e he _ List.mem_cons_self),
    fun e he => Nat.ne_of_gt ((List.pairwise_cons.1 hr).1 e he)⟩

end Sys2Proof.Machine.Sparse

namespace Sys2Proof.Machine

open Parts

/-- The bits in which the copies of a voted register differ. -/
def votesDiffer (v : Votes) : Word32 := (v.a ^^^ v.b) ||| (v.b ^^^ v.c)

/-- Two copies that agree outvote the third. -/
theorem regVal_upset {d : Dev} {off : Nat} (copy : Nat) (bits : Word32) (h : Sparse.get noVotes d.rg.votes off = {}) :
    regVal (upset d off copy bits) off = regVal d off := by
  rw [regVal_of_noVotes h]
  rcases copy with _ | _ | _ <;> simp [upset, regVal, regRaw, h, maj3]

/-! The scrub of one register. -/

theorem scrubReg_agree (same : List Nat) (d : Dev) {e : Nat × Votes} (h : votesDiffer e.2 = 0) : scrubReg same d e = d :=
  if_pos h

/-- The scrub of a register whose copies differ: the majority is stored, the copies agree, and the positions are counted. -/
theorem scrubReg_differ (same : List Nat) (d : Dev) {e : Nat × Votes} (h : votesDiffer e.2 ≠ 0) :
    let f := scrubReg same d e
    f.rg.val = Sparse.set regReset d.rg.val e.1 (regVal d e.1) ∧ f.rg.votes = Sparse.set noVotes d.rg.votes e.1 {} ∧
      f.rg.dis = if same.contains e.1 then d.rg.dis else Sparse.set noDis d.rg.dis e.1
        ⟨min 0xFFFF ((Sparse.get noDis d.rg.dis e.1).count + popcount (votesDiffer e.2)), lowestBit (votesDiffer e.2)⟩ := by
  have hs : scrubReg same d e = _ := if_neg h
  rw [hs]
  exact ⟨rfl, rfl, rfl⟩

theorem regVal_scrubReg (same : List Nat) (d : Dev) (e : Nat × Votes) (off : Nat) :
    regVal (scrubReg same d e) off = regVal d off := by
  by_cases h : votesDiffer e.2 = 0
  · rw [scrubReg_agree same d h]
  · obtain ⟨hval, hvotes, _⟩ := scrubReg_differ same d h
    by_cases ho : off = e.1
    · subst ho
      rw [regVal_of_noVotes (by rw [hvotes, Sparse.get_set_same]), regRaw, hval, Sparse.get_set_same]
    · refine regVal_congr ?_ (by rw [hvotes, Sparse.get_set_other _ _ _ _ _ ho])
      rw [regRaw, hval, Sparse.get_set_other _ _ _ _ _ ho, regRaw]

/-- The scrub of one register leaves the copies and the count of every other as they were. -/
theorem scrubReg_other (same : List Nat) (d : Dev) {e : Nat × Votes} {off : Nat} (ho : off ≠ e.1) :
    Sparse.get noVotes (scrubReg same d e).rg.votes off = Sparse.get noVotes d.rg.votes off ∧
      Sparse.get noDis (scrubReg same d e).rg.dis off = Sparse.get noDis d.rg.dis off := by
  by_cases h : votesDiffer e.2 = 0
  · rw [scrubReg_agree same d h]; exact ⟨rfl, rfl⟩
  · obtain ⟨_, hvotes, hdis⟩ := scrubReg_differ same d h
    rw [hvotes, hdis]
    refine ⟨Sparse.get_set_other _ _ _ _ _ ho, ?_⟩
    split
    · rfl
    · exact Sparse.get_set_other _ _ _ _ _ ho

/-! The scrub of all. -/

theorem regVal_scrub (same : List Nat) (l : List (Nat × Votes)) (d : Dev) (off : Nat) :
    regVal (l.foldl (scrubReg same) d) off = regVal d off := by
  induction l generalizing d with
  | nil => rfl
  | cons e l ih => exact (ih _).trans (regVal_scrubReg same d e off)

theorem scrub_other (same : List Nat) {l : List (Nat × Votes)} (d : Dev) {off : Nat} (h : ∀ e ∈ l, e.1 ≠ off) :
    Sparse.get noVotes (l.foldl (scrubReg same) d).rg.votes off = Sparse.get noVotes d.rg.votes off ∧
      Sparse.get noDis (l.foldl (scrubReg same) d).rg.dis off = Sparse.get noDis d.rg.dis off := by
  induction l generalizing d with
  | nil => exact ⟨rfl, rfl⟩
  | cons e l ih =>
    obtain ⟨he, hl⟩ := List.forall_mem_cons.1 h
    obtain ⟨hv, hd⟩ := ih (scrubReg same d e) hl
    obtain ⟨hv', hd'⟩ := scrubReg_other same d he.symm
    exact ⟨hv.trans hv', hd.trans hd'⟩

/-- A register listed once is scrubbed once: before and after it only others are. -/
theorem scrub_differ (same : List Nat) {d : Dev} {off : Nat} {v : Votes} (hw : Sparse.wf noVotes d.rg.votes = true)
    (hm : (off, v) ∈ d.rg.votes) (hv : votesDiffer v ≠ 0) :
    let e := d.rg.votes.foldl (scrubReg same) d
    Sparse.get noVotes e.rg.votes off = {} ∧
      Sparse.get noDis e.rg.dis off = if off ∈ same then Sparse.get noDis d.rg.dis off else
        ⟨min 0xFFFF ((Sparse.get noDis d.rg.dis off).count + popcount (votesDiffer v)), lowestBit (votesDiffer v)⟩ := by
  obtain ⟨l, r, hlr, hl, hr⟩ := Sparse.wf_split hw hm
  obtain ⟨_, hdl⟩ := scrub_other same d hl
  simp only [hlr, List.foldl_append, List.foldl_cons]
  obtain ⟨hvr, hdr⟩ := scrub_other same (scrubReg same (l.foldl (scrubReg same) d) (off, v)) hr
  obtain ⟨_, hvotes, hdis⟩ := scrubReg_differ same (l.foldl (scrubReg same) d) (e := (off, v)) hv
  rw [hvr, hdr, hvotes, hdis, ← hdl]
  refine ⟨Sparse.get_set_same .., ?_⟩
  by_cases hs : off ∈ same <;> simp [hs]

theorem completes_votedScrub (s : State) (same : List Nat) (hp : powered s.dev = true) :
    Completes (.votedScrub same []) s (s.dev.rg.votes.foldl (scrubReg same) s.dev) :=
  completes_of_act (f := fun d => if !powered d then d else d.rg.votes.foldl (scrubReg same) d) rfl (by simp [hp])

end Sys2Proof.Machine
end

section
/-! PROOFS. The obligation on voted registers. -/

open Sys2Proof Sys2Proof.Machine Sys2Proof.Machine.Parts

/-- Settles O24: the majority is what each register's scrub stores, and the canonical form lists each register once. -/
theorem votedRegisters : Obligations.VotedRegisters := by
  unfold Obligations.VotedRegisters
  refine ⟨fun d off copy bits h => regVal_upset copy bits h, fun s same hp =>
    ⟨_, completes_votedScrub s same hp, regVal_scrub same _ _, fun hw off v hm => ?_⟩⟩
  intro differ hv
  obtain ⟨hvotes, hdis⟩ := scrub_differ same hw hm hv
  refine ⟨hvotes, fun hs => ?_, fun hs => ?_⟩
  · rw [hdis, if_pos hs]
  · rw [hdis, if_neg hs]; rfl

end

section
/-! SUPPORT. Reads that clear (03 R82, R89, R93). -/

namespace Sys2Proof.Machine

open Parts

variable {s : State} {core off : Nat} {fenced : Bool}

/-- A read that clears completes with what the core sees of it. -/
theorem completes_readToClear (hf : (fenced && cboOpen s.dev core) = false) (hc : readClears off = true) :
    Completes (.readToClear core off fenced) s
      (hostSees (clearingRead s.dev off).1 (.value core (clearingRead s.dev off).2.toNat false)) := by
  change execReadToClear core off fenced s = _
  simp [execReadToClear, act, hf, hc]

theorem readClears_companion (h : 0x200 ≤ offReg off) : readClears off = true := by simp [readClears, h]

theorem readClears_rc (h : rcBits off ≠ 0) : readClears off = true := by
  rw [readClears, bne_iff_ne.2 h, Bool.or_true]

section Present
variable {d : Dev} (ha : unitAbsent d off = false) (hr : regRetired d off = false)
include ha hr

theorem clearingRead_rc (hreg : offReg off < 0x200) :
    clearingRead d off = (setReg d off (regVal d off &&& ~~~ rcBits off), regVal d off) := by
  simp [clearingRead, ha, hr, Nat.not_le.2 hreg]

theorem clearingRead_companion (hreg : 0x200 ≤ offReg off) {row : RegRow} (hrow : regRow? (off - 0x800) = some row)
    (hbits : row.rwb ||| row.rov ≠ 0) :
    let x := Sparse.get noDis d.rg.dis (off - 0x800)
    clearingRead d off =
      ({ d with rg := { d.rg with dis := Sparse.set noDis d.rg.dis (off - 0x800) { x with count := 0 } } },
        BitVec.ofNat 32 (b2n (companionPending d (off - 0x800)) + x.lastBit * 2 ^ 8 + x.count * 2 ^ 16)) := by
  simp [clearingRead, ha, hr, hreg, hrow, hbits]

end Present

theorem clearingRead_none {d : Dev} (hreg : 0x200 ≤ offReg off) (hrow : regRow? (off - 0x800) = none) :
    clearingRead d off = (d, 0) := by
  simp [clearingRead, hreg, hrow]

end Sys2Proof.Machine
end

section
/-! SUPPORT. Host accesses through CD windows (02 R61; 10 R307 to R310; 18 R553). -/

namespace Sys2Proof.Machine

open Parts

variable {s : State} {core pa n : Nat} {op : HostOp} {fenced : Bool} {ecc : List (Nat × EccFound)}

/-! What a byte is to a window access. -/

theorem hostByte_tile {d : Dev} {a c t : Nat} (h : paKind d a = .tile c t) :
    hostByte d a = if tileRetired d c t then .bad else .memory := by rw [hostByte, h]

theorem hostByte_scratch {d : Dev} {a c sl : Nat} (h : paKind d a = .scratch c sl) :
    hostByte d a = if sliceMode d c sl = 1 then .memory else .bad := by rw [hostByte, h]

theorem hostByte_memory {d : Dev} {a : Nat} (h : (∃ c t, paKind d a = .tile c t ∧ tileRetired d c t = false) ∨
    ∃ c t, paKind d a = .scratch c t ∧ sliceMode d c t = 1) : hostByte d a = .memory := by
  rcases h with ⟨c, t, hk, hr⟩ | ⟨c, t, hk, hm⟩
  · simp [hostByte_tile hk, hr]
  · simp [hostByte_scratch hk, hm]

theorem hostByte_bad {d : Dev} {a : Nat} (h : paKind d a = .hole ∨
    (∃ c t, paKind d a = .tile c t ∧ tileRetired d c t = true) ∨ ∃ c t, paKind d a = .scratch c t ∧ sliceMode d c t ≠ 1) : hostByte d a = .bad := by
  rcases h with hk | ⟨c, t, hk, hr⟩ | ⟨c, t, hk, hm⟩
  · rw [hostByte, hk]
  · simp [hostByte_tile hk, hr]
  · simp [hostByte_scratch hk, hm]

theorem hostByte_absent {d : Dev} {a : Nat} (h : paKind d a = .noCd ∨ paKind d a = .unfitted) : hostByte d a = .absent := by
  rcases h with hk | hk <;> rw [hostByte, hk]

/-- The bytes of an access, as window bytes. -/
def accessBytes (d : Dev) (pa n : Nat) : List HostByte := (upto n).map fun i => hostByte d (pa + i)

theorem accessBytes_contains {d : Dev} {b : HostByte} :
    (accessBytes d pa n).contains b = true ↔ ∃ i < n, hostByte d (pa + i) = b := by
  simp [accessBytes, upto]

theorem accessBytes_not_contains {d : Dev} {b c : HostByte} (h : ∀ i < n, hostByte d (pa + i) = b) (hne : b ≠ c) :
    (accessBytes d pa n).contains c = false := by
  rw [Bool.eq_false_iff, Ne, accessBytes_contains]
  rintro ⟨i, hi, hc⟩
  exact hne ((h i hi).symm.trans hc)

/-- A window access whose bytes are all memory or absent, by operation. -/
def windowServed (d : Dev) (core pa n : Nat) (op : HostOp) (ecc : List (Nat × EccFound)) (absent : Bool) : Dev :=
  match op with
  | .load =>
    if absent then hostSees d (.value core 0 false)
    else hostSees (eccLines d ecc [pa / 64, (pa + n - 1) / 64]) (.value core
      (valAt (eccLines d ecc [pa / 64, (pa + n - 1) / 64]) pa n) (poisonIn (eccLines d ecc [pa / 64, (pa + n - 1) / 64]) pa n))
  | .store v => if absent then d else writeAt d pa (leBytes n v) false
  | .atomic => if paKind d pa = .unfitted then hostSees d (.value core 0 false) else hartFault d core

section Window
variable (hn : 0 < n) (hn8 : n ≤ 8) (hf : (fenced && cboOpen s.dev core) = false)
include hn hn8 hf

/-- The branches of a window access that is not held. -/
theorem completes_hostWindowAccess : Completes (.hostWindowAccess core pa n op fenced ecc) s
    (if (accessBytes s.dev pa n).contains .bad then hartFault s.dev core
    else if (accessBytes s.dev pa n).contains .other then s.dev
    else windowServed s.dev core pa n op ecc ((accessBytes s.dev pa n).contains .absent)) := by
  have hgo : ¬ (n = 0 ∨ 8 < n ∨ (fenced && cboOpen s.dev core) = true) := by rw [hf]; simp; omega
  change execHostWindowAccess core pa n op fenced ecc s = _
  simp only [execHostWindowAccess, act]
  rw [if_neg hgo]
  cases op <;> rfl

theorem window_bad (h : ∃ i < n, hostByte s.dev (pa + i) = .bad) :
    Completes (.hostWindowAccess core pa n op fenced ecc) s (hartFault s.dev core) := by
  have hc := completes_hostWindowAccess (op := op) (ecc := ecc) (pa := pa) hn hn8 hf
  rwa [if_pos (accessBytes_contains.2 h)] at hc

theorem window_memory (h : ∀ i < n, hostByte s.dev (pa + i) = .memory) :
    Completes (.hostWindowAccess core pa n op fenced ecc) s (windowServed s.dev core pa n op ecc false) := by
  have hc := completes_hostWindowAccess (op := op) (ecc := ecc) (pa := pa) hn hn8 hf
  simpa only [accessBytes_not_contains h (show HostByte.memory ≠ .bad by decide),
    accessBytes_not_contains h (show HostByte.memory ≠ .other by decide),
    accessBytes_not_contains h (show HostByte.memory ≠ .absent by decide), Bool.false_eq_true, if_false] using hc

theorem window_absent (h : ∀ i < n, hostByte s.dev (pa + i) = .absent) :
    Completes (.hostWindowAccess core pa n op fenced ecc) s (windowServed s.dev core pa n op ecc true) := by
  have hc := completes_hostWindowAccess (op := op) (ecc := ecc) (pa := pa) hn hn8 hf
  simpa only [accessBytes_not_contains h (show HostByte.absent ≠ .bad by decide),
    accessBytes_not_contains h (show HostByte.absent ≠ .other by decide),
    accessBytes_contains.2 ⟨0, hn, h 0 hn⟩, Bool.false_eq_true, if_false] using hc

end Window

/-- A byte that is memory does not lie in unfitted far tier. -/
theorem paKind_ne_unfitted {d : Dev} {a : Nat} (h : hostByte d a = .memory) : paKind d a ≠ .unfitted := by
  intro hk
  rw [hostByte_absent (.inr hk)] at h
  cases h

/-- An access fault: the core is told, its reservation is dropped, and nothing else changes. -/
theorem hartFault_effect (d : Dev) (core : Nat) :
    (hartFault d core).coh.out = d.coh.out ++ [.fault core] ∧ Sparse.get noLr (hartFault d core).coh.lr core = none ∧
      hartFault d core = { d with coh := { d.coh with out := (hartFault d core).coh.out, lr := (hartFault d core).coh.lr } } :=
  ⟨rfl, Sparse.get_set_same noLr d.coh.lr core none, rfl⟩

end Sys2Proof.Machine
end

section
/-! SUPPORT. Host accesses to the range of its own that the host has (00 R14; 19 R567, R568). -/

namespace Sys2Proof.Machine

open Parts

/-- The value that an aligned load of a region of the host's own range sees. -/
def hostRangeValue (region : Nat → Byte) (n : Nat) : Nat := leNat ((upto n).map region)

section HostRange
variable {s : State} {core pa n : Nat} {op : HostOp} (hpa : 0x400000000000 ≤ pa)
include hpa

theorem hostRange_notLoad (h : op ≠ .load) : Completes (.hostPrivateAccess core pa n op) s (hartFault s.dev core) := by
  change execHostPrivateAccess core pa n op s = _
  simp only [execHostPrivateAccess, act]
  rw [if_neg (by omega), if_pos h]

variable (hn : n ∈ [1, 2, 4, 8])
include hn

/-- The branches of a load of a size that a hart has. -/
theorem completes_hostRange_load : Completes (.hostPrivateAccess core pa n .load) s
    (if pa % n ≠ 0 then hartFault s.dev core
    else if pa < 0x400000040000 then
      hostSees s.dev (.value core (hostRangeValue (fun i => Config.romByte (pa - 0x400000000000 + i)) n) false)
    else if 0x400010000000 ≤ pa ∧ pa < 0x400014000000 then
      hostSees s.dev (.value core (hostRangeValue (fun i => windowByte s.dev (pa - 0x400010000000 + i)) n) false)
    else hartFault s.dev core) := by
  have hsize : ¬ (n ≠ 1 ∧ n ≠ 2 ∧ n ≠ 4 ∧ n ≠ 8) := by
    simp only [List.mem_cons, List.not_mem_nil, or_false] at hn
    omega
  change execHostPrivateAccess core pa n .load s = _
  simp only [execHostPrivateAccess, act]
  rw [if_neg (by omega), if_neg (fun h => h rfl), if_neg hsize]
  rfl

theorem hostRange_misaligned (h : pa % n ≠ 0) : Completes (.hostPrivateAccess core pa n .load) s (hartFault s.dev core) := by
  have hc := completes_hostRange_load (s := s) (core := core) hpa hn
  rwa [if_pos h] at hc

variable (ha : pa % n = 0)
include ha

theorem hostRange_rom (h : pa < 0x400000040000) : Completes (.hostPrivateAccess core pa n .load) s
    (hostSees s.dev (.value core (hostRangeValue (fun i => Config.romByte (pa - 0x400000000000 + i)) n) false)) := by
  have hc := completes_hostRange_load (s := s) (core := core) hpa hn
  rwa [if_neg (fun h => h ha), if_pos h] at hc

theorem hostRange_flash (h : 0x400010000000 ≤ pa) (h' : pa < 0x400014000000) : Completes (.hostPrivateAccess core pa n .load) s
    (hostSees s.dev (.value core (hostRangeValue (fun i => windowByte s.dev (pa - 0x400010000000 + i)) n) false)) := by
  have hc := completes_hostRange_load (s := s) (core := core) hpa hn
  rwa [if_neg (fun h => h ha), if_neg (by omega), if_pos ⟨h, h'⟩] at hc

theorem hostRange_hole (h : 0x400000040000 ≤ pa) (h' : pa < 0x400010000000 ∨ 0x400014000000 ≤ pa) :
    Completes (.hostPrivateAccess core pa n .load) s (hartFault s.dev core) := by
  have hc := completes_hostRange_load (s := s) (core := core) hpa hn
  rwa [if_neg (fun h => h ha), if_neg (by omega), if_neg (by omega)] at hc

end HostRange

end Sys2Proof.Machine
end

section
/-! PROOFS. The obligation on host accesses. -/

open Sys2Proof Sys2Proof.Machine Sys2Proof.Machine.Parts

/-- Settles O26, by the kind of access: a read that clears, an access through a window by what its bytes are, an access to the
host's own range by its region. -/
theorem hostAccesses : Obligations.HostAccesses := by
  unfold Obligations.HostAccesses
  intro s core fenced d sees faults hf
  have fault : ∀ {i : Instr}, Completes i s (hartFault d core) → faults i := fun h => ⟨_, h, hartFault_effect d core⟩
  refine ⟨?rc, ?companion, ?noRegister, ?window, ?hostRange⟩
  case rc =>
    intro off ha hr hreg hrc
    have h := completes_readToClear hf (readClears_rc hrc)
    rw [clearingRead_rc ha hr hreg] at h
    exact ⟨_, h, rfl, regRaw_setReg_same .., fun o ho => regRaw_setReg_other d off _ ho⟩
  case companion =>
    intro off row ha hr hreg hrow hbits x pend
    have h := completes_readToClear hf (readClears_companion hreg)
    rw [clearingRead_companion ha hr hreg hrow hbits] at h
    exact ⟨_, h, rfl, Sparse.get_set_same .., rfl⟩
  case noRegister =>
    intro off hreg hrow
    have h := completes_readToClear hf (readClears_companion hreg)
    rwa [clearingRead_none hreg hrow] at h
  case window =>
    intro pa n op ecc hn hn8 kind open_ closed_
    refine ⟨fun hopen => ?_, fun ⟨i, hi, hk⟩ => fault (window_bad hn hn8 hf ⟨i, hi, hostByte_bad hk⟩), fun habs => ?_⟩
    · have hmem : ∀ i < n, hostByte d (pa + i) = .memory := fun i hi => hostByte_memory (hopen i hi)
      have hfit : paKind d pa ≠ .unfitted := paKind_ne_unfitted (hmem 0 hn)
      refine ⟨?_, ?_, ?_⟩
      · rintro rfl; exact window_memory hn hn8 hf hmem
      · rintro v rfl; exact window_memory hn hn8 hf hmem
      · rintro rfl
        refine fault ?_
        have h := window_memory (op := .atomic) (ecc := ecc) hn hn8 hf hmem
        rwa [windowServed, if_neg hfit] at h
    · have habsent : ∀ i < n, hostByte d (pa + i) = .absent := fun i hi => hostByte_absent (habs i hi)
      refine ⟨?_, ?_⟩
      · rintro rfl; exact window_absent hn hn8 hf habsent
      · rintro v rfl; exact window_absent hn hn8 hf habsent
  case hostRange =>
    intro pa n op hpa
    refine ⟨fun hop => fault (hostRange_notLoad hpa hop), ?_⟩
    rintro rfl hn
    exact ⟨fun ha => fault (hostRange_misaligned hpa hn ha), fun ha =>
      ⟨hostRange_rom hpa hn ha, hostRange_flash hpa hn ha, fun h h' => fault (hostRange_hole hpa hn ha h h')⟩⟩

end

section
/-! SUPPORT. What leaves the queues, the dispatchers and the registers as they are. -/

namespace Sys2Proof.Machine

open Parts

theorem queueOf_of_qs {d e : Dev} (h : e.qs = d.qs) (q : Nat) : queueOf e q = queueOf d q := by rw [queueOf, h]; rfl

theorem dispOf_of_disp {d e : Dev} (h : e.disp = d.disp) (c : Nat) : dispOf e c = dispOf d c := by rw [dispOf, h]; rfl

@[simp] theorem queueOf_setQueue_same (d : Dev) (q : Nat) (x : Queue) : queueOf (setQueue d q x) q = x := by
  rw [queueOf_setQueue, if_pos rfl]

/-! Reports. -/

theorem Reports.streams {d e : Dev} (h : Reports d e) : e.qs = d.qs ∧ e.disp = d.disp := by
  obtain ⟨_, _, _, _, rfl⟩ := h
  exact ⟨rfl, rfl⟩

theorem queueOf_setFlag (d : Dev) (off b q : Nat) : queueOf (setFlag d off b) q = queueOf d q :=
  queueOf_of_qs (setFlag_reports d off b).streams.1 q

theorem queueOf_flagIf (c : Bool) (d : Dev) (off b q : Nat) : queueOf (flagIf c d off b) q = queueOf d q := by
  cases c
  · rfl
  · exact queueOf_setFlag d off b q

/-! Lines filled at their homes. -/

theorem addCtr_reports (d : Dev) (off n : Nat) : Reports d (addCtr d off n) :=
  (setReg_reports d off _).trans (setReg_reports _ (off + 4) _)

theorem keepLine_qs (d : Dev) (c l ln : Nat) : (keepLine d c l ln).qs = d.qs := by
  unfold keepLine
  split <;> rfl

theorem homeFill_qs (d : Dev) (ln : Nat) : (homeFill d ln).qs = d.qs := by
  unfold homeFill
  split
  · rfl
  · split
    · exact (addCtr_reports d _ 1).streams.1
    · split
      · rfl
      · exact (keepLine_qs _ _ _ _).trans ((addCtr_reports d _ 1).trans (addCtr_reports _ _ 1)).streams.1

theorem queueOf_fillLines (d : Dev) (lines : List Nat) (q : Nat) : queueOf (fillLines d lines) q = queueOf d q := by
  induction lines generalizing d with
  | nil => rfl
  | cons l ls ih => exact (ih _).trans (queueOf_of_qs (homeFill_qs d l) q)

/-! Management writes and buffers that come to their registers. -/

/-- The queues and the dispatchers are the same. -/
def SameStreams (d e : Dev) : Prop := e.qs = d.qs ∧ e.disp = d.disp

theorem SameStreams.trans {d e f : Dev} (h : SameStreams d e) (h' : SameStreams e f) : SameStreams d f :=
  ⟨h'.1.trans h.1, h'.2.trans h.2⟩

theorem mgmtEnd_streams (d : Dev) (w : MgmtWrite) (code : Nat) : SameStreams d (mgmtEnd d w code) :=
  (mgtQueue_reports d _).streams

theorem staleMgmt_streams (d : Dev) (w : MgmtWrite) : SameStreams d (staleMgmt d w) :=
  SameStreams.trans (setFlag_reports (dropMgmt d w) _ _).streams (mgmtEnd_streams _ w 2)

theorem mgmtTook_streams (d e : Dev) (w : MgmtWrite) (bits : Word32) : SameStreams e (mgmtTook d e w bits) := by
  have hbump : SameStreams e
      (if (regVal d w.off ^^^ regVal e w.off) &&& votedBits w.off != 0 then bumpGen e w.off else e) := by
    split <;> exact ⟨rfl, rfl⟩
  unfold mgmtTook
  dsimp only
  split
  · exact hbump.trans (mgmtEnd_streams (dropMgmt _ w) w 0)
  · exact hbump

theorem loadMgmt_streams (d : Dev) (off : Nat) (bits : Word32) : SameStreams d (loadMgmt d off bits) := by
  unfold loadMgmt
  split
  · exact ⟨rfl, rfl⟩
  · split
    · exact ⟨rfl, rfl⟩
    · split
      · exact staleMgmt_streams d _
      · refine SameStreams.trans ?_ (mgmtTook_streams d _ _ bits)
        rw [bufferWrite_frame]
        exact ⟨rfl, rfl⟩

theorem readyAction_streams (d : Dev) (q : Nat) : SameStreams d (readyAction d q) := by
  unfold readyAction loadCmd
  split
  · split
    · split
      · exact loadMgmt_streams d _ _
      · exact ⟨rfl, rfl⟩
    · exact ⟨rfl, rfl⟩
  · exact ⟨rfl, rfl⟩

theorem applyField_streams (d : Dev) (off : Nat) (bits : Word32) : SameStreams d (applyField d off bits) := by
  unfold applyField
  dsimp only
  split <;> exact ⟨rfl, rfl⟩

theorem takeAction_streams (d : Dev) (q : Nat) (bits : Word32) : SameStreams d (takeAction d q bits) :=
  SameStreams.trans (applyField_streams d (qOff q 6) _) (setReg_reports _ _ _).streams

/-! Waits that are abandoned, and those that take their place. -/

/-- The registers and the dispatchers are the same. -/
def SameControl (d e : Dev) : Prop := e.rg = d.rg ∧ e.disp = d.disp

theorem SameControl.trans {d e f : Dev} (h : SameControl d e) (h' : SameControl e f) : SameControl d f :=
  ⟨h'.1.trans h.1, h'.2.trans h.2⟩

theorem setPathState_control (d : Dev) (c t slot lane : Nat) (f : Path → Path) :
    SameControl d (setPathState d c t slot lane f) := by
  unfold setPathState
  dsimp only
  split
  · exact ⟨rfl, rfl⟩
  · split <;> exact ⟨rfl, rfl⟩

theorem arriveWait_control (d : Dev) (w : Waiter) : SameControl d (arriveWait d w) := by
  unfold arriveWait releaseWait
  dsimp only
  split
  · split
    · exact ⟨rfl, rfl⟩
    · exact SameControl.trans (e := dropWait d w) ⟨rfl, rfl⟩ (setPathState_control _ _ _ _ _ _)
    · exact ⟨rfl, rfl⟩
  · exact ⟨rfl, rfl⟩

theorem arriveWaits_control (ws : List Waiter) (d : Dev) : SameControl d (ws.foldl arriveWait d) := by
  induction ws generalizing d with
  | nil => exact ⟨rfl, rfl⟩
  | cons w ws ih => exact (arriveWait_control d w).trans (ih _)

theorem dropWaits_control (d : Dev) (q : Nat) : SameControl d (dropWaits d q) :=
  SameControl.trans (e := { d with gg := { d.gg with wait := d.gg.wait.filter fun w => w.who != .queue q } }) ⟨rfl, rfl⟩
    (arriveWaits_control _ _)

end Sys2Proof.Machine
end

section
/-! SUPPORT. Records (03 R66 to R72, R98, R99). -/

namespace Sys2Proof.Machine

open Parts

variable {s : State} {q : Nat}

/-- A queue once a sealed record has been taken in: one without an instruction is retired at once. -/
def recordTaken (e : Dev) (q : Nat) (ws : List Word64) : Queue :=
  let x := queueOf e q
  let gen := (x.fetched + 1) % 0x10000
  let y := { x with
    fetched := gen, gen := gen, words := ws, pos := 1, lines := ws.length / 8, reads := 0
    line := (x.line + ws.length / 8) % ringLines e q }
  if ws.length - 2 < 1 then recordDone y else y

theorem queueOf_takeRecord (e : Dev) (q : Nat) (ws : List Word64) : queueOf (takeRecord e q ws) q = recordTaken e q ws :=
  queueOf_setQueue_same _ _ _

section Read
variable {d e : Dev} {reads : Nat} (he : fillLines d (recordLines d q) = e)
include he

theorem readNext_sealed (h : sealed (readRecord e q (queueOf e q).line).1 (readRecord e q (queueOf e q).line).2
      (((queueOf e q).fetched + 1) % 0x10000) = true) :
    queueOf (readNext q reads d) q = recordTaken e q (readRecord e q (queueOf e q).line).1 := by
  rw [← queueOf_takeRecord]
  unfold readNext
  simp only [he, h, if_true]
  split
  · rfl
  · exact queueOf_setFlag _ _ _ _

variable (h : sealed (readRecord e q (queueOf e q).line).1 (readRecord e q (queueOf e q).line).2
      (((queueOf e q).fetched + 1) % 0x10000) = false)
include h

theorem readNext_unsealed (hr : reads < 8) :
    readNext q reads d = setQueue e q { queueOf e q with reads := reads + 1 } := by
  unfold readNext
  simp only [he, h, Bool.false_eq_true, if_false, Nat.ne_of_lt hr]

theorem readNext_last (hr : reads = 8) :
    readNext q reads d = holdQueue (setQueue e q { queueOf e q with reads := 0 }) q
      (if (readRecord e q (queueOf e q).line).2 then 3 else 2) := by
  unfold readNext
  simp only [he, h, Bool.false_eq_true, if_false, hr, if_true]

end Read

theorem completes_recordRead (noToken : Bool) (hw : wantsRecord (queueOf s.dev q) = true) (hr : (queueOf s.dev q).reads = 0) :
    Completes (.recordRead q noToken) s
      (readNext q (queueOf s.dev q).reads (flagIf (noToken && qClass s.dev q == 0) s.dev (arbOff (queueCd q)) 0)) := by
  change execRecordRead q noToken s = _
  simp [execRecordRead, act, hw, hr]

theorem completes_recordReread (hw : wantsRecord (queueOf s.dev q) = true) (hr : (queueOf s.dev q).reads ≠ 0) :
    Completes (.recordReread q) s (readNext q (queueOf s.dev q).reads s.dev) := by
  change execRecordReread q s = _
  simp [execRecordReread, act, hw, hr]

/-- A first read and a later one are one read, but for the flag of a first read that found no token. -/
theorem completes_read {i : Nat → Instr} {first noToken : Bool}
    (hi : (i, first) ∈ [((Instr.recordRead · noToken), true), (Instr.recordReread, false)])
    (hw : wantsRecord (queueOf s.dev q) = true) (hr : ((queueOf s.dev q).reads == 0) = first) :
    Completes (i q) s (readNext q (queueOf s.dev q).reads
      (flagIf (first && noToken && qClass s.dev q == 0) s.dev (arbOff (queueCd q)) 0)) := by
  simp only [List.mem_cons, Prod.mk.injEq, List.not_mem_nil, or_false] at hi
  rcases hi with ⟨rfl, rfl⟩ | ⟨rfl, rfl⟩
  · exact completes_recordRead noToken hw (beq_iff_eq.1 hr)
  · exact completes_recordReread hw (beq_eq_false_iff_ne.1 hr)

end Sys2Proof.Machine
end

section
/-! SUPPORT. Doorbells (03 R70, R71, R78). -/

namespace Sys2Proof.Machine

open Parts

/-- How far a doorbell count is ahead of the records fetched (03 R70). -/
def ahead (x : Queue) (count : Nat) : Nat := (count + 0x10000 - x.fetched) % 0x10000

theorem rung_eq_run (st : QState) : rung st = .run ↔ st = .empty ∨ st = .run := by cases st <;> decide

variable {d : Dev} {q count : Nat} {src : DoorbellFrom}

theorem doorbell_foreign (h : isProducer d q src = false) : doorbell d q src count = setFlag d (qOff q 5) 21 := by
  simp [doorbell, h]

section Producer
variable (hp : isProducer d q src = true) (hs : (queueOf d q).state ≠ .disabled)
include hp hs

/-- The branches of a doorbell of the producer to a queue that is enabled. -/
theorem doorbell_eq : doorbell d q src count =
    if ahead (queueOf d q) count = 0 then
      setQueue d q (if (queueOf d q).words = [] then { queueOf d q with
          count := count, reads := 0, state := idled (queueOf d q).state, before := idled (queueOf d q).before }
        else { queueOf d q with count := count })
    else if ahead (queueOf d q) count < 0x8000 then
      setQueue (if rung (queueOf d q).state = .run then workArrives d else d) q { queueOf d q with
        count := count, state := rung (queueOf d q).state, before := rung (queueOf d q).before }
    else setFlag d (qOff q 5) 20 := by
  simp only [doorbell, hp, hs, Bool.not_true, Bool.false_eq_true, if_false]
  rfl

theorem doorbell_ahead (h : 0 < ahead (queueOf d q) count) (h' : ahead (queueOf d q) count < 0x8000) :
    doorbell d q src count = setQueue (if (queueOf d q).state = .empty ∨ (queueOf d q).state = .run then workArrives d else d) q
      { queueOf d q with count := count, state := rung (queueOf d q).state, before := rung (queueOf d q).before } := by
  rw [doorbell_eq hp hs, if_neg (Nat.ne_of_gt h), if_pos h']
  simp only [rung_eq_run]

theorem doorbell_inHand (h : ahead (queueOf d q) count = 0) (hw : (queueOf d q).words ≠ []) :
    doorbell d q src count = setQueue d q { queueOf d q with count := count } := by
  rw [doorbell_eq hp hs, if_pos h, if_neg hw]

theorem doorbell_idle (h : ahead (queueOf d q) count = 0) (hw : (queueOf d q).words = []) :
    doorbell d q src count = setQueue d q { queueOf d q with
      count := count, reads := 0, state := idled (queueOf d q).state, before := idled (queueOf d q).before } := by
  rw [doorbell_eq hp hs, if_pos h, if_pos hw]

theorem doorbell_behind (h : 0x8000 ≤ ahead (queueOf d q) count) : doorbell d q src count = setFlag d (qOff q 5) 20 := by
  rw [doorbell_eq hp hs, if_neg (by omega), if_neg (by omega)]

end Producer

theorem completes_qDoorbell {s : State} {after : Option Nat} (hc : count < 0x10000) (hh : heldByCbo s.dev after = false)
    (hf : cdFitted s.dev.variant (queueCd q) = true) :
    Completes (.qDoorbell q count after) s (doorbell s.dev q .window count) := by
  change execQDoorbell q count after s = _
  simp [execQDoorbell, act, hh, hf, Nat.mod_eq_of_lt hc]

end Sys2Proof.Machine
end

section
/-! SUPPORT. Q.ACTION (03 R80; 18 R561). -/

namespace Sys2Proof.Machine

open Parts

theorem queueOf_readyAction (d : Dev) (q p : Nat) : queueOf (readyAction d q) p = queueOf d p :=
  queueOf_of_qs (readyAction_streams d q).1 p

theorem queueOf_takeAction (d : Dev) (q : Nat) (bits : Word32) (p : Nat) : queueOf (takeAction d q bits) p = queueOf d p :=
  queueOf_of_qs (takeAction_streams d q bits).1 p

theorem listGet_eq_getD {α : Type} (a : α) (l : List α) (n : Nat) : listGet a l n = l.getD n a := by
  induction l generalizing n with
  | nil => rfl
  | cons x l ih => cases n with
    | zero => rfl
    | succ n => exact ih n

/-- A flushed queue: it has fetched and retired what its doorbell names, and holds nothing. -/
def flushedQueue (x : Queue) (line : Nat) : Queue :=
  { x with
    fetched := x.count, retired := x.count, gen := x.count, words := [], pos := 0, reads := 0, wait := .none, launch := none
    line := line }

section Action
variable {s : State} {q : Nat} (ha : actionReady (queueOf s.dev q) = true)
include ha

/-- A flush, once it has been taken from Q.ACTION. -/
theorem completes_qFlush (h3 : actionBit (readyAction s.dev q) q 3 = true) :
    let d := takeAction (readyAction s.dev q) q 8
    Completes (.qFlush q) s
      (wakeQueue (setQueue (dropWaits d q) q (flushedQueue (queueOf s.dev q) (regFld d (qOff q 6) 31 16))) q) := by
  have hline : ∀ d, regFld (dropWaits d q) (qOff q 6) 31 16 = regFld d (qOff q 6) 31 16 := fun d => by
    rw [regFld, regVal, regRaw, (dropWaits_control d q).1]; rfl
  change execQFlush q s = _
  simp [execQFlush, act, queueOf_readyAction, queueOf_takeAction, ha, h3, hline, flushedQueue]

/-- While its dispatcher is in RUN, a queue that is flushed goes to EMPTY. -/
theorem qFlush_empties (h3 : actionBit (readyAction s.dev q) q 3 = true)
    (hd : (dispOf (readyAction s.dev q) (queueCd q)).state = 0) :
    ∃ e, Completes (.qFlush q) s e ∧ queueOf e q = { flushedQueue (queueOf s.dev q)
      (regFld (takeAction (readyAction s.dev q) q 8) (qOff q 6) 31 16) with state := .empty } := by
  have hdisp : ∀ x, (dispOf (setQueue (dropWaits (takeAction (readyAction s.dev q) q 8) q) q x) (queueCd q)).state = 0 := fun x =>
    (congrArg Dispatcher.state (dispOf_of_disp
      ((dropWaits_control _ q).2.trans (takeAction_streams (readyAction s.dev q) q 8).2) _)).trans hd
  refine ⟨_, completes_qFlush ha h3, ?_⟩
  rw [wakeQueue_idle (by rw [queueOf_setQueue_same]; rfl) (by rw [queueOf_setQueue_same]; rfl) (hdisp _),
    queueOf_setQueue_same, queueOf_setQueue_same]

variable (h3 : actionBit (readyAction s.dev q) q 3 = false)
include h3

theorem completes_qHold (h2 : actionBit (readyAction s.dev q) q 2 = true) :
    Completes (.qHold q) s (holdQueue (takeAction (readyAction s.dev q) q 7) q 5) := by
  change execQHold q s = _
  simp [execQHold, act, queueOf_readyAction, ha, h3, h2]

variable (h2 : actionBit (readyAction s.dev q) q 2 = false) (hs : (queueOf s.dev q).state = .held)
include h2 hs

theorem completes_qResume (h0 : actionBit (readyAction s.dev q) q 0 = true) :
    Completes (.qResume q) s
      (wakeQueue (setQueue (takeAction (readyAction s.dev q) q 1) q { queueOf s.dev q with reads := 0 }) q) := by
  have hheld : heldNow (queueOf s.dev q) = true := by simp [heldNow, hs]
  change execQResume q s = _
  simp [execQResume, act, resumeQueue, queueOf_readyAction, queueOf_takeAction, ha, h3, h2, h0, hheld]

theorem completes_qSkip (h1 : actionBit (readyAction s.dev q) q 1 = true)
    (hr : (queueOf s.dev q).reason = 1 ∨ (queueOf s.dev q).reason = 4) (hw : (queueOf s.dev q).words ≠ []) :
    Completes (.qSkip q) s (wakeQueue (retireInstr (setQueue (takeAction (readyAction s.dev q) q 2) q
      { queueOf s.dev q with state := .run }) q (1 + wExt ((queueOf s.dev q).words.getD (queueOf s.dev q).pos 0))) q) := by
  have hskip : heldNow (queueOf s.dev q) = true ∧ ((queueOf s.dev q).reason = 1 ∨ (queueOf s.dev q).reason = 4) ∧
      (queueOf s.dev q).words ≠ [] := ⟨by simp [heldNow, hs], hr, hw⟩
  change execQSkip q s = _
  simp only [execQSkip, act, queueOf_readyAction, queueOf_takeAction, ha, h3, h2, h1, Bool.not_true, Bool.or_self,
    Bool.false_eq_true, if_false, if_pos hskip, listGet_eq_getD]

end Action

end Sys2Proof.Machine
end

section
/-! PROOFS. The obligation on records, doorbells and actions of streams. -/

open Sys2Proof Sys2Proof.Machine Sys2Proof.Machine.Parts

/-- Settles O20: what a read finds, how far a doorbell is ahead, and which action is taken first decide what a queue does. -/
theorem streamRecordsAndActions : Obligations.StreamRecordsAndActions := by
  unfold Obligations.StreamRecordsAndActions
  intro s q
  refine ⟨?records, ?doorbells, ?actions⟩
  case records =>
    intro i first noToken hi hw hr z e r gen
    have hc := completes_read hi hw hr
    have he : queueOf e q = queueOf s.dev q := (queueOf_fillLines _ _ _).trans (queueOf_flagIf _ _ _ _ _)
    refine ⟨fun hseal _ => ⟨_, hc, ?_⟩, fun hseal h8 => ?_, fun hseal h8 => ?_⟩
    · rw [readNext_sealed (e := e) rfl (by rw [he]; exact hseal), recordTaken, he]
    · rw [readNext_unsealed (e := e) rfl (by rw [he]; exact hseal) h8, he] at hc
      exact hc
    · rw [readNext_last (e := e) rfl (by rw [he]; exact hseal) h8, he] at hc
      exact hc
  case doorbells =>
    intro count after hcount hh hf
    have hc := completes_qDoorbell hcount hh hf
    refine ⟨fun hp => ?_, fun hp hs => ?_⟩
    · have hforeign : isProducer s.dev q .window = false := beq_eq_false_iff_ne.2 hp
      rwa [doorbell_foreign hforeign] at hc
    · have hprod : isProducer s.dev q .window = true := beq_iff_eq.2 hp
      refine ⟨fun h h' => ?_, fun h hw => ?_, fun h hw => ?_, fun h => ?_⟩
      · rw [doorbell_ahead hprod hs h h'] at hc; exact hc
      · rwa [doorbell_inHand hprod hs h hw] at hc
      · rw [doorbell_idle hprod hs h hw] at hc; exact hc
      · rwa [doorbell_behind hprod hs h] at hc
  case actions =>
    intro ha
    exact ⟨qFlush_empties ha, completes_qHold ha, fun h3 h2 =>
      ⟨fun h0 hs => completes_qResume ha h3 h2 hs h0, fun h1 hs hr hw => completes_qSkip ha h3 h2 hs h1 hr hw⟩⟩

end

section
/-! SUPPORT. Issue to the matrix engine, the aligner and the slicer (05 R170 to R172, R178; 06 R197, R198; 07 R230, R234,
R235): what each way through it does. -/

namespace Sys2Proof.Machine

open Parts

/-- A unit instruction stands at the end of its unit's queue, and nothing else differs but paths and the issue order. -/
def QueuedAt (d e : Dev) (r : PathRef) (g : Group) (p : Path) (b : Block) (w : Word64) (u : UnitSel) (n : UnitNew) : Prop :=
  OnlyTile d e r.cd r.tile ∧ GroupIs e r g (threadAt g) ∧
    tileOf e r.cd r.tile = queued d (tileOf e r.cd r.tile).slots r u p b w n

/-- The block of an issuing path has faulted at the path's leader. -/
def leaderFault (d : Dev) (r : PathRef) (g : Group) (p : Path) (b : Block) (w : Word64) (st : Nat) (va : Option Nat) : Dev :=
  settleSlot (blockFault (issuedDev d r g p w) r.cd r.tile b.id r.slot (leader p) p.pc st va) r.cd r.tile r.slot

section Issue

variable {s : State} {c : Instr} {d : Dev} {r : PathRef} {g : Group} {p : Path} {b : Block} {w : Word64} {op : Op}
  {imms : List Word64} {sel : Op → Bool} {u : UnitSel} {us : Ctx → List Nat} {regs : List Nat}
  {chk : Ctx → List Nat → UnitCheck} {n : UnitNew} {st : Nat} {va : Option Nat}

/-- An issue leaves the uniform registers of its group as they were. -/
theorem ureg_issued : ureg (issueCtx d r g p b w op imms).g = ureg g := rfl

theorem upoison_issued : upoison (issueCtx d r g p b w op imms).g = upoison g := rfl

/-- While its queue is full, a unit instruction is not issued. -/
theorem issueUnit_full (h : Issues d r g p b w op imms) (hs : sel op = true) (hc : LeaderGoes w g p)
    (hq : unitRoom (tileOf d r.cd r.tile) u = false) : issueUnit sel u us chk r d = d := by
  have hq' : unitRoom (issueCtx d r g p b w op imms).x u = false := (unitRoom_issued _ _ _ _ _ _).trans hq
  rw [issueUnit, issueLeader_issues h hs hc]
  simp only [hq', Bool.not_false, if_true]

/-- A CDb has no units for split arithmetic. -/
theorem issueSplit_absent (h : Issues d r g p b w op imms) (hs : sel op = true) (hc : LeaderGoes w g p)
    (hf : cdFull d r.cd = false) : issueSplit sel u us chk r d =
      settleSlot (raiseStatus (issuedDev d r g p w) r.cd r.tile b.id stAbsent) r.cd r.tile r.slot := by
  rw [issueSplit, hf, issueLeader_issues h hs hc]
  rfl

/-- In hardware mode a split instruction is issued as every unit instruction is. -/
theorem issueSplit_hardware (hf : cdFull d r.cd = true) (hm : (tileOf d r.cd r.tile).split = false) :
    issueSplit sel u us chk r d = issueUnit sel u us chk r d := by
  simp only [issueSplit, hf, hm, Bool.not_true, Bool.false_eq_true, if_false]

section Assisted
variable (h : Issues d r g p b w op imms) (hs : sel op = true) (hc : LeaderGoes w g p) (hf : cdFull d r.cd = true)
  (hm : (tileOf d r.cd r.tile).split = true) (hp : (us (issueCtx d r g p b w op imms)).any (upoison g) = false)
include h hs hc hf hm hp

/-- In host-assisted mode a split instruction whose checks pass is a call. -/
theorem issueSplit_call
    (hk : chk (issueCtx d r g p b w op imms) ((us (issueCtx d r g p b w op imms)).map fun v => (ureg g v).toNat) = .ok n) :
    issueSplit sel u us chk r d =
      settleSlot (assistCall (issuedDev d r g p w) (issueCtx d r g p b w op imms)) r.cd r.tile r.slot := by
  simp only [issueSplit, hf, hm, Bool.not_true, Bool.false_eq_true, if_false, if_true, issueLeader_issues h hs hc,
    upoison_issued, ureg_issued, hp, hk]

theorem issueSplit_assistedFault
    (hk : chk (issueCtx d r g p b w op imms) ((us (issueCtx d r g p b w op imms)).map fun v => (ureg g v).toNat) =
      .fault st va) : issueSplit sel u us chk r d = leaderFault d r g p b w st va := by
  simp only [issueSplit, hf, hm, Bool.not_true, Bool.false_eq_true, if_false, if_true, issueLeader_issues h hs hc,
    upoison_issued, ureg_issued, hp, hk]
  rfl

end Assisted

/-- A command that issues a unit instruction holds its path while the queue is full; else the checks decide whether the
instruction takes its place or the block faults. -/
theorem completes_unit (hx : exec c s = act s fun d => issueUnit sel u us chk r d) (hs : sel op = true)
    (hu : us (issueCtx s.dev r g p b w op imms) = regs) (h : Issues s.dev r g p b w op imms) (hc : LeaderGoes w g p)
    (hp : regs.any (upoison g) = false) :
    (unitRoom (tileOf s.dev r.cd r.tile) u = false → Completes c s s.dev) ∧
    (unitRoom (tileOf s.dev r.cd r.tile) u = true →
      (∀ n, chk (issueCtx s.dev r g p b w op imms) (regs.map fun v => (ureg g v).toNat) = .ok n →
        ∃ e, Completes c s e ∧ QueuedAt s.dev e r g p b w u n) ∧
      ∀ st va, chk (issueCtx s.dev r g p b w op imms) (regs.map fun v => (ureg g v).toNat) = .fault st va →
        Completes c s (leaderFault s.dev r g p b w st va)) := by
  subst hu
  exact ⟨fun hq => completes_of_act hx (issueUnit_full h hs hc hq), fun hq =>
    ⟨fun n hk => ⟨_, completes_of_act hx rfl, issueUnit_ok h hs hc hp hk hq⟩,
      fun st va hk => completes_of_act hx (issueUnit_fault h hs hc hq hp hk)⟩⟩

/-- A command that issues a split instruction, on a CD that has the units, issues it as a unit instruction in hardware mode and
calls in host-assisted mode; a check that fails faults the block in both. -/
theorem completes_split (hx : exec c s = act s fun d => issueSplit sel u us chk r d) (hs : sel op = true)
    (hu : us (issueCtx s.dev r g p b w op imms) = regs) (h : Issues s.dev r g p b w op imms) (hc : LeaderGoes w g p)
    (hf : cdFull s.dev r.cd = true) (hp : regs.any (upoison g) = false)
    (hq : (tileOf s.dev r.cd r.tile).split = true ∨ unitRoom (tileOf s.dev r.cd r.tile) u = true) :
    (∀ n, chk (issueCtx s.dev r g p b w op imms) (regs.map fun v => (ureg g v).toNat) = .ok n →
      ((tileOf s.dev r.cd r.tile).split = false → ∃ e, Completes c s e ∧ QueuedAt s.dev e r g p b w u n) ∧
      ((tileOf s.dev r.cd r.tile).split = true → Completes c s
        (settleSlot (assistCall (issuedDev s.dev r g p w) (issueCtx s.dev r g p b w op imms)) r.cd r.tile r.slot))) ∧
    ∀ st va, chk (issueCtx s.dev r g p b w op imms) (regs.map fun v => (ureg g v).toNat) = .fault st va →
      Completes c s (leaderFault s.dev r g p b w st va) := by
  subst hu
  have room : (tileOf s.dev r.cd r.tile).split = false → unitRoom (tileOf s.dev r.cd r.tile) u = true := fun hm =>
    hq.resolve_left (by simp [hm])
  refine ⟨fun n hk => ⟨fun hm => ⟨_, completes_of_act hx (issueSplit_hardware hf hm), ?_⟩, fun hm => ?_⟩, fun st va hk => ?_⟩
  · exact issueUnit_ok h hs hc hp hk (room hm)
  · exact completes_of_act hx (issueSplit_call h hs hc hf hm hp hk)
  · cases hm : (tileOf s.dev r.cd r.tile).split with
    | true => exact completes_of_act hx (issueSplit_assistedFault h hs hc hf hm hp hk)
    | false => exact completes_of_act hx ((issueSplit_hardware hf hm).trans (issueUnit_fault h hs hc (room hm) hp hk))

end Issue

section Own
variable {s : State} {r : PathRef} {g : Group} {p : Path} {b : Block} {w : Word64} {imms : List Word64}

/-- A tile once `al.bind` has issued on it. -/
def boundTile (x : Tile) (g : Group) (w : Word64) : Tile :=
  { x with bind := ⟨bit w 45, (ureg g (fld w 36 32)).toNat, (ureg g (fld w 31 27)).toNat, bit w 44, bit w 43⟩ }

theorem completes_alBind (h : Issues s.dev r g p b w (.al 0) imms) (hc : LeaderGoes w g p)
    (hp : [fld w 36 32, fld w 31 27].any (upoison g) = false) :
    Completes (.alBind r) s (settleSlot (setTile (issuedDev s.dev r g p w) r.cd r.tile
      (boundTile (issuedTile (tileOf s.dev r.cd r.tile) r.slot g p (1 + wExt w)) g w)) r.cd r.tile r.slot) := by
  have hp' : (upoison (movedGroup g p w) (fld w 36 32) || upoison (movedGroup g p w) (fld w 31 27)) = false := by
    simpa [upoison, movedGroup] using hp
  change execAlBind r s = _
  rw [execAlBind, act, issueLeader_issues h rfl hc]
  simp only [issueCtx, hp', Bool.false_eq_true, if_false, tileOf_issuedDev]
  rfl

/-- `mx.sync`, where the engine's queue has room. -/
theorem completes_mxSync (h : Issues s.dev r g p b w (.mxAcc 3) imms) (hc : LeaderGoes w g p)
    (hq : unitRoom (tileOf s.dev r.cd r.tile) .mx = true) :
    let k := issueCtx s.dev r g p b w (.mxAcc 3) imms
    Completes (.mxSync r) s (settleSlot (updPath (pushUnit (issuedDev s.dev r g p w) k .mx {}) k fun q =>
      { q with st := .mxSync ((tileOf s.dev r.cd r.tile).ord + 1) }) r.cd r.tile r.slot) := by
  have hq' : unitRoom (issueCtx s.dev r g p b w (.mxAcc 3) imms).x .mx = true := (unitRoom_issued _ _ _ _ _ _).trans hq
  change execMxSync r s = _
  rw [execMxSync, act, issueLeader_issues h rfl hc]
  simp only [hq', Bool.not_true, Bool.false_eq_true, if_false]
  rfl

theorem completes_mxSyncRelease {h : Group} {q : Path} {ord : Nat} (hg : groupAt (tileOf s.dev r.cd r.tile) r.slot = some h)
    (hq : pathOf h r.lane = some q) (hs : q.st = .mxSync ord) (hd : syncDone (tileOf s.dev r.cd r.tile) h.blk ord = true) :
    Completes (.mxSyncRelease r) s (setTile s.dev r.cd r.tile (setGroup (tileOf s.dev r.cd r.tile) r.slot
      (settleGroup { h with paths := { q with st := .ready } :: otherPaths h r.lane }))) := by
  change execMxSyncRelease r s = _
  simp only [execMxSyncRelease, act, setPathState, hg, hq, hs, hd, if_true]

end Own

end Sys2Proof.Machine
end

section
/-! PROOFS. The obligation on issue to the matrix engine, the aligner and the slicer. -/

open Sys2Proof Sys2Proof.Machine Sys2Proof.Machine.Parts

/-- Settles O10, by the way an instruction is issued: as a unit instruction, as a split instruction, or by a meaning of its own. -/
theorem unitIssue : Obligations.UnitIssue := by
  unfold Obligations.UnitIssue
  intro s r g p b w imms
  refine ⟨?units, ?splits, ?bind, completes_mxSync, fun _ _ _ => completes_mxSyncRelease⟩
  case units =>
    intro i op u us chk hi h hc hp
    obtain ⟨sel, regs, hx, hs, hu⟩ : ∃ sel regs, (exec (i r) s = act s fun d => issueUnit sel u regs chk r d) ∧
        sel op = true ∧ regs (issueCtx s.dev r g p b w op imms) = us := by
      simp only [List.mem_cons, List.not_mem_nil, or_false, Prod.mk.injEq] at hi
      obtain ⟨rfl, rfl, rfl, rfl, rfl⟩ | ⟨rfl, rfl, rfl, rfl, rfl⟩ | ⟨rfl, rfl, rfl, rfl, rfl⟩ | ⟨rfl, rfl, rfl, rfl, rfl⟩ |
        ⟨rfl, rfl, rfl, rfl, rfl⟩ | ⟨rfl, rfl, rfl, rfl, rfl⟩ | ⟨rfl, rfl, rfl, rfl, rfl⟩ := hi
      all_goals exact ⟨_, _, rfl, rfl, rfl⟩
    exact completes_unit hx hs hu h hc hp
  case splits =>
    intro i op u us chk hi h hc
    obtain ⟨sel, regs, hx, hs, hu⟩ : ∃ sel regs, (exec (i r) s = act s fun d => issueSplit sel u regs chk r d) ∧
        sel op = true ∧ regs (issueCtx s.dev r g p b w op imms) = us := by
      simp only [List.mem_cons, List.not_mem_nil, or_false, Prod.mk.injEq] at hi
      obtain ⟨rfl, rfl, rfl, rfl, rfl⟩ | ⟨rfl, rfl, rfl, rfl, rfl⟩ | ⟨rfl, rfl, rfl, rfl, rfl⟩ | ⟨rfl, rfl, rfl, rfl, rfl⟩ |
        ⟨rfl, rfl, rfl, rfl, rfl⟩ := hi
      all_goals exact ⟨_, _, rfl, rfl, rfl⟩
    exact ⟨fun hf => completes_of_act hx (issueSplit_absent h hs hc hf), completes_split hx hs hu h hc⟩
  case bind =>
    intro h hc hp
    obtain ⟨htile, hgroup, hx⟩ := tile_issued (d := s.dev) (r := r) (g := g) (p := p) (w := w)
      (y := boundTile (issuedTile (tileOf s.dev r.cd r.tile) r.slot g p (1 + wExt w)) g w) rfl
    exact ⟨_, completes_alBind h hc hp, htile, hgroup, by rw [hx]; rfl⟩

end

section
/-! SUPPORT. What `mx.mma` computes (05 R162, R174, R179). -/

namespace Sys2Proof.Machine

open Parts

theorem mmaSum_succ (row col : Nat → Int × Bool) (lo n : Nat) :
    mmaSum row col lo (n + 1) = ((mmaSum row col lo n).1 + (row (lo + n)).1 * (col (lo + n)).1,
      (mmaSum row col lo n).2 || (row (lo + n)).2 || (col (lo + n)).2) := by
  simp [mmaSum, upto, List.range_succ]

/-- The sum of products over a range of depths; it is poisoned where an operand is. -/
theorem mmaSum_eq (row col : Nat → Int × Bool) (lo n : Nat) :
    mmaSum row col lo n = (((List.range n).map fun k => (row (lo + k)).1 * (col (lo + k)).1).sum,
      (List.range n).any fun k => (row (lo + k)).2 || (col (lo + k)).2) := by
  induction n with
  | zero => rfl
  | succ n ih => rw [mmaSum_succ, ih]; simp [List.range_succ, Bool.or_assoc]

/-- A clamped number is the nearest of its range. -/
theorem clampInt_v {lo hi : Int} (h : lo ≤ hi) (v : Int) : (clampInt lo hi v).v = max lo (min hi v) := by
  unfold clampInt
  split
  · show lo = _; omega
  · split
    · show hi = _; omega
    · show v = _; omega

theorem sat32_fst (v : Int) : (sat32 v).1 = BitVec.ofInt 32 (max (-(2 ^ 31)) (min (2 ^ 31 - 1) v)) :=
  congrArg (BitVec.ofInt 32) (clampInt_v (by decide) v)

/-- Without segments, each element of an `mx.mma` is its sum over the whole depth, added to what it accumulates onto and held to
32 bits. -/
theorem mem_mmaEngine_acc (d : Dev) (cd tile : Nat) {i : UnitInstr} (hs : mmaSeg i.word = false) {n : Nat}
    (hn : n < mmaRows i.word * mmaCols i.word) :
    let row := fun k => mmaRowVal d cd tile i.word (i.uops.getD 0 0) (i.uops.getD 1 0) (n / mmaCols i.word) k
    let col := fun k => mmaColVal d cd tile i.word (i.uops.getD 0 0) (i.uops.getD 1 0) (n % mmaCols i.word) k
    let old := priorAcc (tileOf d cd tile) (mmaAcc i.word) n
    let sum := ((List.range (mmaK i.word)).map fun k => (row k).1 * (col k).1).sum +
      if mmaAccum i.word then old.v.toInt else 0
    (mmaAcc i.word * 4096 + n, (⟨BitVec.ofInt 32 (max (-(2 ^ 31)) (min (2 ^ 31 - 1) sum)),
      (List.range (mmaK i.word)).any (fun k => (row k).2 || (col k).2) || (mmaAccum i.word && old.p)⟩ : Elem)) ∈
      (mmaEngine d cd tile i).acc := by
  simp only [mmaEngine, hs, Bool.false_eq_true, if_false, List.map_map, upto, listGet_eq_getD, mmaSum_eq, sat32_fst,
    Nat.zero_add]
  exact List.mem_map.2 ⟨n, List.mem_range.2 hn, rfl⟩

end Sys2Proof.Machine
end

section
/-! SUPPORT. Start of the heads of the units' queues (05 R172, R173; 06 R201; 07 R231; 08 R248). -/

namespace Sys2Proof.Machine

open Parts

theorem addCtr_frame (d : Dev) (off n : Nat) : addCtr d off n = { d with rg := (addCtr d off n).rg } := rfl

/-- Nothing differs but tiles and registers. -/
def TilesAndRegs (d e : Dev) : Prop := ∃ tiles rg, e = { d with tiles := tiles, rg := rg }

theorem TilesAndRegs.eq {d e : Dev} (h : TilesAndRegs d e) : e = { d with tiles := e.tiles, rg := e.rg } := by
  obtain ⟨_, _, rfl⟩ := h
  rfl

theorem TilesAndRegs.addCtr {d e : Dev} (h : TilesAndRegs d e) (off n : Nat) : TilesAndRegs d (addCtr e off n) := by
  obtain ⟨_, _, rfl⟩ := h
  exact ⟨_, _, addCtr_frame _ off n⟩

theorem setTile_tilesAndRegs (d : Dev) (c t : Nat) (x : Tile) : TilesAndRegs d (setTile d c t x) := ⟨_, _, rfl⟩

theorem tileOf_addCtr (d : Dev) (off n c t : Nat) : tileOf (addCtr d off n) c t = tileOf d c t := rfl

/-- An instruction of the engine as it runs: with its results and the A-cycles lost flagged. -/
def engineRun (d : Dev) (cd tile stall : Nat) (i : UnitInstr) : UnitInstr :=
  { i with
    writes := i.writes % 2 ^ 12
    res := { engineRes d cd tile i with
      flags := (engineRes d cd tile i).flags + 4 * b2n ((engineCycles i).2 + stall != 0) } }

/-- A tile of which an instruction of the engine has started. -/
def engineStarted (d : Dev) (cd tile stall : Nat) (i : UnitInstr) (q : List UnitInstr) : Tile :=
  let x := tileOf d cd tile
  { x with
    mx := ⟨q, x.mx.run ++ [engineRun d cd tile stall i], i.ord⟩
    al := { x.al with run := x.al.run ++ segmentPart d cd tile i } }

section Start
variable {s : State} {cd tile : Nat} {i : UnitInstr} {q : List UnitInstr}

theorem completes_mxStart_sync (stall : Nat) (hq : (tileOf s.dev cd tile).mx.queue = i :: q) (hi : isSync i.word = true) :
    Completes (.mxStart cd tile stall []) s (setTile s.dev cd tile { tileOf s.dev cd tile with
      mx := ⟨q, (tileOf s.dev cd tile).mx.run, i.ord⟩ }) := by
  change execMxStart cd tile stall [] s = _
  simp only [execMxStart, act, hq, hi, if_true, List.tail_cons]

theorem completes_mxStart (stall : Nat) (hq : (tileOf s.dev cd tile).mx.queue = i :: q) (hi : isSync i.word = false)
    (hd : depsMet (tileOf s.dev cd tile) i = true ∨ chains (tileOf s.dev cd tile) i = true)
    (ha : alignerFree (tileOf s.dev cd tile) i = true) (he : engineFree (tileOf s.dev cd tile) = true) :
    Completes (.mxStart cd tile stall []) s
      (addCtr (addCtr (setTile s.dev cd tile (engineStarted s.dev cd tile stall i q)) (mxOff cd tile 2) (engineCycles i).1)
        (mxOff cd tile 4) ((engineCycles i).2 + stall)) := by
  have hgo : (depsMet (tileOf s.dev cd tile) i || chains (tileOf s.dev cd tile) i) = true := by simpa using hd
  change execMxStart cd tile stall [] s = _
  simp only [execMxStart, act, hq, hi, hgo, ha, he, Bool.and_self, Bool.not_true, Bool.false_eq_true, if_false, startHead,
    setUnit, unitOf, List.tail_cons]
  rfl

theorem completes_alStart (hq : (tileOf s.dev cd tile).al.queue = i :: q) (hd : depsMet (tileOf s.dev cd tile) i = true)
    (hm : ∀ j ∈ (tileOf s.dev cd tile).mx.queue, handsSegments j = true → i.ord ≤ j.ord)
    (hr : ∀ j ∈ (tileOf s.dev cd tile).al.run, wOp j.word ≠ 0x39) :
    Completes (.alStart cd tile []) s (setTile s.dev cd tile { tileOf s.dev cd tile with
      al := ⟨q, (tileOf s.dev cd tile).al.run ++ [{ i with res := alignerRes (tileOf s.dev cd tile) i }], i.ord⟩ }) := by
  have hm' : (tileOf s.dev cd tile).mx.queue.all (fun j => !(handsSegments j && decide (j.ord < i.ord))) = true := by
    rw [List.all_eq_true]
    intro j hj
    cases hh : handsSegments j with
    | false => rfl
    | true =>
      simp only [Bool.true_and, Bool.not_eq_true', decide_eq_false_iff_not, Nat.not_lt]
      exact hm j hj hh
  have hr' : (tileOf s.dev cd tile).al.run.all (fun j => wOp j.word != 0x39) = true := by simpa using hr
  change execAlStart cd tile [] s = _
  simp only [execAlStart, act, hq, hd, hm', hr', Bool.and_self, if_true, startHead, setUnit, unitOf, List.tail_cons]
  rfl

theorem completes_slicerStart (hq : (tileOf s.dev cd tile).sp.queue = i :: q) (hd : depsMet (tileOf s.dev cd tile) i = true) :
    Completes (.slicerStart cd tile []) s (setTile s.dev cd tile { tileOf s.dev cd tile with
      sp := ⟨q, (tileOf s.dev cd tile).sp.run ++ [{ i with res := splitRes s.dev cd tile i }], i.ord⟩ }) := by
  change execSlicerStart cd tile [] s = _
  simp only [execSlicerStart, act, hq, hd, Bool.not_true, Bool.false_eq_true, if_false, startHead, setUnit, unitOf,
    List.tail_cons]
  rfl

/-- The A-cycles that a vector instruction takes. -/
def vxCycles (d : Dev) (cd tile stall : Nat) (i : UnitInstr) : Nat :=
  if stHas (vxRes d cd tile i).status stAbsent then 1
  else ceilDiv (vxN i.word) (vxRate i.word) + if vxOp i.word = 8 then stall else 0

theorem completes_vxStart (stall : Nat) (hq : (tileOf s.dev cd tile).vx.queue = i :: q)
    (hd : depsMet (tileOf s.dev cd tile) i = true) :
    Completes (.vxStart cd tile stall []) s (addCtr (setTile s.dev cd tile { tileOf s.dev cd tile with
      vx := ⟨q, (tileOf s.dev cd tile).vx.run ++ [{ i with res := vxRes s.dev cd tile i }], i.ord⟩ })
        (regOff cd 0x0C tile 2) (vxCycles s.dev cd tile stall i)) := by
  change execVxStart cd tile stall [] s = _
  simp only [execVxStart, act, hq, hd, Bool.not_true, Bool.false_eq_true, if_false, startHead, setUnit, unitOf,
    List.tail_cons]
  rfl

end Start

end Sys2Proof.Machine
end

section
/-! SUPPORT. Completion of running instructions (05 R175 to R181; 06 R208 to R210; 07 R220; 08 R261). -/

namespace Sys2Proof.Machine

open Parts

/-- The results of a running instruction written, once it has left its unit. -/
def resultsWritten (d : Dev) (cd tile : Nat) (u : UnitSel) (ord : Nat) (r : UnitRes) : Dev :=
  writeRes (setTile d cd tile (dropRunning (tileOf d cd tile) u ord)) cd tile ord r

section Complete
variable {s : State} {cd tile ord : Nat} {i : UnitInstr}

theorem completes_mxComplete (hr : runningAt (tileOf s.dev cd tile) .mx ord = some i) (ht : inTurn (tileOf s.dev cd tile) i = true) :
    let e := resultsWritten s.dev cd tile .mx ord i.res
    Completes (.mxComplete cd tile ord) s (raiseRes (setFlagMask
      (if i.res.count = 0 then e else addCtr e (regOff cd 0xB tile 2) i.res.count) (regOff cd 8 tile 1) i.res.flags) cd tile 2 i i.res) := by
  change execMxComplete cd tile ord s = _
  simp only [execMxComplete, act, hr, ht, Bool.not_true, Bool.false_eq_true, if_false, resultsWritten, mxOff]

theorem completes_alComplete (hr : runningAt (tileOf s.dev cd tile) .al ord = some i)
    (hm : runningAt (tileOf s.dev cd tile) .mx ord = none) :
    Completes (.alComplete cd tile ord) s (raiseRes (setFlagMask (setFlagMask (resultsWritten s.dev cd tile .al ord i.res)
      (regOff cd 9 tile 1) i.res.alFlags) (regOff cd 0xB tile 1) i.res.flags) cd tile
      (if wOp i.word = 0x39 ∨ wOp i.word = 0x3B then 4 else 3) i i.res) := by
  change execAlComplete cd tile ord s = _
  simp only [execAlComplete, act, hr, hm, resultsWritten]

theorem completes_slicerComplete (hr : runningAt (tileOf s.dev cd tile) .sp ord = some i) :
    Completes (.slicerComplete cd tile ord) s (raiseRes (setFlagMask (resultsWritten s.dev cd tile .sp ord i.res)
      (regOff cd 0xB tile 1) i.res.flags) cd tile 4 i i.res) := by
  change execSlicerComplete cd tile ord s = _
  simp only [execSlicerComplete, act, hr, resultsWritten]

theorem completes_vxComplete (hr : runningAt (tileOf s.dev cd tile) .vx ord = some i) :
    Completes (.vxComplete cd tile ord) s (raiseRes (setFlagMask (resultsWritten s.dev cd tile .vx ord i.res)
      (regOff cd 0xC tile 1) i.res.flags) cd tile 5 i i.res) := by
  change execVxComplete cd tile ord s = _
  simp only [execVxComplete, act, hr, resultsWritten]

end Complete

end Sys2Proof.Machine
end

section
/-! PROOFS. The obligation on starts and completions of the units of a tile. -/

open Sys2Proof Sys2Proof.Machine Sys2Proof.Machine.Parts

/-- Settles O15, unit by unit; the elements of an `mx.mma` are those that the engine computes at its start. -/
theorem unitStartsAndCompletes : Obligations.UnitStartsAndCompletes := by
  unfold Obligations.UnitStartsAndCompletes
  refine ⟨fun s cd tile stall i q => ⟨completes_mxStart_sync stall, ?engine, completes_alStart, completes_slicerStart, ?vector⟩,
    fun s cd tile ord i => ⟨completes_mxComplete, completes_alComplete, completes_slicerComplete, completes_vxComplete⟩⟩
  case engine =>
    intro hq hi hd ha he
    refine ⟨_, engineRun s.dev cd tile stall i, completes_mxStart stall hq hi hd ha he,
      (((setTile_tilesAndRegs _ _ _ _).addCtr _ _).addCtr _ _).eq, ?_, rfl, rfl, rfl, ?_⟩
    · rw [tileOf_addCtr, tileOf_addCtr, tileOf_setTile_same]; rfl
    · intro hop hs n hn
      have hres : (engineRun s.dev cd tile stall i).res.acc = (mmaEngine s.dev cd tile i).acc := by
        simp only [engineRun, engineRes, hop, if_true]
      rw [hres]
      exact mem_mmaEngine_acc s.dev cd tile hs hn
  case vector =>
    intro hq hd
    refine ⟨_, _, completes_vxStart stall hq hd, ((setTile_tilesAndRegs _ _ _ _).addCtr _ _).eq, ?_, rfl⟩
    rw [tileOf_addCtr, tileOf_setTile_same]

end

section
/-! SUPPORT. What only counts, flags or traces: registers and trace records (03 R92, R93; 20 R605). -/

namespace Sys2Proof.Machine

open Parts

/-- Nothing differs but values of registers and trace records. -/
def Records (d e : Dev) : Prop := ∃ val tr, e = { d with rg := { d.rg with val := val }, tr := tr }

theorem Records.refl (d : Dev) : Records d d := ⟨_, _, rfl⟩

theorem Records.trans {d e f : Dev} (h : Records d e) (h' : Records e f) : Records d f := by
  obtain ⟨_, _, rfl⟩ := h
  obtain ⟨_, _, rfl⟩ := h'
  exact ⟨_, _, rfl⟩

/-- Flags and traces leave alone the gongs, storage, the queues, the drovers and the tiles. -/
theorem Records.fields {d e : Dev} (h : Records d e) :
    e.gg = d.gg ∧ e.mem = d.mem ∧ e.qs = d.qs ∧ e.drv = d.drv ∧ e.tiles = d.tiles := by
  obtain ⟨_, _, rfl⟩ := h
  exact ⟨rfl, rfl, rfl, rfl, rfl⟩

theorem setReg_records (d : Dev) (off : Nat) (v : Word32) : Records d (setReg d off v) := ⟨_, _, rfl⟩

theorem trace_records (d : Dev) (die unit inst ev : Nat) (part cls : Option Nat) (w2 w3 : Nat) :
    Records d (trace d die unit inst ev part cls w2 w3) := trace_frame d die unit inst ev part cls w2 w3

theorem setFlag_records (d : Dev) (off b : Nat) : Records d (setFlag d off b) :=
  ((setReg_records d _ _).trans (setReg_records _ _ _)).trans (trace_records _ _ _ _ _ _ _ _ _)

theorem flagIf_records (c : Bool) (d : Dev) (off b : Nat) : Records d (flagIf c d off b) := by
  cases c
  · exact .refl d
  · exact setFlag_records d off b

theorem addCtr_records (d : Dev) (off n : Nat) : Records d (addCtr d off n) :=
  (setReg_records d off _).trans (setReg_records _ (off + 4) _)

theorem addCtr_mem (d : Dev) (off n : Nat) : (addCtr d off n).mem = d.mem := (addCtr_records d off n).fields.2.1

theorem addCtr_tiles (d : Dev) (off n : Nat) : (addCtr d off n).tiles = d.tiles := (addCtr_records d off n).fields.2.2.2.2

end Sys2Proof.Machine
end

section
/-! SUPPORT. A gong update at its unit (09 R287, R288, R296): the gong that it reaches, and what releases and chimes leave as it
was. -/

namespace Sys2Proof.Machine

open Parts

/-- The gongs and the updates under way are the same. -/
def SameGongs (d e : Dev) : Prop := e.gg.val = d.gg.val ∧ e.gg.upd = d.gg.upd

theorem SameGongs.refl (d : Dev) : SameGongs d d := ⟨rfl, rfl⟩

theorem SameGongs.trans {d e f : Dev} (h : SameGongs d e) (h' : SameGongs e f) : SameGongs d f :=
  ⟨h'.1.trans h.1, h'.2.trans h.2⟩

theorem SameGongs.foldl {α : Type} {f : Dev → α → Dev} (h : ∀ d x, SameGongs d (f d x)) (l : List α) (d : Dev) :
    SameGongs d (l.foldl f d) := by
  induction l generalizing d with
  | nil => exact .refl d
  | cons x l ih => exact (h d x).trans (ih _)

theorem SameGongs.gongOf {d e : Dev} (h : SameGongs d e) (g : Nat) : gongOf e g = gongOf d g := by
  rw [Machine.gongOf, h.1]; rfl

theorem Records.sameGongs {d e : Dev} (h : Records d e) : SameGongs d e := by
  obtain ⟨hgg, -⟩ := h.fields
  exact ⟨congrArg Gongs.val hgg, congrArg Gongs.upd hgg⟩

theorem setPathState_sameGongs (d : Dev) (c t slot lane : Nat) (f : Path → Path) :
    SameGongs d (setPathState d c t slot lane f) := by
  unfold setPathState
  dsimp only
  split
  · exact .refl d
  · split <;> exact ⟨rfl, rfl⟩

theorem releaseWait_sameGongs (d : Dev) (w : Waiter) : SameGongs d (releaseWait d w) := by
  have h : SameGongs d (dropWait d w) := ⟨rfl, rfl⟩
  unfold releaseWait
  dsimp only
  split
  · exact h.trans ⟨rfl, rfl⟩
  · exact h.trans (setPathState_sameGongs _ _ _ _ _ _)
  · exact h

theorem arriveWait_sameGongs (d : Dev) (w : Waiter) : SameGongs d (arriveWait d w) := by
  unfold arriveWait
  split
  · exact releaseWait_sameGongs d w
  · exact ⟨rfl, rfl⟩

theorem retryWaits_sameGongs (d : Dev) : SameGongs d (retryWaits d) := .foldl arriveWait_sameGongs _ d

theorem countPace_sameGongs (d : Dev) (w : Waiter) : SameGongs d (countPace d w) := by
  unfold countPace
  split
  · exact (addCtr_records d _ _).sameGongs
  · exact .refl d

theorem raiseChime_sameGongs (d : Dev) (e : Nat) : SameGongs d (raiseChime d e) := by
  have h := ((setFlag_records d (chmOff e + 4) 0).trans (trace_records _ 4 0x0F (e / 64) 7 none none e 0)).sameGongs
  have hm : ∀ d, SameGongs d (chimeMessage d e) := fun d => by
    unfold chimeMessage
    dsimp only
    split <;> exact ⟨rfl, rfl⟩
  unfold raiseChime
  dsimp only
  split
  · exact h.trans (hm _)
  · exact h

theorem armedChime_sameGongs (d : Dev) (e : Nat) (u : Option GongUpd) : SameGongs d (armedChime d e u) := by
  cases u with
  | none => exact raiseChime_sameGongs d e
  | some u => exact ⟨rfl, rfl⟩

theorem settleChimes_sameGongs (d : Dev) : SameGongs d (settleChimes d) := by
  have hf : ∀ (d : Dev) (e : Nat × GongUpd), SameGongs d (raiseChime d e.1) := fun d e => raiseChime_sameGongs d e.1
  have h := SameGongs.foldl hf (d.gg.chimeHeld.filter fun e => updReadyAt d e.2 3)
    { d with gg := { d.gg with chimeHeld := d.gg.chimeHeld.filter fun e => !updReadyAt d e.2 3 } }
  exact ⟨h.1, h.2⟩

/-- A gong once its armed slot has been compared with its value: a slot whose threshold holds has fired. -/
def firedGong (x : Gong) : Gong := { x with arm := x.arm.filter fun z => decide (x.value.toNat < z.1.toNat) }

/-- A slot whose threshold the value has reached is emptied. -/
theorem firedGong_reached {x : Gong} {t : Word64} {e : Nat} (ha : x.arm = some (t, e)) (ht : t ≤ x.value) :
    firedGong x = { x with arm := none } := by
  have hle : ¬ x.value.toNat < t.toNat := Nat.not_lt.2 (BitVec.le_def.1 ht)
  simp [firedGong, ha, Option.filter, hle]

/-- A slot whose threshold the value has not reached stays as it is. -/
theorem firedGong_waiting {x : Gong} (h : ∀ t e, x.arm = some (t, e) → ¬ t ≤ x.value) : firedGong x = x := by
  obtain ⟨v, a⟩ := x
  cases a with
  | none => rfl
  | some z =>
    have hlt : v.toNat < z.1.toNat := Nat.lt_of_not_le fun hle => h z.1 z.2 rfl (BitVec.le_def.2 hle)
    simp [firedGong, Option.filter, hlt]

/-- Evaluating a gong empties its armed slot where the threshold holds, and changes no other gong and no update. -/
theorem evalGong_gongs (d : Dev) (g : Nat) (peer : Bool) (u : Option GongUpd) :
    (evalGong d g peer u).gg.upd = d.gg.upd ∧
      ∀ k, gongOf (evalGong d g peer u) k = if k = g then firedGong (gongOf d g) else gongOf d k := by
  have hrel : ∀ d w, SameGongs d (releaseWait (if peer then countPace d w else d) w) := fun d w => by
    cases peer
    · exact releaseWait_sameGongs d w
    · exact (countPace_sameGongs d w).trans (releaseWait_sameGongs _ w)
  have hs := (SameGongs.foldl hrel (d.gg.wait.filter fun w => w.gong == g && w.entry != .none && waitDone d w) d).trans
    (retryWaits_sameGongs _)
  unfold evalGong
  dsimp only
  generalize retryWaits _ = e at hs ⊢
  have keep : firedGong (gongOf d g) = gongOf d g →
      ∀ k, gongOf e k = if k = g then firedGong (gongOf d g) else gongOf d k := fun h k => by
    rw [hs.gongOf, h]
    split
    · next hk => rw [hk]
    · rfl
  split
  · next t c harm =>
    split
    · next ht =>
      have hc := armedChime_sameGongs (setGong e g { gongOf d g with arm := none }) c u
      exact ⟨hc.2.trans hs.2, fun k => by rw [hc.gongOf, gongOf_setGong, hs.gongOf, firedGong_reached harm ht]⟩
    · next ht => exact ⟨hs.2, keep (firedGong_waiting fun t' c' h => by cases harm.symm.trans h; exact ht)⟩
  · next harm => exact ⟨hs.2, keep (firedGong_waiting fun t c h => by cases harm.symm.trans h)⟩

/-- An update at the gong unit gives its gong what R287 states and then evaluates it; it changes no other gong and sends none. -/
theorem performUpdate_gongs (d : Dev) (g : Nat) (fn : GongFn) (v : Word64) (peer : Bool) (u : Option GongUpd) :
    (performUpdate d g fn v peer u).gg.upd = d.gg.upd ∧
      ∀ k, gongOf (performUpdate d g fn v peer u) k =
        if k = g then firedGong (gongAfter (gongOf d g) fn v) else gongOf d k := by
  have main : ∀ e, SameGongs (setGong d g (gongAfter (gongOf d g) fn v)) e → (evalGong e g peer u).gg.upd = d.gg.upd ∧
      ∀ k, gongOf (evalGong e g peer u) k = if k = g then firedGong (gongAfter (gongOf d g) fn v) else gongOf d k := by
    intro e he
    obtain ⟨hu, hg⟩ := evalGong_gongs e g peer u
    refine ⟨hu.trans he.2, fun k => ?_⟩
    rw [hg, he.gongOf, he.gongOf, gongOf_setGong, gongOf_setGong, if_pos rfl]
    split <;> rfl
  unfold performUpdate
  cases fn with
  | add | set | max => exact main _ (trace_records _ _ _ _ _ _ _ _ _).sameGongs
  | arm | disarm => exact main _ (.refl _)

/-- The package without the update that stands at a place among those under way. -/
def updateTaken (d : Dev) (i : Nat) : Dev := { d with gg := { d.gg with upd := d.gg.upd.eraseIdx i } }

/-- The package once the gong unit has performed the update that stands at a place among those under way. -/
def updatePerformed (d : Dev) (i : Nat) (u : GongUpd) : Dev :=
  settleChimes (performUpdate (updateTaken d i) u.gong u.fn u.operand (u.who == .peer) (some u))

theorem completes_gongUpdatePerformed {s : State} {i : Nat} {u : GongUpd} (hu : s.dev.gg.upd[i]? = some u)
    (hr : updReady s.dev u = true) (hd : whoDead s.dev u.who (gongCd u.gong) = false) :
    Completes (.gongUpdatePerformed i) s (updatePerformed s.dev i u) := by
  change execGongUpdatePerformed i s = _
  simp only [execGongUpdatePerformed, act, hu, hr, hd, Bool.not_true, Bool.false_eq_true, if_false, updatePerformed, updateTaken]

theorem updatePerformed_gongs (d : Dev) (i : Nat) (u : GongUpd) :
    (updatePerformed d i u).gg.upd = d.gg.upd.eraseIdx i ∧
      ∀ k, gongOf (updatePerformed d i u) k =
        if k = u.gong then firedGong (gongAfter (gongOf d u.gong) u.fn u.operand) else gongOf d k := by
  obtain ⟨hupd, hgong⟩ := performUpdate_gongs (updateTaken d i) u.gong u.fn u.operand (u.who == .peer) (some u)
  have hc := settleChimes_sameGongs (performUpdate (updateTaken d i) u.gong u.fn u.operand (u.who == .peer) (some u))
  exact ⟨hc.2.trans hupd, fun k => (hc.gongOf k).trans (hgong k)⟩

/-- The value and the slot of a gong that has been evaluated. -/
theorem firedGong_parts {x : Gong} {v : Word64} {a : Option (Word64 × Nat)} (hv : x.value = v) (ha : x.arm = a) :
    (firedGong x).value = v ∧ (firedGong x).arm = a.filter fun z => decide (v.toNat < z.1.toNat) := by
  subst hv ha
  exact ⟨rfl, rfl⟩

/-- The unsigned maximum of two words. -/
theorem ofNat_max_toNat (x v : Word64) : BitVec.ofNat 64 (max x.toNat v.toNat) = if x ≤ v then v else x := by
  split
  · next h => rw [Nat.max_eq_right (BitVec.le_def.1 h), BitVec.ofNat_toNat, BitVec.setWidth_eq]
  · next h => rw [Nat.max_eq_left (Nat.le_of_not_le fun h' => h (BitVec.le_def.2 h')), BitVec.ofNat_toNat, BitVec.setWidth_eq]

theorem waitHolds_iff (v : Word64) (w : Waiter) :
    waitHolds v w = true ↔ if w.eq then v = w.operand else w.operand.toNat ≤ v.toNat := by
  unfold waitHolds
  cases w.eq
  · simp [BitVec.le_def]
  · simp

end Sys2Proof.Machine
end

section
/-! PROOFS. The obligation on what updates do to gongs. -/

open Sys2Proof Sys2Proof.Machine Sys2Proof.Machine.Parts

/-- Settles O17, function by function: the unit stores what R287 gives, and evaluation then empties a slot whose threshold holds;
releases, retries and chimes change no gong. -/
theorem gongFunctions : Obligations.GongFunctions := by
  unfold Obligations.GongFunctions
  refine ⟨?_, waitHolds_iff⟩
  intro s i u x hu hr hd
  obtain ⟨hupd, hgong⟩ := updatePerformed_gongs s.dev i u
  refine ⟨_, completes_gongUpdatePerformed hu hr hd, hupd, fun g hg => by rw [hgong, if_neg hg], ?_⟩
  rw [hgong, if_pos rfl]
  apply firedGong_parts
  · cases u.fn with
    | add => exact BitVec.add_def x.value u.operand
    | max => exact (ofNat_max_toNat x.value u.operand).symm
    | set | arm | disarm => rfl
  · cases u.fn <;> rfl

end

section
/-! SUPPORT. Bytes of lines (00 R11; 10 R311): the bytes that a line is put together from, and those of a masked merge. -/

namespace Sys2Proof.Machine

theorem testBit_leNat (bs : List Byte) (n : Nat) : (leNat bs).testBit n = (bs.getD (n / 8) 0).getLsbD (n % 8) := by
  induction bs generalizing n with
  | nil => simp [leNat]
  | cons b bs ih =>
    have hb : b.toNat < 2 ^ 8 := b.isLt
    rw [leNat, Nat.add_comm, show (256 : Nat) = 2 ^ 8 from rfl, Nat.testBit_two_pow_mul_add _ hb]
    split
    · next h => rw [Nat.div_eq_of_lt h, Nat.mod_eq_of_lt h]; rfl
    · next h =>
      rw [ih, show n / 8 = (n - 8) / 8 + 1 by omega, show n % 8 = (n - 8) % 8 by omega, List.getD_cons_succ]

/-- A bit of a byte of a line. -/
theorem getLsbD_lineByte (x : Line) (i : Nat) {j : Nat} (hj : j < 8) : (lineByte x i).getLsbD j = x.getLsbD (8 * i + j) := by
  rw [lineByte, BitVec.getLsbD_ofNat, Nat.testBit_shiftRight]
  simp [hj, BitVec.getLsbD]

/-- A byte of a line put together from bytes. -/
theorem lineByte_ofBytes (bs : List Byte) {i : Nat} (hi : i < 64) :
    lineByte (BitVec.ofNat 512 (leNat bs)) i = bs.getD i 0 := by
  refine BitVec.eq_of_getLsbD_eq fun j hj => ?_
  rw [getLsbD_lineByte _ _ hj, BitVec.getLsbD_ofNat, testBit_leNat, show (8 * i + j) / 8 = i by omega,
    show (8 * i + j) % 8 = j by omega]
  simp [show 8 * i + j < 512 by omega]

/-- A byte of a line put together from a function of the place. -/
theorem lineByte_upto (f : Nat → Byte) {i : Nat} (hi : i < 64) :
    lineByte (BitVec.ofNat 512 (leNat ((upto 64).map f))) i = f i := by
  rw [lineByte_ofBytes _ hi]
  simp [upto, hi]

/-- A masked merge of two lines takes the bytes of the mask from the new one. -/
theorem lineByte_mergeMask (old new : Line) (m : BitVec 64) {i : Nat} (hi : i < 64) :
    lineByte (mergeMask old new (bitMask m)) i = if bit m i then lineByte new i else lineByte old i := by
  refine BitVec.eq_of_getLsbD_eq fun j hj => ?_
  have hm : (bitMask m).getLsbD (8 * i + j) = bit m i := by
    rw [← getLsbD_lineByte _ _ hj, bitMask, lineByte_upto _ hi]
    cases bit m i with
    | false => exact BitVec.getLsbD_zero
    | true =>
      change (BitVec.allOnes 8).getLsbD j = true
      rw [BitVec.getLsbD_allOnes, decide_eq_true hj]
  have hlt : 8 * i + j < 512 := by omega
  rw [getLsbD_lineByte _ _ hj, mergeMask, BitVec.getLsbD_or, BitVec.getLsbD_and, BitVec.getLsbD_and, BitVec.getLsbD_not, hm]
  cases bit m i <;> simp [hlt, getLsbD_lineByte _ _ hj]

end Sys2Proof.Machine
end

section
/-! SUPPORT. Bytes at their point of performance (10 R311, R314, R318; 11 R345): what fills and masked writes leave as it was. -/

namespace Sys2Proof.Machine

open Parts

theorem lineByte_rawLine (d : Dev) (a : Nat) : lineByte (rawLine d (a / 64)) (a % 64) = rawByte d a := by
  rw [rawLine, lineByte_upto _ (Nat.mod_lt a (by decide)), Nat.div_add_mod']

/-- A byte depends on storage and on the lines held at their homes alone. -/
theorem byteAt_of_stored {d e : Dev} (hb : e.mem.bytes = d.mem.bytes) (hl : e.mem.lines = d.mem.lines) (a : Nat) :
    byteAt e a = byteAt d a := by
  rw [byteAt, wellLine, rawByte, hb, hl]
  rfl

theorem byteAt_of_mem {d e : Dev} (h : e.mem = d.mem) (a : Nat) : byteAt e a = byteAt d a :=
  byteAt_of_stored (congrArg Mem.bytes h) (congrArg Mem.lines h) a

/-- The bytes of a line are what each byte reads as. -/
theorem lineByte_lineAt (d : Dev) (a : Nat) : lineByte (lineAt d (a / 64)).1 (a % 64) = byteAt d a := by
  simp only [lineAt, byteAt]
  split
  · rfl
  · exact lineByte_rawLine d a

/-- A byte of a line put at its home. -/
theorem byteAt_setWellLine (d : Dev) (ln : Nat) {w : WellLine} (hw : w.valid = true) (a : Nat) :
    byteAt (setWellLine d ln w) a = if a / 64 = ln then lineByte w.data (a % 64) else byteAt d a := by
  simp only [byteAt, wellLine_setWellLine]
  split
  · rfl
  · rfl

/-- A byte of storage counts where its home does not hold its line. -/
theorem byteAt_setRaw (d : Dev) (ln : Nat) (data : Line) (mask : BitVec 64) (a : Nat) :
    byteAt (setRaw d ln data mask) a =
      if (wellLine d (a / 64)).valid = false ∧ a / 64 = ln ∧ bit mask (a % 64) = true then lineByte data (a % 64)
      else byteAt d a := by
  have hraw : rawByte (setRaw d ln data mask) a =
      if a / 64 = ln ∧ bit mask (a % 64) = true then lineByte data (a % 64) else rawByte d a := get_putBytes _ _ _ _ _
  have hwell : wellLine (setRaw d ln data mask) (a / 64) = wellLine d (a / 64) := rfl
  simp only [byteAt, hwell, hraw]
  cases (wellLine d (a / 64)).valid
  · simp
  · simp

/-- What is put at its home as storage has it changes no byte. -/
theorem byteAt_keepLine (d : Dev) (c l ln : Nat) (hv : (wellLine d ln).valid = false) (a : Nat) :
    byteAt (keepLine d c l ln) a = byteAt d a := by
  unfold keepLine
  split
  · rfl
  · rw [byteAt_setWellLine _ _ rfl]
    split
    · next h =>
      subst h
      simp [lineByte_rawLine, byteAt, hv]
    · rfl

/-- The fill of a line at its home changes no byte. -/
theorem byteAt_homeFill (d : Dev) (ln a : Nat) : byteAt (homeFill d ln) a = byteAt d a := by
  unfold homeFill
  split
  · rfl
  · next c l _ =>
    split
    · exact byteAt_of_mem (addCtr_mem d _ 1) a
    · next hv =>
      split
      · rfl
      · have hm := (addCtr_mem (addCtr d (cntOff c 2) 1) (cntOff c 4) 1).trans (addCtr_mem d (cntOff c 2) 1)
        rw [byteAt_keepLine, byteAt_of_mem hm]
        rw [wellLine, hm]
        exact Bool.eq_false_iff.2 hv

/-- Reads of lines that find no error change no byte. -/
theorem byteAt_readLines (d : Dev) (lines : List Nat) (a : Nat) : byteAt (readLines d [] lines) a = byteAt d a := by
  change byteAt (fillLines d lines) a = byteAt d a
  induction lines generalizing d with
  | nil => rfl
  | cons ln lines ih => exact (ih _).trans (byteAt_homeFill d ln a)

/-- Is a byte one that a masked write of a line covers? -/
def Covers (ln : Nat) (mask : BitVec 64) (a : Nat) : Prop := a / 64 = ln ∧ bit mask (a % 64) = true

/-- A sector stored whole has the bytes of the line as storage. -/
theorem byteAt_sectorWrite (d : Dev) (c ln : Nat) (x : Line) (p : Bool) (a : Nat) :
    byteAt (sectorWrite d c ln x p) a = byteAt (setRaw d ln x fullMask) a := by
  refine byteAt_of_stored (by simp [sectorWrite]) ?_ a
  simp only [sectorWrite, setFt_fields, addCtr_mem]
  rfl

/-- What a line held is noted apart from storage. -/
theorem byteAt_notePast (d : Dev) (ln a : Nat) : byteAt (notePast d ln) a = byteAt d a := by
  unfold notePast
  split <;> rfl

/-- A masked write at its line's point of performance changes no byte that it does not cover. -/
theorem byteAt_putLine (d : Dev) (ln : Nat) (data : Line) (mask : BitVec 64) (p : Bool) {a : Nat} (h : ¬ Covers ln mask a) :
    byteAt (putLine d ln data mask p) a = byteAt d a := by
  have hnote := byteAt_notePast d ln a
  have hfar : byteAt (breakResv (notePast d ln) ln) a = byteAt d a := hnote
  have hmerge : ∀ e : Dev, a / 64 = ln → lineByte (mergeMask (lineAt e ln).1 data (bitMask mask)) (a % 64) = byteAt e a := by
    rintro e rfl
    have hb : bit mask (a % 64) = false := Bool.eq_false_iff.2 fun hb => h ⟨rfl, hb⟩
    rw [lineByte_mergeMask _ _ _ (Nat.mod_lt a (by decide)), hb, ← lineByte_lineAt]
    rfl
  unfold putLine
  split
  · rfl
  · dsimp only
    split
    · rw [← hfar]
      split
      · rw [byteAt_setWellLine _ _ (by assumption)]
        split
        · next ha => exact hmerge _ ha
        · rfl
      · rw [byteAt_sectorWrite, byteAt_setRaw]
        split
        · next ha => exact hmerge _ ha.2.1
        · rfl
    · exact (byteAt_of_stored (setRawPoison_bytes _ _ _) rfl a).trans
        (((byteAt_setRaw _ _ _ _ _).trans (if_neg fun hc => h hc.2)).trans hnote)

theorem byteAt_writeLines {ws : List LineWrite} {a : Nat} (h : ∀ w ∈ ws, ¬ Covers w.line w.mask a) (d : Dev) :
    byteAt (writeLines d ws) a = byteAt d a := by
  induction ws generalizing d with
  | nil => rfl
  | cons w ws ih =>
    exact (ih (fun v hv => h v (List.mem_cons_of_mem _ hv)) _).trans
      ((byteAt_putLine _ _ _ _ _ (h w List.mem_cons_self)).trans (byteAt_homeFill d w.line a))

end Sys2Proof.Machine
end

section
/-! SUPPORT. The line writes of a local move (09 R275): they cover the destinations of its pieces and no other byte. -/

namespace Sys2Proof.Machine

open Parts

/-- The mask of some bytes at their place in a line covers those bytes at most. -/
theorem covers_placed {pa n a : Nat} (h : Covers (pa / 64) (BitVec.ofNat 64 ((2 ^ n - 1) <<< (pa % 64))) a) :
    pa ≤ a ∧ a < pa + n := by
  obtain ⟨hline, hbit⟩ := h
  rw [bit_eq_getLsbD, BitVec.getLsbD_ofNat, Nat.testBit_shiftLeft, Nat.testBit_two_pow_sub_one] at hbit
  simp only [Bool.and_eq_true, decide_eq_true_eq] at hbit
  omega

/-- Bytes added to a list of line writes cover their own places and those covered before. -/
theorem covers_addWrite {pa : Nat} {bs : List Byte} {p : Bool} {ws : List LineWrite} {w : LineWrite} {a : Nat}
    (hw : w ∈ addWrite pa bs p ws) (hc : Covers w.line w.mask a) :
    (pa ≤ a ∧ a < pa + bs.length) ∨ ∃ v ∈ ws, Covers v.line v.mask a := by
  induction ws with
  | nil =>
    obtain rfl := List.mem_singleton.1 hw
    exact .inl (covers_placed hc)
  | cons v ws ih =>
    rw [addWrite] at hw
    split at hw
    · next hline =>
      rcases List.mem_cons.1 hw with rfl | hw
      · obtain ⟨ha, hbit⟩ := hc
        rw [bit_or, Bool.or_eq_true] at hbit
        exact hbit.symm.imp (fun h => covers_placed ⟨ha.trans hline, h⟩) fun h => ⟨v, List.mem_cons_self, ha, h⟩
      · exact .inr ⟨w, List.mem_cons_of_mem _ hw, hc⟩
    · rcases List.mem_cons.1 hw with rfl | hw
      · exact .inr ⟨w, List.mem_cons_self, hc⟩
      · exact (ih hw).imp_right fun ⟨u, hu, h⟩ => ⟨u, List.mem_cons_of_mem _ hu, h⟩

/-- Runs of bytes added one after the other cover places of a run. -/
theorem covers_addWrites {bs : List (Nat × List Byte × Bool)} {ws : List LineWrite} {w : LineWrite} {a : Nat}
    (hw : w ∈ bs.foldl (fun ws b => addWrite b.1 b.2.1 b.2.2 ws) ws) (hc : Covers w.line w.mask a) :
    (∃ b ∈ bs, b.1 ≤ a ∧ a < b.1 + b.2.1.length) ∨ ∃ v ∈ ws, Covers v.line v.mask a := by
  induction bs generalizing ws with
  | nil => exact .inr ⟨w, hw, hc⟩
  | cons b bs ih =>
    rcases ih hw with ⟨c, hcm, h⟩ | ⟨v, hv, h⟩
    · exact .inl ⟨c, List.mem_cons_of_mem _ hcm, h⟩
    · exact (covers_addWrite hv h).imp_left fun h => ⟨b, List.mem_cons_self, h⟩

theorem length_pieceBytes (d : Dev) (m : Move) (e : Desc) (p : Piece) : (pieceBytes d m e p).1.length = p.n := by
  unfold pieceBytes
  split <;> simp [seenBytes, fillBytes, upto]

/-- The destinations of the pieces of a local move, each with its bytes and their poison. -/
def pieceRuns (d : Dev) (m : Move) (e : Desc) (ps : List Piece) : List (Nat × List Byte × Bool) :=
  ps.filterMap fun p => p.dst.map fun a => (a, pieceBytes d m e p)

/-- The line writes of a local move whose destinations share no byte. -/
def pieceWrites (d : Dev) (m : Move) (e : Desc) (ps : List Piece) : List LineWrite :=
  (pieceRuns d m e ps).foldl (fun ws b => addWrite b.1 b.2.1 b.2.2 ws) []

theorem sharedWrite_place (draw : Nat) (cands : List (Nat × Byte)) (w : LineWrite) :
    (sharedWrite draw cands w).line = w.line ∧ (sharedWrite draw cands w).mask = w.mask := by
  simp only [sharedWrite, and_self]

/-- Where bytes share a place, only what is written there is chosen anew. -/
theorem copyWrites_place {d : Dev} {m : Move} {e : Desc} {ps : List Piece} {w : LineWrite} (hw : w ∈ copyWrites d m e ps) :
    ∃ v ∈ pieceWrites d m e ps, w.line = v.line ∧ w.mask = v.mask := by
  unfold copyWrites at hw
  dsimp only at hw
  split at hw
  · exact ⟨w, hw, rfl, rfl⟩
  · obtain ⟨v, hv, rfl⟩ := List.mem_map.1 hw
    exact ⟨v, hv, sharedWrite_place _ _ v⟩

/-- A local move writes to destinations of its pieces alone. -/
theorem covers_copyWrites {d : Dev} {m : Move} {e : Desc} {ps : List Piece} {w : LineWrite} {a : Nat}
    (hw : w ∈ copyWrites d m e ps) (hc : Covers w.line w.mask a) :
    ∃ p ∈ ps, ∃ x, p.dst = some x ∧ x ≤ a ∧ a < x + p.n := by
  obtain ⟨v, hv, hline, hmask⟩ := copyWrites_place hw
  rw [hline, hmask] at hc
  rcases covers_addWrites hv hc with ⟨b, hb, h⟩ | ⟨u, hu, -⟩
  · obtain ⟨p, hp, hb⟩ := List.mem_filterMap.1 hb
    obtain ⟨x, hx, rfl⟩ := Option.map_eq_some_iff.1 hb
    rw [length_pieceBytes] at h
    exact ⟨p, hp, x, hx, h⟩
  · cases hu

theorem byteAt_fresh (d : Dev) (n a : Nat) : byteAt { d with fresh := n } a = byteAt d a := rfl

@[simp] theorem updMove_mem (d : Dev) (k : MoveId) (f : Move → Move) : (updMove d k f).mem = d.mem := rfl

/-- A local copy or fill changes no byte outside the destinations of its pieces. -/
theorem byteAt_moveLocal (d : Dev) (k : MoveId) (m : Move) (c : Desc) (ps : List Piece) {a : Nat}
    (h : ∀ p ∈ ps, ∀ x, p.dst = some x → ¬ (x ≤ a ∧ a < x + p.n)) :
    byteAt (moveLocal d k m c ps []) a = byteAt d a := by
  unfold moveLocal
  dsimp only
  rw [byteAt_of_mem (updMove_mem _ _ _), byteAt_writeLines]
  · rw [byteAt_fresh, byteAt_readLines]
  · intro w hw hc
    obtain ⟨p, hp, x, hx, hin⟩ := covers_copyWrites (List.mem_filter.1 hw).1 hc
    exact h p hp x hx hin

end Sys2Proof.Machine
end

section
/-! SUPPORT. Drover moves (09 R267 to R270, R272 to R276, R280, R634): issue, descriptor fetch, start and completion. -/

namespace Sys2Proof.Machine

open Parts

variable {s : State} {i : Issuer → Instr} {fill : Bool}

/-- The two drover instructions, with whether each is a fill. -/
def drvInstrs : List ((Issuer → Instr) × Bool) := [(Instr.drvMove, false), (Instr.drvFill, true)]

theorem exec_drv (hi : (i, fill) ∈ drvInstrs) (s : State) :
    (∀ r, exec (i (.thread r)) s = act s (drvThread fill r)) ∧ ∀ q, exec (i (.stream q)) s = act s (drvStream fill q) := by
  simp only [drvInstrs, List.mem_cons, Prod.mk.injEq, List.not_mem_nil, or_false] at hi
  rcases hi with ⟨rfl, rfl⟩ | ⟨rfl, rfl⟩ <;> exact ⟨fun _ => rfl, fun _ => rfl⟩

theorem selDrv_self (fill : Bool) : selDrv fill (.drv fill) = true := beq_self_eq_true fill

theorem poisonAt_issuedDev (d : Dev) (r : PathRef) (g : Group) (p : Path) (w : Word64) (ln : Nat) :
    poisonAt (issuedDev d r g p w) ln = poisonAt d ln := id rfl

theorem valAt_issuedDev (d : Dev) (r : PathRef) (g : Group) (p : Path) (w : Word64) (pa n : Nat) :
    valAt (issuedDev d r g p w) pa n = valAt d pa n := id rfl

theorem ureg_movedGroup (g : Group) (p : Path) (w : Word64) : ureg (movedGroup g p w) = ureg g := rfl

theorem upoison_movedGroup (g : Group) (p : Path) (w : Word64) : upoison (movedGroup g p w) = upoison g := rfl

section Thread
variable {r : PathRef} {g : Group} {p : Path} {b : Block} {w : Word64} {imms : List Word64}
  (hi : (i, fill) ∈ drvInstrs) (h : Issues s.dev r g p b w (.drv fill) imms) (hc : LeaderGoes w g p)
  (hq : drvQueued (droverOf s.dev (tileDrover r.cd r.tile)) < 16)

/-- The move that a path's instruction gives its tile's drover. -/
def threadMove (d : Dev) (r : PathRef) (b : Block) (w : Word64) (fill : Bool) (addr : Option Nat) (words : List Word64) : Move :=
  newMove fill w addr words b.cls b.queue b.part b.space (some (r.cd, r.tile)) ((tileOf d r.cd r.tile).ord + 1)

include hi h hc hq

/-- A path's move whose descriptor lies in its space. -/
theorem completes_drvThread_general (hb : bit w 47 = false) :
    Completes (i (.thread r)) s (settleSlot (pushMove (issuedDev s.dev r g p w) (tileDrover r.cd r.tile)
      (threadMove s.dev r b w fill (some ((imms.headD 0).toNat % vaMod)) [])) r.cd r.tile r.slot) := by
  refine completes_of_act ((exec_drv hi s).1 r) ?_
  have hq' : ¬ 16 ≤ drvQueued (droverOf (issuedDev s.dev r g p w) (tileDrover r.cd r.tile)) := Nat.not_le.2 hq
  rw [drvThread, issueLeader_issues h (selDrv_self fill) hc]
  simp only [issueCtx, hq', hb, if_false, Bool.false_eq_true]
  rfl

section Local
variable (hb : bit w 47 = true) (hp : upoison g (fld w 46 42) = false)
include hb hp

/-- A path's move whose descriptor stands in its tile's memory. -/
theorem completes_drvThread_local (ha : (ureg g (fld w 46 42)).toNat % 64 = 0) (ht : (ureg g (fld w 46 42)).toNat < tileBytes)
    (hd : poisonAt s.dev (tilePa r.cd r.tile (ureg g (fld w 46 42)).toNat / 64) = false) :
    Completes (i (.thread r)) s (settleSlot (pushMove (issuedDev s.dev r g p w) (tileDrover r.cd r.tile)
      (threadMove s.dev r b w fill none ((List.range 8).map fun j =>
        BitVec.ofNat 64 (valAt s.dev (tilePa r.cd r.tile (ureg g (fld w 46 42)).toNat + 8 * j) 8)))) r.cd r.tile r.slot) := by
  refine completes_of_act ((exec_drv hi s).1 r) ?_
  have hq' : ¬ 16 ≤ drvQueued (droverOf (issuedDev s.dev r g p w) (tileDrover r.cd r.tile)) := Nat.not_le.2 hq
  rw [drvThread, issueLeader_issues h (selDrv_self fill) hc]
  simp only [issueCtx, hq', hb, upoison_movedGroup, hp, ureg_movedGroup, ha, Nat.not_le.2 ht, poisonAt_issuedDev, valAt_issuedDev, hd, ne_eq,
    not_true, if_false, if_true, Bool.false_eq_true]
  rfl

/-- A path's move whose descriptor is not aligned to a line faults its block. -/
theorem completes_drvThread_misaligned (ha : (ureg g (fld w 46 42)).toNat % 64 ≠ 0) :
    Completes (i (.thread r)) s (leaderFault s.dev r g p b w stIllegal none) := by
  refine completes_of_act ((exec_drv hi s).1 r) ?_
  have hq' : ¬ 16 ≤ drvQueued (droverOf (issuedDev s.dev r g p w) (tileDrover r.cd r.tile)) := Nat.not_le.2 hq
  rw [drvThread, issueLeader_issues h (selDrv_self fill) hc]
  simp only [issueCtx, hq', hb, upoison_movedGroup, hp, ureg_movedGroup, ha, ne_eq, not_false_eq_true, if_false, if_true, Bool.false_eq_true]
  rfl

end Local

end Thread

/-- A stream's move. -/
theorem completes_drvStream {q : Nat} {w : Word64} {imms : List Word64} (hi : (i, fill) ∈ drvInstrs)
    (h : Starts s.dev q (.drv fill) w imms) (hn : holdsNew s.dev = false)
    (hq : drvQueued (droverOf s.dev (streamDrover (queueCd q))) < 16) :
    Completes (i (.stream q)) s (started s.dev q w (retireInstr (pushMove s.dev (streamDrover (queueCd q))
      (newMove fill w (some ((imms.headD 0).toNat % vaMod)) [] (qClass s.dev q) q (qPart s.dev q) (queueSpace s.dev q) none 0))
      q (1 + wExt w))) := by
  refine completes_stream ((exec_drv hi s).2 q) h (selDrv_self fill) ?_
  simp only [hn, Nat.not_le.2 hq, decide_false, Bool.or_self, Bool.false_eq_true, if_false]

/-- The drover reads the descriptor of its first queued move. -/
theorem completes_drvDescriptorFetch {drover a : Nat} {m : Move} {e : Dev} {pas : List (Nat × Nat)}
    (hm : (droverOf s.dev drover).moves.find? (fun m => m.phase == .queued) = some m)
    (hcap : drvInFlight (droverOf s.dev drover) < drvCap drover) (ha : m.addr = some a)
    (hr : drvRange s.dev (moveSel drover m) m.space m.part .read (rangeLines a 64) [] = (e, .inr pas))
    (hp : ∀ z ∈ pas, poisonAt (readLines e [] (pas.map fun z => z.1 / 64)) (z.1 / 64) = false) :
    Completes (.drvDescriptorFetch drover []) s
      (updMove (readLines e [] (pas.map fun z => z.1 / 64)) ⟨drover, m.id⟩ fun v => { v with
        phase := .read
        words := (List.range 8).map fun i => BitVec.ofNat 64
          (leNat (((gather (readLines e [] (pas.map fun z => z.1 / 64)) pas).drop (8 * i)).take 8)) }) := by
  have hany : (pas.any fun z => poisonAt (readLines e [] (pas.map fun z => z.1 / 64)) (z.1 / 64)) = false := by
    simpa using hp
  change execDrvDescriptorFetch drover [] s = _
  simp only [execDrvDescriptorFetch, act, hm, ha, hr, hany, if_neg (Nat.not_le.2 hcap), Bool.false_eq_true, if_false]
  rfl

section Start
variable {drover id : Nat} {m : Move} {e : Dev} (hm : moveOf s.dev ⟨drover, id⟩ = some m) (hr : m.phase = .read)
  (hg : moveGong s.dev (moveSel drover m) m (descOf m) = (e, some 0))

/-- A move whose gong check has passed. -/
def gongChecked (d : Dev) (k : MoveId) (c : Desc) : Dev := updMove d k fun m => { m with gongOk := c.gv }

/-- A move whose checks have all passed, with the units that its pieces touch. -/
def moveChecked (d : Dev) (k : MoveId) (c : Desc) (ps : List Piece) : Dev :=
  updMove (gongChecked d k c) k fun m => { m with touch := pieceUnits d ps }

include hm hr hg

/-- A malformed descriptor ends its move. -/
theorem completes_drvMoveStart_malformed (hd : descOk m = false) :
    Completes (.drvMoveStart drover id []) s (endMove (gongChecked e ⟨drover, id⟩ (descOf m)) ⟨drover, id⟩ stIllegal 0 none) := by
  change execDrvMoveStart drover id [] s = _
  simp [execDrvMoveStart, act, hm, hr, hg, hd, gongChecked]

/-- A well-formed local move whose checks pass is done by its drover, a reduction goes to its homes. -/
theorem completes_drvMoveStart {f : Dev} {ps : List Piece} (hd : descOk m = true) (hdst : (descOf m).dsp ≠ 2)
    (hsrc : m.fill = false → (descOf m).ssp ≠ 2)
    (hk : checkPieces e (moveSel drover m) m (descOf m) (movePieces m (descOf m)) [] = (f, .inr ps)) :
    Completes (.drvMoveStart drover id []) s
      (if (descOf m).red = 0 then moveLocal (moveChecked f ⟨drover, id⟩ (descOf m) ps) ⟨drover, id⟩ m (descOf m) ps []
       else moveReduce (moveChecked f ⟨drover, id⟩ (descOf m) ps) ⟨drover, id⟩ m (descOf m) ps []) := by
  have hlocal : ((descOf m).dsp == 2 || (!m.fill && (descOf m).ssp == 2)) = false := by
    cases hf : m.fill
    · simp [hdst, hsrc hf]
    · simp [hdst]
  change execDrvMoveStart drover id [] s = _
  simp [execDrvMoveStart, act, hm, hr, hg, hd, hlocal, hk, gongChecked, moveChecked]

end Start

/-- The package once a move has been told of in its queue's status, in its drover's flags and fault record. -/
def moveReported (d : Dev) (drover : Nat) (m : Move) : Dev :=
  let d := accumulate d m.queue m.status
  let fl := drvOff drover 1
  let first := !flag d fl 0
  let d := flagIf (m.words != [] && stHas m.status stPoison) d fl 1
  if !moveFault m then d else
    let d := setFlag d fl 0
    if !first then d else
    let d := setReg d (drvOff drover 2) (BitVec.ofNat 32 (drvCode m.status + m.side * 8 + m.queue * 16))
    match m.va with
    | some a => setVaRegs d (drvOff drover 3) a
    | none => d

theorem moveReported_records (d : Dev) (drover : Nat) (m : Move) :
    Records (accumulate d m.queue m.status) (moveReported d drover m) := by
  have hflag := flagIf_records (m.words != [] && stHas m.status stPoison) (accumulate d m.queue m.status) (drvOff drover 1) 1
  unfold moveReported
  dsimp only
  split
  · exact hflag
  · have hfault := hflag.trans (setFlag_records _ (drvOff drover 1) 0)
    split
    · exact hfault
    · have hcode := fun v => hfault.trans (setReg_records _ (drvOff drover 2) v)
      split
      · exact (hcode _).trans ((setReg_records _ _ _).trans (setReg_records _ _ _))
      · exact hcode _

/-- A drover without a move. -/
def moveDropped (d : Dev) (drover id : Nat) : Dev :=
  setDrover d drover { droverOf d drover with moves := (droverOf d drover).moves.filter fun v => v.id != id }

/-- The package once a move has left its drover, and before it has added to its gong. -/
def moveEnded (d : Dev) (drover id : Nat) (m : Move) : Dev :=
  trace (moveDropped (moveReported d drover m) drover id) (drover / 1024) 0x0D (drover % 1024) 4 (some m.part) (some m.cls)
    (m.queue + (if m.status = 0 then 0 else drvCode m.status) * 2 ^ 12) (moveBytes m (descOf m))

/-- The add of 1 that a move which has ended sends to its gong. -/
def moveAdd (m : Move) : GongUpd :=
  ⟨(descOf m).gong, .add, 1, 2 + (descOf m).scope, if m.tile.isNone then Who.queue m.queue else .drover, 0⟩

theorem completes_drvMoveComplete {drover id : Nat} {m : Move} (hm : moveOf s.dev ⟨drover, id⟩ = some m) (hr : m.phase = .moved) :
    Completes (.drvMoveComplete drover id) s
      (if m.gongOk then sendUpdate (moveEnded s.dev drover id m) (moveAdd m) else moveEnded s.dev drover id m) := by
  change execDrvMoveComplete drover id s = _
  simp only [execDrvMoveComplete, act, hm, hr, ne_eq, not_true, if_false]
  rfl

theorem moveEnded_records (d : Dev) (drover id : Nat) (m : Move) :
    Records (moveDropped (moveReported d drover m) drover id) (moveEnded d drover id m) := trace_records _ _ _ _ _ _ _ _ _

/-- What the end of a move leaves as it was: its queue's accumulator has its status, its drover has lost it. -/
theorem moveEnded_fields (d : Dev) (drover id : Nat) (m : Move) :
    (queueOf (moveEnded d drover id m) m.queue).accum = (queueOf d m.queue).accum ||| m.status ∧
      (droverOf (moveEnded d drover id m) drover).moves = (droverOf d drover).moves.filter (fun v => v.id != id) ∧
      (moveEnded d drover id m).gg = d.gg ∧ (moveEnded d drover id m).mem = d.mem := by
  obtain ⟨hgg, hmem, hqs, hdrv, -⟩ := (moveReported_records d drover m).fields
  obtain ⟨hgg', hmem', hqs', hdrv', -⟩ := (moveEnded_records d drover id m).fields
  have hx : droverOf (moveReported d drover m) drover = droverOf d drover := by rw [droverOf, hdrv]; rfl
  refine ⟨?_, ?_, hgg'.trans hgg, hmem'.trans hmem⟩
  · rw [queueOf_of_qs (hqs'.trans hqs), accumulate, queueOf_setQueue_same]
  · rw [droverOf, hdrv', ← droverOf, moveDropped, droverOf_setDrover, if_pos rfl, hx]

end Sys2Proof.Machine
end

section
/-! PROOFS. The obligation on drover moves. -/

open Sys2Proof Sys2Proof.Machine Sys2Proof.Machine.Parts

/-- Settles O22, command by command; the bytes outside the pieces' destinations are those that no line write of the move covers. -/
theorem droverMoves : Obligations.DroverMoves := by
  unfold Obligations.DroverMoves
  refine ⟨?issue, fun s drover a m e pas hm hcap ha hr hp => completes_drvDescriptorFetch hm hcap ha hr hp, ?start, ?complete⟩
  case issue =>
    intro s i fill hi
    refine ⟨fun r g p b w imms h hc hq => ⟨completes_drvThread_general hi h hc hq, fun hb hp =>
      ⟨fun ha ht hpa => completes_drvThread_local hi h hc hq hb hp ha ht hpa,
        fun ha => completes_drvThread_misaligned hi h hc hq hb hp ha⟩⟩, fun q w imms h hn hq => completes_drvStream hi h hn hq⟩
  case start =>
    intro s drover id m e k c hm hr hg
    refine ⟨completes_drvMoveStart_malformed hm hr hg, fun f ps hd hdst hsrc hk => ?_⟩
    have hdone := completes_drvMoveStart hm hr hg hd hdst hsrc hk
    refine ⟨fun hred => ?_, fun hred => ⟨?_, fun a ha => ?_⟩⟩
    · rwa [if_neg hred] at hdone
    · rwa [if_pos hred] at hdone
    · rw [byteAt_moveLocal _ _ _ _ _ ha, byteAt_readLines]
      exact byteAt_of_mem ((updMove_mem _ _ _).trans (updMove_mem _ _ _)) a
  case complete =>
    intro s drover id m hm hr
    obtain ⟨haccum, hmoves, hgg, hmem⟩ := moveEnded_fields s.dev drover id m
    refine ⟨_, completes_drvMoveComplete hm hr, ?_⟩
    cases m.gongOk with
    | false => exact ⟨haccum, hmoves, (congrArg Gongs.upd hgg).trans (List.append_nil _).symm, hmem⟩
    | true => exact ⟨haccum, hmoves, congrArg (· ++ [moveAdd m]) (congrArg Gongs.upd hgg), hmem⟩

end

section
/-! SUPPORT. Words of gong updates (09 R286, R287): the function that a decoded word names. -/

namespace Sys2Proof.Machine

open Parts

theorem keepIf_eq_some {c : Bool} {o p : Op} : keepIf c o = some p ↔ c = true ∧ o = p := by
  cases c <;> simp [keepIf]

/-- A gong update is decoded from the opcode of gong updates alone. -/
theorem decBody_gong {op fn : Nat} {w : Word64} (h : decBody op w = some (.gong fn)) : decGong w = some (.gong fn) := by
  unfold decBody at h
  split at h
  case h_23 => exact h
  all_goals
    simp only [decAluR, decAluI, decMul, decFp, decCmp, decPlogic, decMove, decMem, decUni, decBranch, decCtl, decMma, decMxAcc,
      decAl, decSplit, decSpMma, decSpRd, decDrv, decGwait, decFence, decCtlClass, decLaunch, decVx, decVxMem, keepIf_eq_some,
      reduceCtorEq, and_false] at h
    repeat' split at h
  all_goals simp [keepIf_eq_some] at h

theorem decGong_fn {fn : Nat} {w : Word64} (h : decGong w = some (.gong fn)) : fld w 49 46 = fn :=
  Op.gong.inj (keepIf_eq_some.1 h).2

/-- The function field of a thread's gong update. -/
theorem decodeThread_gong_fn {fn : Nat} {w : Word64} (h : decodeThread w = some (.gong fn)) : fld w 49 46 = fn := by
  unfold decodeThread at h
  dsimp only at h
  split at h
  · exact decGong_fn (decBody_gong h)
  · cases h

/-- The function field of a stream's gong update. -/
theorem decodeStream_gong_fn {fn : Nat} {w : Word64} (h : decodeStream w = some (.gong fn)) : fld w 49 46 = fn := by
  unfold decodeStream at h
  dsimp only at h
  split at h
  · split at h
    · next o ho =>
      split at h
      · cases h
        exact decGong_fn (decBody_gong ho)
      · cases h
    · cases h
  · cases h

/-- The word that a stream starts is decoded as its operation. -/
theorem streamWord_decodes {x : Queue} {op : Op} {w : Word64} {imms : List Word64} (h : streamWord x = some (op, w, imms)) :
    decodeStream w = some op := by
  unfold streamWord at h
  dsimp only at h
  split at h
  · cases h
  · split at h
    · next o ho =>
      split at h
      · cases h
        exact ho
      · cases h
    · cases h

/-- The instructions of gong updates, each with the code and the function that a word gives it. -/
def gongInstrs (w : Word64) : List ((Issuer → Instr) × Nat × GongFn) :=
  [(Instr.gongAdd, 0, .add), (Instr.gongSet, 1, .set), (Instr.gongMax, 2, .max), (Instr.gongArm, 3, .arm (fld w 36 24)),
    (Instr.gongDisarm, 4, .disarm)]

/-- The instructions of gong waits, with whether each waits for equality. -/
def gongWaits : List ((Issuer → Instr) × Bool) := [(Instr.gongWaitGe, false), (Instr.gongWaitEq, true)]

theorem exec_gong {i : Issuer → Instr} {fn : Nat} {f : GongFn} {w : Word64} (hi : (i, fn, f) ∈ gongInstrs w) (s : State) :
    (∀ r, exec (i (.thread r)) s = act s (gongThread fn r)) ∧ ∀ q, exec (i (.stream q)) s = act s (gongStream fn q) := by
  simp only [gongInstrs, List.mem_cons, Prod.mk.injEq, List.not_mem_nil, or_false] at hi
  rcases hi with ⟨rfl, rfl, -⟩ | ⟨rfl, rfl, -⟩ | ⟨rfl, rfl, -⟩ | ⟨rfl, rfl, -⟩ | ⟨rfl, rfl, -⟩ <;>
    exact ⟨fun _ => rfl, fun _ => rfl⟩

/-- The function of a word is that of its instruction. -/
theorem gongFn_of_code {i : Issuer → Instr} {fn : Nat} {f : GongFn} {w : Word64} (hi : (i, fn, f) ∈ gongInstrs w)
    (hw : fld w 49 46 = fn) : gongFn w = f := by
  simp only [gongInstrs, List.mem_cons, Prod.mk.injEq, List.not_mem_nil, or_false] at hi
  rcases hi with ⟨-, rfl, rfl⟩ | ⟨-, rfl, rfl⟩ | ⟨-, rfl, rfl⟩ | ⟨-, rfl, rfl⟩ | ⟨-, rfl, rfl⟩ <;> simp [gongFn, hw]

theorem exec_gongWait {i : Issuer → Instr} {eq : Bool} (hi : (i, eq) ∈ gongWaits) (s : State) :
    (∀ r, exec (i (.thread r)) s = act s (waitThread eq r)) ∧ ∀ q, exec (i (.stream q)) s = act s (waitStream eq q) := by
  simp only [gongWaits, List.mem_cons, Prod.mk.injEq, List.not_mem_nil, or_false] at hi
  rcases hi with ⟨rfl, rfl⟩ | ⟨rfl, rfl⟩ <;> exact ⟨fun _ => rfl, fun _ => rfl⟩

theorem selGong_self (fn : Nat) : selGong fn (.gong fn) = true := beq_self_eq_true fn

theorem selWait_self (eq : Bool) : selWait eq (.gwait eq) = true := beq_self_eq_true eq

end Sys2Proof.Machine
end

section
/-! SUPPORT. Translation and the check of a gong (09 R285; 13 R390 to R408): no tile differs after it. -/

namespace Sys2Proof.Machine

open Parts

theorem setTlb_tiles (d : Dev) (sel : TlbSel) (l : List TlbEntry) : (setTlb d sel l).tiles = d.tiles := by
  cases sel <;> rfl

theorem latchXlat_tiles (d : Dev) (i : Nat) (sp : Space) (va : Nat) (acc : Access) (c : Nat) :
    (latchXlat d i sp va acc c).tiles = d.tiles := by
  have hflag := setFlag_records d (xlatOff i 5) 0
  unfold latchXlat
  dsimp only
  split
  · exact (hflag.trans (((setReg_records _ _ _).trans (setReg_records _ _ _)).trans (setReg_records _ _ _))).fields.2.2.2.2
  · exact hflag.fields.2.2.2.2

theorem keepLine_tiles (d : Dev) (c l ln : Nat) : (keepLine d c l ln).tiles = d.tiles := by
  unfold keepLine
  split <;> rfl

theorem homeFill_tiles (d : Dev) (ln : Nat) : (homeFill d ln).tiles = d.tiles := by
  unfold homeFill
  split
  · rfl
  · split
    · exact addCtr_tiles _ _ _
    · split
      · rfl
      · rw [keepLine_tiles, addCtr_tiles, addCtr_tiles]

theorem fillLines_tiles (d : Dev) (lines : List Nat) : (fillLines d lines).tiles = d.tiles := by
  induction lines generalizing d with
  | nil => rfl
  | cons ln lines ih => exact (ih _).trans (homeFill_tiles d ln)

theorem walkFor_tiles (d : Dev) (sel : TlbSel) (sp : Space) (va : Nat) (acc : Access) :
    (walkFor d sel sp va acc).1.tiles = d.tiles := by
  have hleaf : ∀ d e level, (cacheLeaf d sel sp va e level).tiles = d.tiles := fun d e level => setTlb_tiles _ _ _
  have hptrs : ∀ d i ps, (cachePtrs d i sp va ps).tiles = d.tiles := fun _ _ _ => rfl
  unfold walkFor
  dsimp only
  split
  · exact (latchXlat_tiles _ _ _ _ _ _).trans (fillLines_tiles _ _)
  · split
    · rw [hleaf, hptrs, fillLines_tiles]
    · rw [xlatEnds, latchXlat_tiles, hleaf, hptrs, fillLines_tiles]

theorem xlatMiss_tiles (d : Dev) (sel : TlbSel) (sp : Space) (va : Nat) (acc : Access) :
    (xlatMiss d sel sp va acc).1.tiles = d.tiles := by
  unfold xlatMiss
  dsimp only
  split
  · exact latchXlat_tiles _ _ _ _ _ _
  · split
    · rfl
    · split
      · rfl
      · exact walkFor_tiles _ _ _ _ _

theorem translate_tiles (d : Dev) (sel : TlbSel) (sp : Space) (va : Nat) (acc : Access) :
    (translate d sel sp va acc).1.tiles = d.tiles := by
  unfold translate
  split
  · exact xlatMiss_tiles _ _ _ _ _
  · dsimp only
    split
    · exact setTlb_tiles _ _ _
    · split
      · exact (xlatMiss_tiles _ _ _ _ _).trans (setTlb_tiles _ _ _)
      · exact latchXlat_tiles _ _ _ _ _ _

theorem gongCheck_tiles (d : Dev) (sel : TlbSel) (sp : Space) (g : Nat) : (gongCheck d sel sp g).1.tiles = d.tiles := by
  have h : (gongRight d sel sp g).1.tiles = d.tiles := translate_tiles _ _ _ _ _
  unfold gongCheck
  split
  · rfl
  · split <;> (next he => rw [he] at h; exact h)

end Sys2Proof.Machine
end

section
/-! SUPPORT. Gong operations of a path (09 R285 to R289): the operation as its word and registers give it, and each end of its
check. -/

namespace Sys2Proof.Machine

open Parts

variable {s : State} {r : PathRef} {g : Group} {p : Path} {b : Block} {w : Word64} {imms : List Word64} {op : Op}

/-- The gong that a path's operation names. -/
def pathGong (g : Group) (w : Word64) : Nat := if bit w 1 then fld (ureg g (fld w 6 2)) 16 0 else fld w 23 7

/-- The operand of a path's gong operation. -/
def pathOperand (g : Group) (w : Word64) (imms : List Word64) : Word64 :=
  if wExt w = 1 then imms.headD 0 else ureg g (fld w 6 2)

/-- What a path's gong operation takes from its uniform register is not poisoned. -/
def OperandClean (g : Group) (w : Word64) : Prop := (bit w 1 || wExt w == 0) = true → upoison g (fld w 6 2) = false

/-- Who issues a path's gong operation. -/
def pathWho (r : PathRef) (p : Path) : Who := .path r.cd r.tile r.slot p.lanes.toNat

theorem gongArgs_issueCtx {d : Dev} (hclean : OperandClean g w) :
    gongArgs (issueCtx d r g p b w op imms) = (pathGong g w, pathOperand g w imms, false) := by
  have hp : ((bit w 1 || wExt w == 0) && upoison g (fld w 6 2)) = false := by
    cases hu : (bit w 1 || wExt w == 0)
    · rfl
    · exact hclean hu
  change (pathGong g w, pathOperand g w imms, (bit w 1 || wExt w == 0) && upoison g (fld w 6 2)) = _
  rw [hp]

section Update
variable {i : Issuer → Instr} {fn : Nat} {f : GongFn} {e : Dev} (hi : (i, fn, f) ∈ gongInstrs w)
  (h : Issues s.dev r g p b w (.gong fn) imms) (hc : LeaderGoes w g p) (hclean : OperandClean g w)
include hi h hc hclean

/-- A path's update whose check passes is on its way. -/
theorem gongThread_go
    (hk : updateCheck (issuedDev s.dev r g p w) (.tile r.cd r.tile) b.space b.part (pathGong g w) w = (e, .go)) :
    Completes (i (.thread r)) s (settleSlot (launchUpdate e w b.cls ⟨pathGong g w, f, pathOperand g w imms, fld w 45 44,
      pathWho r p, (tileOf s.dev r.cd r.tile).ord + 1⟩) r.cd r.tile r.slot) := by
  refine completes_of_act ((exec_gong hi s).1 r) ?_
  rw [gongThread, issueLeader_issues h (selGong_self fn) hc, gongArgs_issueCtx hclean,
    ← gongFn_of_code hi (decodeThread_gong_fn h.decodes)]
  simp only [issueCtx, hk, Bool.false_eq_true, if_false]
  rfl

/-- A check that ends a path's update gives its block a status. -/
theorem gongThread_ends {st : Nat}
    (hk : updateCheck (issuedDev s.dev r g p w) (.tile r.cd r.tile) b.space b.part (pathGong g w) w = (e, .ends st)) :
    Completes (i (.thread r)) s (settleSlot (raiseStatus e r.cd r.tile b.id st) r.cd r.tile r.slot) := by
  refine completes_of_act ((exec_gong hi s).1 r) ?_
  rw [gongThread, issueLeader_issues h (selGong_self fn) hc, gongArgs_issueCtx hclean]
  simp only [issueCtx, hk, Bool.false_eq_true, if_false]

/-- A check of a path's update that faults faults its block. -/
theorem gongThread_fault {st va : Nat}
    (hk : updateCheck (issuedDev s.dev r g p w) (.tile r.cd r.tile) b.space b.part (pathGong g w) w = (e, .fault st va)) :
    Completes (i (.thread r)) s
      (settleSlot (blockFault e r.cd r.tile b.id r.slot (leader p) p.pc st (some va)) r.cd r.tile r.slot) := by
  refine completes_of_act ((exec_gong hi s).1 r) ?_
  rw [gongThread, issueLeader_issues h (selGong_self fn) hc, gongArgs_issueCtx hclean]
  simp only [issueCtx, hk, Bool.false_eq_true, if_false]
  rfl

end Update

/-- The leader of an issuing path is one of its lanes. -/
theorem bit_leader_of_issues {d : Dev} (h : Issues d r g p b w op imms) : bit p.lanes (leader p) = true := by
  obtain ⟨g₀, p₀, -, hp, hi⟩ := h.path
  obtain ⟨-, -, -, hl⟩ := issuingPath_eq hi
  exact bit_leader p r.lane (hl _ (find?_some_bit hp))

section Wait
variable {i : Issuer → Instr} {eq : Bool} {e : Dev} (hi : (i, eq) ∈ gongWaits)
  (h : Issues s.dev r g p b w (.gwait eq) imms) (hc : LeaderGoes w g p) (hclean : OperandClean g w)

/-- The group of a path that is held at a gong. -/
def heldGroup (g : Group) (p : Path) (w : Word64) : Group :=
  { movedGroup g p w with paths := (movedGroup g p w).paths.map fun q => if q.lanes = p.lanes then { q with st := .gong } else q }

/-- The package once a path has been held at a gong. -/
def pathHeld (e : Dev) (r : PathRef) (g : Group) (p : Path) (w : Word64) : Dev :=
  setTile e r.cd r.tile (setGroup (tileOf e r.cd r.tile) r.slot (heldGroup g p w))

/-- The wait of a path at its gong. -/
def pathWait (e : Dev) (r : PathRef) (g : Group) (p : Path) (w : Word64) (imms : List Word64) (eq : Bool) : Waiter :=
  ⟨pathGong g w, eq, pathOperand g w imms, fld w 45 44, pathWho r p, false, .none, (reg64 e hdPcntOff).toNat, p.pc⟩

theorem pathOf_heldGroup {d : Dev} (h : Issues d r g p b w op imms) :
    pathOf (heldGroup g p w) (leader p) = some { movedPath p w with st := .gong } := by
  have hb : bit p.lanes (leader p) = true := bit_leader_of_issues h
  simp [pathOf, heldGroup, movedGroup, movedPath, hb]

/-- A path is held in the group that its issue left. -/
theorem updPath_held (ht : e.tiles = (issuedDev s.dev r g p w).tiles) :
    updPath e (issueCtx s.dev r g p b w op imms) (fun q => { q with st := .gong }) = pathHeld e r g p w := by
  have hg : groupAt (tileOf e r.cd r.tile) r.slot = some (movedGroup g p w) := by
    rw [tileOf, ht, ← tileOf, tileOf_issuedDev, groupAt_issued]
  simp only [updPath, updGroup, issueCtx, hg]
  rfl

include hi h hc hclean

/-- A path's wait whose check passes is sent, and holds its path. -/
theorem waitThread_go (hk : gongCheck (issuedDev s.dev r g p w) (.tile r.cd r.tile) b.space (pathGong g w) = (e, .go)) :
    Completes (i (.thread r)) s
      (settleSlot (sendWait (pathHeld e r g p w) (pathWait e r g p w imms eq)) r.cd r.tile r.slot) := by
  have ht : e.tiles = (issuedDev s.dev r g p w).tiles := by
    have := gongCheck_tiles (issuedDev s.dev r g p w) (.tile r.cd r.tile) b.space (pathGong g w)
    rwa [hk] at this
  refine completes_of_act ((exec_gongWait hi s).1 r) ?_
  rw [waitThread, issueLeader_issues h (selWait_self eq) hc, gongArgs_issueCtx hclean]
  have hk' : gongCheck (issuedDev s.dev r g p w)
      (.tile (issueCtx s.dev r g p b w (.gwait eq) imms).c (issueCtx s.dev r g p b w (.gwait eq) imms).t)
      (issueCtx s.dev r g p b w (.gwait eq) imms).b.space (pathGong g w) = (e, .go) := hk
  simp only [hk', updPath_held ht, Bool.false_eq_true, if_false]
  rfl

/-- A check that ends a path's wait gives its block a status. -/
theorem waitThread_ends {st : Nat}
    (hk : gongCheck (issuedDev s.dev r g p w) (.tile r.cd r.tile) b.space (pathGong g w) = (e, .ends st)) :
    Completes (i (.thread r)) s (settleSlot (raiseStatus e r.cd r.tile b.id st) r.cd r.tile r.slot) := by
  refine completes_of_act ((exec_gongWait hi s).1 r) ?_
  rw [waitThread, issueLeader_issues h (selWait_self eq) hc, gongArgs_issueCtx hclean]
  simp only [issueCtx, hk, Bool.false_eq_true, if_false]

/-- A check of a path's wait that faults faults its block. -/
theorem waitThread_fault {st va : Nat}
    (hk : gongCheck (issuedDev s.dev r g p w) (.tile r.cd r.tile) b.space (pathGong g w) = (e, .fault st va)) :
    Completes (i (.thread r)) s
      (settleSlot (blockFault e r.cd r.tile b.id r.slot (leader p) p.pc st (some va)) r.cd r.tile r.slot) := by
  refine completes_of_act ((exec_gongWait hi s).1 r) ?_
  rw [waitThread, issueLeader_issues h (selWait_self eq) hc, gongArgs_issueCtx hclean]
  simp only [issueCtx, hk, Bool.false_eq_true, if_false]
  rfl

end Wait

end Sys2Proof.Machine
end

section
/-! SUPPORT. Gong operations of a stream (09 R285 to R289; 02 R38, R40): each end of the check. -/

namespace Sys2Proof.Machine

open Parts

variable {s : State} {q : Nat} {w : Word64} {imms : List Word64} {i : Issuer → Instr} {e : Dev}

section Update
variable {fn : Nat} {f : GongFn} (hi : (i, fn, f) ∈ gongInstrs w) (h : Starts s.dev q (.gong fn) w imms)
include hi h

/-- A stream's update whose check passes is on its way, and has retired. -/
theorem gongStream_go
    (hk : updateCheck s.dev (.stream (queueCd q)) (queueSpace s.dev q) (qPart s.dev q) (fld w 23 7) w = (e, .go)) :
    Completes (i (.stream q)) s (started s.dev q w (retireInstr (launchUpdate e w (qClass e q)
      ⟨fld w 23 7, f, imms.headD 0, fld w 45 44, .queue q, streamOrd e q⟩) q (1 + wExt w))) := by
  refine completes_stream ((exec_gong hi s).2 q) h (selGong_self fn) ?_
  simp only [hk, gongFn_of_code hi (decodeStream_gong_fn (streamWord_decodes h.2))]

/-- A stream's update whose check fails retires with its status. -/
theorem gongStream_fails {st va : Nat}
    (hk : updateCheck s.dev (.stream (queueCd q)) (queueSpace s.dev q) (qPart s.dev q) (fld w 23 7) w = (e, .ends st) ∨
      updateCheck s.dev (.stream (queueCd q)) (queueSpace s.dev q) (qPart s.dev q) (fld w 23 7) w = (e, .fault st va)) :
    Completes (i (.stream q)) s (started s.dev q w (retireWith e q (1 + wExt w) st)) := by
  refine completes_stream ((exec_gong hi s).2 q) h (selGong_self fn) ?_
  rcases hk with hk | hk <;> simp only [hk]

end Update

/-- A stream's wait at its gong. -/
def queueWait (e : Dev) (q : Nat) (w : Word64) (imms : List Word64) (eq : Bool) : Waiter :=
  ⟨fld w 23 7, eq, imms.headD 0, fld w 45 44, .queue q, false, .none, (reg64 e hdPcntOff).toNat, 0⟩

/-- A queue that waits at a gong. -/
def waitingQueue (x : Queue) : Queue := { x with state := .wait, wait := .gong }

/-- The package once a stream's wait has been sent and its queue is held. -/
def queueHeld (e : Dev) (q : Nat) (w : Word64) (imms : List Word64) (eq : Bool) : Dev :=
  sendWait (setQueue e q (waitingQueue (queueOf e q))) (queueWait e q w imms eq)

theorem queueOf_queueHeld (e : Dev) (q : Nat) (w : Word64) (imms : List Word64) (eq : Bool) :
    queueOf (queueHeld e q w imms eq) q = waitingQueue (queueOf e q) :=
  queueOf_setQueue_same e q (waitingQueue (queueOf e q))

/-- A queue that starts an instruction waits for nothing. -/
theorem wait_none_of_starts {d : Dev} {op : Op} (h : Starts d q op w imms) : (queueOf d q).wait = .none := by
  have hc := h.1
  simp only [canStart, Bool.and_eq_true, beq_iff_eq] at hc
  exact hc.1.2

/-- A stream's wait whose check passes is sent, and holds its queue: the queue has moved, so the start is traced. -/
theorem waitStream_go {eq : Bool} (hi : (i, eq) ∈ gongWaits) (h : Starts s.dev q (.gwait eq) w imms)
    (hk : gongCheck s.dev (.stream (queueCd q)) (queueSpace s.dev q) (fld w 23 7) = (e, .go)) :
    Completes (i (.stream q)) s (traceStart (queueHeld e q w imms eq) q (queueOf s.dev q) w) := by
  have hmoved : queueOf (queueHeld e q w imms eq) q ≠ queueOf s.dev q := fun hq => by
    have hw := congrArg Queue.wait hq
    rw [queueOf_queueHeld, wait_none_of_starts h] at hw
    cases hw
  have hdone : Completes (i (.stream q)) s (started s.dev q w (queueHeld e q w imms eq)) := by
    refine completes_stream ((exec_gongWait hi s).2 q) h (selWait_self eq) ?_
    simp only [hk]
    rfl
  rwa [started, if_neg hmoved] at hdone

end Sys2Proof.Machine
end

section
/-! PROOFS. The obligation on gong updates and waits that are sent. -/

open Sys2Proof Sys2Proof.Machine Sys2Proof.Machine.Parts

/-- Settles O16, by path and by stream: the check decides, and what passes it goes to its gong unit or to its convoy. -/
theorem gongUpdatesSent : Obligations.GongUpdatesSent := by
  unfold Obligations.GongUpdatesSent
  refine ⟨?paths, ?streams⟩
  case paths =>
    intro s r g p b w imms e d gong v who clean ends
    refine ⟨fun i fn f hi h hc hclean => ?_, fun i eq hi h hc hclean => ?_⟩
    · refine ⟨fun hk => ?_, fun st hk => gongThread_ends hi h hc hclean hk, fun st va hk => gongThread_fault hi h hc hclean hk⟩
      have hdone := gongThread_go hi h hc hclean hk
      refine ⟨fun hb => ?_, fun hb => ?_⟩
      · rwa [launchUpdate, hb, if_neg Bool.false_ne_true] at hdone
      · rwa [launchUpdate, hb, if_pos rfl] at hdone
    · refine ⟨fun hk => ⟨_, waitThread_go hi h hc hclean hk, rfl, rfl, ?_⟩, fun st hk => waitThread_ends hi h hc hclean hk,
        fun st va hk => waitThread_fault hi h hc hclean hk⟩
      change (groupAt (tileOf (pathHeld e r g p w) r.cd r.tile) r.slot).bind (pathOf · (leader p)) = _
      rw [pathHeld, tileOf_setTile_same, groupAt_setGroup_same]
      exact pathOf_heldGroup h
  case streams =>
    intro s q w imms e d gong
    refine ⟨fun i fn f hi h => ⟨fun hk hb => ?_, fun hk hb => ?_, fun st va hk => gongStream_fails hi h hk⟩,
      fun i eq hi h hk => ⟨_, waitStream_go hi h hk, queueOf_queueHeld e q w imms eq, rfl⟩⟩
    · have hdone := gongStream_go hi h hk
      rwa [launchUpdate, hb, if_neg Bool.false_ne_true] at hdone
    · have hdone := gongStream_go hi h hk
      rwa [launchUpdate, hb, if_pos rfl] at hdone

end
